-- ==== Sys2Proof/Word.lean ====
section
/-! DEFINITION. Word.lean: the word types of the GW24 and the 40-bit tagged value of the fabric (R2, R96). -/

namespace Sys2Proof

/-- One byte of any memory; memory is little-endian at every width (R2). -/
abbrev Byte := BitVec 8
/-- A 32-bit word: the payload of a fabric value, an instruction word, a half of an address. -/
abbrev Word := BitVec 32
/-- A 64-bit word: a scalar register, a generic address, a device register. -/
abbrev DWord := BitVec 64
/-- A 128-bit chunk: a quarter HBM word, a step row, a matrix chunk. -/
abbrev QWord := BitVec 128
/-- An element word (R71). -/
abbrev ElemWord := BitVec 96

/-- A value of the fabric: 32 bits beside an 8-bit tag (R96). -/
structure TVal where
  bits : Word
  tag : Byte
deriving DecidableEq, Repr, Inhabited

/-- The EMPTY value: bits 0, tag 0x00 (R96, R460). -/
def TVal.empty : TVal := ⟨0, 0⟩

/-- The format code of a tag, bits [5:0] (R96). -/
def TVal.code (v : TVal) : Nat := v.tag.toNat % 64
/-- The scaled flag of a tag, bit 7 (R96). -/
def TVal.scaled (v : TVal) : Bool := v.tag.getLsbD 7

end Sys2Proof
end

