-- ==== Sys2Proof/Machine/Bits.lean ====
section
/-! DEFINITION. Machine/Bits.lean: bit fields, byte order and sign extension (R2, R3). -/

namespace Sys2Proof.Machine

/-- `x[hi:lo]` of a natural number, both ends included (R3). -/
def bitsOf (x hi lo : Nat) : Nat := (x / 2 ^ lo) % 2 ^ (hi + 1 - lo)

/-- `x[n]` of a natural number, as a Bool (R3). -/
def bitOf (x n : Nat) : Bool := (x / 2 ^ n) % 2 == 1

/-- One when the condition holds, else zero. -/
def bit01 (b : Bool) : Nat := if b then 1 else 0

/-- The two's-complement reading of the low `w` bits of `x`. -/
def sext (w x : Nat) : Int :=
  let y := x % 2 ^ w
  if y < 2 ^ (w - 1) then (y : Int) else (y : Int) - 2 ^ w

/-- The pattern of `w` bits of an integer. -/
def wrapInt (w : Nat) (v : Int) : Nat := (v % (2 ^ w : Int)).toNat

/-- A list of bytes read little-endian (R2). -/
def leNat : List Byte → Nat
  | [] => 0
  | b :: r => b.toNat + 256 * leNat r

/-- The low `n` bytes of a number, lowest first (R2). -/
def leBytes : Nat → Nat → List Byte
  | 0, _ => []
  | n + 1, x => BitVec.ofNat 8 x :: leBytes n (x / 256)

/-- `ceil(x ÷ y)`. -/
def ceilDiv (x y : Nat) : Nat := (x + y - 1) / y

/-- Whether `x` is a power of two. -/
def isPow2 (x : Nat) : Bool := x != 0 && 2 ^ Nat.log2 x == x

/-- Field of `n` bytes at offset `o` of a byte list, little-endian. -/
def fieldAt (bs : List Byte) (o n : Nat) : Nat := leNat ((bs.drop o).take n)

/-- `rotl32(x, n)` of R114. -/
def rotl32 (x n : Nat) : Nat := (x * 2 ^ n) % 2 ^ 32 + (x / 2 ^ (32 - n)) % 2 ^ n

/-- Number of leading zeros of an `L`-bit lane. -/
def clzNat (L x : Nat) : Nat := if x % 2 ^ L = 0 then L else L - 1 - Nat.log2 (x % 2 ^ L)

/-- Number of one bits among the low `L` bits. -/
def popNat : Nat → Nat → Nat
  | 0, _ => 0
  | L + 1, x => x % 2 + popNat L (x / 2)

/-- Number of trailing zeros among the low `L` bits. -/
def ctzNat : Nat → Nat → Nat
  | 0, _ => 0
  | L + 1, x => if x % 2 = 1 then 0 else 1 + ctzNat L (x / 2)

/-- A number's low bytes, most significant first. -/
def beBytes (n x : Nat) : List Byte := (leBytes n x).reverse

end Sys2Proof.Machine
end

