-- ==== Sys2Proof/BaseSyntax.lean ====
section
/-! DEFINITION. BaseSyntax.lean: the operand types of the instructions: register names, the RV64IMC/Zba/Zbb operations of
a scalar core (R193), the transport frame (R347) and the link flits (R336, R349). -/

namespace Sys2Proof

/-- A register field of an instruction word: x0–x31. -/
abbrev Reg := BitVec 5

/-- Widths and extensions of the base loads (R193, R196). -/
inductive LoadKind where
  | lb | lh | lw | ld | lbu | lhu | lwu
deriving DecidableEq, Repr, Inhabited

/-- Widths of the base stores. -/
inductive StoreKind where
  | sb | sh | sw | sd
deriving DecidableEq, Repr, Inhabited

/-- Forms of the CSR instructions (Zicsr). -/
inductive CsrKind where
  | rw | rs | rc | rwi | rsi | rci
deriving DecidableEq, Repr, Inhabited

/-- The base instructions that raise `ILLEGAL` in user mode (R194). -/
inductive PrivKind where
  | ecall | mret | sret | wfi | sfenceVma
deriving DecidableEq, Repr, Inhabited

/-- The base fences, which are no operation on the device (R194). -/
inductive FenceKind where
  | fence | fenceI
deriving DecidableEq, Repr, Inhabited

/-- Register-register operations of RV64I, M, Zba and Zbb. -/
inductive RegOp where
  | add | sub | sll | slt | sltu | xor | srl | sra | or | and
  | addw | subw | sllw | srlw | sraw
  | mul | mulh | mulhsu | mulhu | div | divu | rem | remu
  | mulw | divw | divuw | remw | remuw
  | addUw | sh1add | sh2add | sh3add | sh1addUw | sh2addUw | sh3addUw
  | andn | orn | xnor | max | maxu | min | minu | rol | ror | rolw | rorw
deriving DecidableEq, Repr, Inhabited

/-- Register-immediate operations with a 12-bit immediate. -/
inductive ImmOp where
  | addi | slti | sltiu | xori | ori | andi | addiw
deriving DecidableEq, Repr, Inhabited

/-- Register-shift operations with a 6-bit (or 5-bit, for the word forms) amount. -/
inductive ShiftOp where
  | slli | srli | srai | rori | slliUw | slliw | srliw | sraiw | roriw
deriving DecidableEq, Repr, Inhabited

/-- One-register operations of Zbb. -/
inductive UnOp where
  | clz | ctz | cpop | clzw | ctzw | cpopw | sextB | sextH | zextH | orcB | rev8
deriving DecidableEq, Repr, Inhabited

/-- Conditions of the base branches. -/
inductive BranchOp where
  | beq | bne | blt | bge | bltu | bgeu
deriving DecidableEq, Repr, Inhabited

/-- A base instruction other than a load, store, fence, CSR form or break (R193, R194). -/
inductive BaseOp where
  | reg (op : RegOp) (rd rs1 rs2 : Reg)
  | imm (op : ImmOp) (rd rs1 : Reg) (i : BitVec 12)
  | shift (op : ShiftOp) (rd rs1 : Reg) (sh : BitVec 6)
  | un (op : UnOp) (rd rs1 : Reg)
  | lui (rd : Reg) (i : BitVec 20)
  | auipc (rd : Reg) (i : BitVec 20)
  | jal (rd : Reg) (off : BitVec 21)
  | jalr (rd rs1 : Reg) (i : BitVec 12)
  | branch (op : BranchOp) (rs1 rs2 : Reg) (off : BitVec 13)
  /-- A reserved or unassigned encoding, the all-zero halfword among them: `ILLEGAL` (R194, R205). -/
  | reserved (word : Word)
deriving DecidableEq, Repr, Inhabited

/-- A transport frame (R347): the fields of the forwarding header, the 15 bytes after the opcode of the operation header
as a little-endian number, the opcode, and the payload. -/
structure Frame where
  dst : Nat
  src : Nat
  cls : Nat
  relay : Bool
  sect : Bool
  /-- Bits [27:24] of the forwarding header, reserved, 0. -/
  rsv : Nat
  seq : Nat
  ethertype : Nat
  opcode : Nat
  /-- Bytes 1–15 of the operation header, little-endian: byte 1 is bits [7:0] (R348). -/
  hdr : Nat
  payload : List Byte
  /-- Whether the FCS or CRC-32C of the frame holds. -/
  crcOk : Bool
  /-- Places of the payload's poisoned bytes (R272, R432): R347 gives them no place in the frame (DESIGN CHOICE, log entry 134). -/
  bad : List Nat := []
deriving DecidableEq, Repr, Inhabited

/-- A die-to-die flit: its 128 bytes (R336). -/
structure Flit where
  bytes : List Byte
deriving DecidableEq, Repr, Inhabited

/-- An optical flit (R349): key phase, pair flit sequence, 232 bytes of ciphertext, 16-byte tag. -/
structure OptFlit where
  src : Nat
  dst : Nat
  phase : Bool
  seq : Nat
  cipher : List Byte
  auth : BitVec 128
  /-- Places of the plaintext's poisoned bytes, as in `Frame` (log entry 134). -/
  bad : List Nat := []
deriving DecidableEq, Repr, Inhabited

/-- A key that a pair takes: the next one of a rotation (R351), or the first one of a pair that begins anew, at power-on or after a reset of
the other package (R349; log entry 136). -/
inductive PairKeying where
  | next (key : BitVec 256)
  | first (key : BitVec 256)
deriving DecidableEq, Repr, Inhabited

/-- The news of bring-up stage 3: the tile monitor starts on a core of a tile at an offset of its program (R193), or the test has ended. -/
inductive SelfTest where
  | monitor (tile core off : Nat)
  | ended (ok : Bool)
deriving DecidableEq, Repr, Inhabited

/-- The agents that reach device registers over BAR0 or the firmware address space, each with what it does there (R457), and what a host link does
to the module beside (R445). -/
inductive RegAgent where
  /-- a write of the host through a link, of the firmware of a die -/
  | host (link : Nat)
  | firmware (die : Nat)
  /-- a read of either -/
  | hostRead (link : Nat)
  | firmwareRead (die : Nat)
  /-- Precision Time Measurement of a link gives the package time -/
  | time (link : Nat)
  /-- a write to the uncorrectable error status of a link's Advanced Error Reporting, in its configuration space (log entry 143) -/
  | errors (link : Nat)
deriving DecidableEq, Repr, Inhabited

/-- A firmware image or the configuration record in package flash, with its signature, most significant byte first (R453). -/
structure SignedImage where
  bytes : List Byte
  sig : List Byte
deriving DecidableEq, Repr, Inhabited

/-- What the root of trust reads at stage 1 (R453, R454): the hash in its mask ROM; the vendor's public key; the images in load order, the
configuration record among them; and the seed that the start-up state of its SRAM and the helper data give. -/
structure BootFlash where
  romHash : BitVec 512
  keyMod : Nat
  keyExp : Nat
  images : List SignedImage
  seed : BitVec 256
deriving DecidableEq, Repr, Inhabited

/-- A step row of the matrix sequencer, with the fields of R177 to R186 at their widths; a one-bit field is a BitVec 1. -/
inductive StepRow where
  | step (wrow : BitVec 5) (acc : BitVec 1) (abase cnt : BitVec 10) (ud : BitVec 15) (m0 k0 : BitVec 16)
  | load (wrow : BitVec 5) (waddr : BitVec 13) (wfmt : BitVec 6) (wsc : BitVec 1)
  | steep (wrow : BitVec 5) (paddr : BitVec 13) (pf : BitVec 1) (tfmt : BitVec 6) (rnd : BitVec 2) (sat : BitVec 1)
      (widx : BitVec 32)
  | drain (dst clr : BitVec 1) (abase cnt : BitVec 10) (daddr : BitVec 15) (dfmt : BitVec 6) (rnd : BitVec 2)
      (sat : BitVec 1) (pidx : BitVec 2) (limit : BitVec 24)
  | zero (abase cnt : BitVec 10) (ak : BitVec 1)
  | wait (kind : BitVec 2) (abase cnt : BitVec 10) (slot pidx : BitVec 2) (limit : BitVec 24)
  | loop (target : BitVec 5) (lvl : BitVec 1) (iter dk dm : BitVec 16) (da : BitVec 11) (dw : BitVec 13) (di : BitVec 24)
      (dd : BitVec 15)
  | fin
deriving DecidableEq, Repr, Inhabited

end Sys2Proof
end

