-- ==== Sys2Proof/Syntax.lean ====
section
/-! DEFINITION. Syntax.lean: the instructions and unit steps of the GW24, one constructor per row of the opcode table.
Register fields keep the table's names: d = rd, a = rs1, b = rs2, k the constant, s the scope, x and y engine classes.
A unit step names what moves: t a tile (TILE_ID bits [15:2]), slot a task slot, c a core or loop context, r a region of the
resident configuration, p a port, w a window, q a journal sequence, x an actor, d a die, k a stack or port, b a bank,
i a position in a queue. What reaches the module from outside stands in the step as its argument. -/

namespace Sys2Proof

/-- One constructor per row of the table of operations and events. -/
inductive Instr where
  /-- IO_CFG (R213): Configures the stream port named in the control word, in tensor mode from a descriptor or in window mode, and leaves it READY. -/
  | ioCfg (a b : Reg)
  /-- IO_ARM (R217): Starts a port's walk from its first token and makes it STREAMING, optionally requesting a class-6 record at DONE. -/
  | ioArm (a : Reg)
  /-- IO_HALT (R218): Halts a port at a token boundary, discarding or writing queued tokens, and makes it HALTED. -/
  | ioHalt (a : Reg)
  /-- IO_STAT (R219): Returns a port's MOVED count, queue depth, held flag and state. -/
  | ioStat (d a : Reg)
  /-- RW_OPEN (R221): Opens a ring window on this tile from a checked descriptor, or returns 1 if it is already open. -/
  | rwOpen (d a b : Reg)
  /-- RW_PUSH (R222): Appends N tokens to a local or remote window through the tile-copy unit and then advances the write index. -/
  | rwPush (a b : Reg)
  /-- RW_POP (R223): Consumes N tokens of a local window, copying them out unless REL is set, and advances the read index and lap counter. -/
  | rwPop (a b : Reg)
  /-- RW_WAIT (R225): Waits until a window's occupancy or free count reaches N, within an optional cycle limit. -/
  | rwWait (d a b : Reg)
  /-- RW_STAT (R226): Returns a window's lap counter, occupancy, write index and read index. -/
  | rwStat (d a : Reg)
  /-- RW_LAP (R226): Returns a window's lap counter, its pacing flag and its LOCAL base offset. -/
  | rwLap (d a : Reg)
  /-- TC_COPY (R228): Starts a linear tile copy between generic addresses and returns its ticket. -/
  | tcCopy (d a b : Reg)
  /-- TC_COPY2 (R228): Starts a row-pitched tile copy from a descriptor and returns its ticket. -/
  | tcCopy2 (d a b : Reg)
  /-- TC_WAIT (R232): Blocks until a ticket's copy, or every copy of the core, has completed and returns its status. -/
  | tcWait (d a : Reg)
  /-- TC_STAT (R232): Returns a copy ticket's status without blocking. -/
  | tcStat (d a : Reg)
  /-- TG_LOOK (R234): Looks up a key in the task's tag-table range and returns offset, index and size or all ones. -/
  | tgLook (d a : Reg)
  /-- TG_INS (R234): Inserts or updates a tag-table entry with a slot word and returns its index. -/
  | tgIns (d a b : Reg)
  /-- TG_INV (R234): Invalidates the tag-table entry holding a key. -/
  | tgInv (a : Reg)
  /-- TG_SLOT (R234): Returns the slot word or key of a tag-table entry by index. -/
  | tgSlot (d a : Reg)
  /-- GA_CVT (R235): Converts between the LOCAL and CLUSTER forms of a scratchpad address without trapping. -/
  | gaCvt (d a : Reg)
  /-- GA_TEST (R236): Tests whether an address belongs to an aperture class and returns 0 or 1. -/
  | gaTest (d a b : Reg)
  /-- FU_NEW (R255): Takes the lowest EMPTY future entry of the cluster, makes it PENDING and returns its handle. -/
  | fuNew (d : Reg)
  /-- FU_SET (R255): Resolves a PENDING future READY or POISONED, runs its continuations and completes its waiters. -/
  | fuSet (a b : Reg)
  /-- FU_GET (R255): Returns a future's state code without blocking. -/
  | fuGet (d a : Reg)
  /-- FU_WAIT (R255): Waits until a future is no longer PENDING and returns its value or raises POISON. -/
  | fuWait (d a b : Reg)
  /-- FU_THEN (R256): Registers a continuation on a future that writes a class-3 record or sets a target future. -/
  | fuThen (a b : Reg)
  /-- FU_DROP (R255): Makes a future EMPTY, advances its generation and discards pending continuations. -/
  | fuDrop (a : Reg)
  /-- GR_ARRIVE (R260): Records the task's arrival at its group's current phase after its casts are written. -/
  | grArrive (a : Reg)
  /-- GR_WAIT (R260): Waits for the phase at which the task arrived to complete, within an optional limit. -/
  | grWait (d a b : Reg)
  /-- GR_BAR (R260): Arrives at the group if not yet arrived and then waits for the phase to complete. -/
  | grBar (d a b : Reg)
  /-- GR_CAST (R262): Broadcasts bytes to the scratchpads of every other member tile of a group. -/
  | grCast (a b : Reg)
  /-- EV_POP (R249): Writes the task's event record at a position to scratchpad, removes it and returns the count remaining. -/
  | evPop (d a : Reg)
  /-- EV_PEEK (R249): Returns bytes 0-7 of the task's event record at a position without changing it. -/
  | evPeek (d a : Reg)
  /-- EV_WAIT (R250): Waits for an event record of a class in the mask and returns the oldest one's position. -/
  | evWait (d a b : Reg)
  /-- SY_ACQ (R268): Tries once to take the lock word of a binding slot, acquiring its bound regions on success. -/
  | syAcq (d a : Reg)
  /-- SY_REL (R268): Releases the bound regions of a held lock and stores 0 to the lock word as a strong store. -/
  | syRel (a : Reg)
  /-- SY_BIND (R266): Writes a binding slot from a descriptor tying a region to a synchronisation object at a scope. -/
  | syBind (a b : Reg)
  /-- SY_FENCE (R269): Orders the core's SCALAR accesses with respect to every observer within the named scope. -/
  | syFence (s : BitVec 3)
  /-- PF_FENCE (R270): Orders the seen-complete accesses of two engine classes before later accesses of either. -/
  | pfFence (x y : BitVec 5)
  /-- AM_ADD (R263): Atomically adds to a 64-bit word at its home and returns the old value. -/
  | amAdd (d a b : Reg) (s : BitVec 3)
  /-- AM_MIN (R263): Atomically takes the signed minimum of a 64-bit word and the operand and returns the old value. -/
  | amMin (d a b : Reg) (s : BitVec 3)
  /-- AM_MAX (R263): Atomically takes the signed maximum of a 64-bit word and the operand and returns the old value. -/
  | amMax (d a b : Reg) (s : BitVec 3)
  /-- AM_AND (R263): Atomically ANDs a 64-bit word with the operand and returns the old value. -/
  | amAnd (d a b : Reg) (s : BitVec 3)
  /-- AM_OR (R263): Atomically ORs a 64-bit word with the operand and returns the old value. -/
  | amOr (d a b : Reg) (s : BitVec 3)
  /-- AM_XCHG (R263): Atomically exchanges a 64-bit word with the operand and returns the old value. -/
  | amXchg (d a b : Reg) (s : BitVec 3)
  /-- AM_CAS (R263): Atomically compares a 64-bit word with rd and stores the operand on a match, returning the old value. -/
  | amCas (d a b : Reg) (s : BitVec 3)
  /-- XC_GET (R272): Reads remote bytes of another package into a local address through a copy engine and returns a ticket. -/
  | xcGet (d a b : Reg)
  /-- XC_PUT (R272): Stages local bytes for a remote write that becomes visible when its section commits. -/
  | xcPut (d a b : Reg)
  /-- XC_RED (R273): Stages local bytes for an element-wise remote reduction under OP, applied at commit. -/
  | xcRed (d a b : Reg)
  /-- XC_SIG (R272): Stages the addition of an increment to a remote 8-byte word. -/
  | xcSig (d a b : Reg)
  /-- XC_BEGIN (R274): Opens an explicit section, saving the control core's registers for rollback. -/
  | xcBegin (d : Reg)
  /-- XC_COMMIT (R275): Waits for the section's commands, decides the commit and makes it visible at every target. -/
  | xcCommit (d : Reg)
  /-- XC_FRAME (R279): Sends token rows to windows named by route words in one routing step, dropping duplicate pairs. -/
  | xcFrame (d a b : Reg)
  /-- NB_QUERY (R280): Posts a decode-attention query to the infuser queue of the stack holding its frames and returns a ticket. -/
  | nbQuery (d a b : Reg)
  /-- NB_APPEND (R280): Posts an append of one key and value row to the infuser queue and returns a ticket. -/
  | nbAppend (d a b : Reg)
  /-- NB_FENCE (R281): Blocks until the source's earlier appends are performed in the banks of one or every stack. -/
  | nbFence (a : Reg)
  /-- ST_KEY (R282): Sets the steeping stream key and stream id. -/
  | stKey (a b : Reg)
  /-- ST_MEMBER (R282): Sets the steeping member index and index base. -/
  | stMember (a b : Reg)
  /-- FB_LOAD (R237): Checks a configuration and starts expanding it into the idle plane. -/
  | fbLoad (d a : Reg)
  /-- FB_SWAP (R238): Performs the plane-swap handshake, waiting for the staged expansion and a quiescent active configuration. -/
  | fbSwap (d : Reg)
  /-- FB_RUN (R240): Starts or resumes the selected loop contexts of the resident configuration on one row boundary. -/
  | fbRun (a : Reg)
  /-- FB_STOP (R241): Freezes every loop context at the next row boundary. -/
  | fbStop
  /-- FB_TOK (R242): Places one tagged token in a control-token register, blocking while it is still unread. -/
  | fbTok (a : Reg) (k : BitVec 2)
  /-- FB_SINK (R243): Reads and empties a sink register, or returns 0 when it is empty. -/
  | fbSink (d : Reg) (k : BitVec 2)
  /-- MX_ISSUE (R244): Starts the step block of the resident matrix-mode configuration at step row FIRST. -/
  | mxIssue (a : Reg)
  /-- MX_WAIT (R245): Waits for the sequencer to go idle and removes the oldest class-4 record with the user tag. -/
  | mxWait (d a : Reg)
  /-- CK_TAKE (R284): Reaches the task's part of a due checkpoint at this instruction and returns its number. -/
  | ckTake (d : Reg)
  /-- CK_DIGEST (R285): Returns a Parallax digest or the last checkpoint number chosen by a selector. -/
  | ckDigest (d a : Reg)
  /-- BK_SEL (R283): Chooses the bucket variant for a count and stages its configuration into the idle plane. -/
  | bkSel (d a b : Reg)
  /-- SYS_YIELD (R287): Offers the task's place to another ready task of equal or higher priority. -/
  | sysYield
  /-- SYS_END (R286): Ends the executing core's part of the firing, with the control core's rate comparison. -/
  | sysEnd
  /-- SYS_SPAWN (R288): Creates a short spawned task with its own future and returns the future's handle. -/
  | sysSpawn (d a b : Reg)
  /-- SYS_BRK (R289): Raises BREAK with code 0. -/
  | sysBrk
  /-- SYS_TRAP (R289): Raises BREAK with the code in rs1. -/
  | sysTrap (a : Reg)
  /-- SYS_ERET (R203): Returns from the trap handler to TEPC, clears BUSY and resumes the stopped source. -/
  | sysEret
  /-- EBREAK (R194): The base breakpoint instruction raises BREAK as sys.brk does. -/
  | ebreak
  /-- ECALL (R194): ecall, mret, sret, wfi and sfence.vma raise ILLEGAL in user mode. -/
  | ecall (k : PrivKind)
  /-- FENCE (R194): The base fence, fence.tso and fence.i execute as no operation. -/
  | fence (k : FenceKind)
  /-- CSR_ACCESS (R198): A CSR instruction reads or writes a device CSR, raising ILLEGAL for undefined, privileged, read-only or control-only numbers. -/
  | csrAccess (k : CsrKind) (rd : Reg) (src : Reg) (csr : BitVec 12)
  /-- SCALAR_LOAD (R195): A core load reads its private memories or a generic address, checking alignment and aperture. -/
  | scalarLoad (k : LoadKind) (rd rs1 : Reg) (i : BitVec 12)
  /-- SCALAR_STORE (R196): A core store writes its data memory or a generic address, refusing the instruction store. -/
  | scalarStore (k : StoreKind) (rs1 rs2 : Reg) (i : BitVec 12)
  /-- INSTRUCTION_FETCH (R197): A core fetches from an execute region of its instruction store, raising FETCHDATA or APERTURE elsewhere. -/
  | instructionFetch (t c : Nat)
  /-- MS_STEP (R177): Feeds a panel of unfolded A rows through the array into accumulator rows. -/
  | msStep (t : Nat)
  /-- MS_LOAD (R178): Delivers a 4 KiB weight panel from scratchpad to the elements. -/
  | msLoad (t : Nat)
  /-- MS_STEEP (R179): Delivers a panel of steeped weights formed from a pair panel. -/
  | msSteep (t : Nat)
  /-- MS_DRAIN (R181): Reads accumulator rows out to scratchpad or to a peer tile. -/
  | msDrain (t : Nat)
  /-- MS_ZERO (R180): Sets accumulator rows to zero of a chosen kind. -/
  | msZero (t : Nat)
  /-- MS_WAIT (R184): Receives drained rows from a peer or fences earlier drains. -/
  | msWait (t : Nat)
  /-- MS_LOOP (R185): Repeats a body of step rows and steps their addresses. -/
  | msLoop (t : Nat)
  /-- MS_END (R186): Completes a step block, stops the sequencer and writes a class-4 record. -/
  | msEnd (t : Nat)
  /-- DRAINED_ROW_ACCEPT (R183): A receiving tile accepts a peer's drained row and adds it into its accumulator row. -/
  | drainedRowAccept (t : Nat)
  /-- DRAIN_STALL_EXPIRY (R183): A peer drain stalled past its limit raises WAITEXP at the sender. -/
  | drainStallExpiry (t : Nat)
  /-- MS_WAIT_EXPIRY (R184): A receiving MS.WAIT whose limit expires raises WAITEXP. -/
  | msWaitExpiry (t : Nat)
  /-- ROW_ISSUE (R294): At a row boundary a region places landings, does end-of-pass work and admission, and issues the next row if ready. -/
  | rowIssue (t r : Nat)
  /-- ROUTE_LANDING (R304): A route whose row count has run out lands on its inbound channel or reserved port entry. -/
  | routeLanding (t r : Nat)
  /-- DRAIN_LIMIT_EXIT (R299): A context becomes EXITED at the end of its 16th drain pass. -/
  | drainLimitExit (t r c : Nat)
  /-- EXPANSION_COMPLETE (R92): The expander finishes writing a staged configuration into the idle plane. -/
  | expansionComplete (t : Nat)
  /-- PLANE_SWAP_INSTALL (R306): Once the staged plane is whole and the active configuration quiescent, the staged configuration is installed in two cycles. -/
  | planeSwapInstall (t : Nat)
  /-- PORT_TOKEN_FETCH (R217): An inbound STREAMING port fetches the next token of its walk into its queue. -/
  | portTokenFetch (t p : Nat)
  /-- PORT_TOKEN_WRITE (R216): An outbound port performs the write of a queued token and becomes DONE after the last. -/
  | portTokenWrite (t p : Nat)
  /-- TILE_COPY_COMPLETE (R229): A tile copy finishes or stops at a fault, frees its slot and records its status. -/
  | tileCopyComplete (t i : Nat)
  /-- EVENT_RECORD_WRITE (R246): A unit writes a held record into the tile's event queue once space frees. -/
  | eventRecordWrite (t i : Nat)
  /-- ADVANCE_MESSAGE (R328): A producer's advance message reaches the consumer and moves the window's write index. -/
  | advanceMessage (t w : Nat)
  /-- RELEASE_MESSAGE (R328): A consumer's release message reaches the producer and updates its read and lap mirrors. -/
  | releaseMessage (t w : Nat)
  /-- RW_WAIT_EXPIRY (R225): An rw.wait whose cycle limit expires raises WAITEXP. -/
  | rwWaitExpiry (t c : Nat)
  /-- EV_WAIT_EXPIRY (R250): An ev.wait whose cycle limit expires raises WAITEXP. -/
  | evWaitExpiry (t : Nat)
  /-- FU_WAIT_EXPIRY (R255): A fu.wait whose cycle limit expires raises WAITEXP. -/
  | fuWaitExpiry (t c : Nat)
  /-- GR_WAIT_EXPIRY (R260): A gr.wait or gr.bar whose cycle limit expires raises WAITEXP. -/
  | grWaitExpiry (t : Nat)
  /-- TRAP_ENTRY (R200): A trap reaching the control core is entered at an instruction boundary or delivered as a fault. -/
  | trapEntry (t : Nat)
  /-- SECTION_ROLLBACK (R276): A section that fails before its decision is discarded and the control core rolled back to xc.begin. -/
  | sectionRollback (t slot code : Nat)
  /-- FIRING_START (R312): A compute actor's next firing begins when tokens and space are present, starting its sequencing entry. -/
  | firingStart (t slot : Nat)
  /-- FIRING_END (R286): A firing ends once every condition of R286 holds; its task may end. -/
  | firingEnd (t slot : Nat)
  /-- HBMSRC_FIRING (R12): A source memory actor reads its next view row and places it as a token in its window. -/
  | hbmsrcFiring (q x : Nat)
  /-- HBMSINK_FIRING (R12): A sink memory actor takes the oldest token and writes it as its next view row. -/
  | hbmsinkFiring (q x : Nat)
  /-- ECLIPSE_RECEIPT (R316): An actor at a period boundary receives the eclipse, marks its outputs and stops. -/
  | eclipseReceipt (q x : Nat)
  /-- RATE_SET_SWITCH (R317): A quiescent launch removes its markers, selects the new rate set and completes the mode request. -/
  | rateSetSwitch (q : Nat)
  /-- CHECKPOINT_PART (R284): A task at a firing boundary commits its implicit section and records its checkpoint part. -/
  | checkpointPart (t slot : Nat)
  /-- SWAP_OUT (R62): A task held by NOTPRESENT past THRESH is saved to a context frame and releases the tile. -/
  | swapOut (t : Nat)
  /-- TASK_SWITCH (R407): When the fabric and cores are free the tile makes the first READY task resident, saving and restoring context. -/
  | taskSwitch (t : Nat)
  /-- TASK_PROMOTION (R408): A READY task that has waited 2^16 cycles is promoted one priority level. -/
  | taskPromotion (t slot : Nat)
  /-- SPAWNED_TASK_BIND (R411): A spawned task is bound once its tile has a free slot and context frames. -/
  | spawnedTaskBind (i : Nat)
  /-- LAUNCH_PACKET (R398): A launch packet is validated, placed and on acceptance bound to tiles with windows opened. -/
  | launchPacket (q : Nat)
  /-- MODE_REQUEST (R315): A mode request is validated with its launch or when read, accepted or refused. -/
  | modeRequest (q : Nat)
  /-- PREEMPTION_REQUEST (R439): A pre-emption request returns a running launch to its last complete checkpoint on every package. -/
  | preemptionRequest (q : Nat)
  /-- RESERVED_JOURNAL_ENTRY (R395): An entry of reserved type completes with status 0x20 into the host fault ring. -/
  | reservedJournalEntry (q : Nat)
  /-- VALIDATION_ROUND (R399): The head die opens a round for the next journal entry, sending masks and releases to every die. -/
  | validationRound
  /-- DIE_VERDICT (R399): A die's verdict on a round reaches the head, which acknowledges or treats the die as faulty. -/
  | dieVerdict (d status field : Nat)
  /-- SHARE_COMPLETE_REPORT (R399): A die reports its share of a launch complete to the head, releasing it at the next round. -/
  | shareCompleteReport (d q : Nat)
  /-- REPLACEMENT_ROUND (R415): After a die or tile loss a launch is placed again in a round of its own. -/
  | replacementRound (q : Nat)
  /-- SHARE_COMPLETION (R414): A package's share of a launch completes, freeing its tables and writing its completion record. -/
  | shareCompletion (q : Nat)
  /-- CONTAINER_LOAD (R45): Every die manager checks a container in order and makes it resident with a handle or fails it. -/
  | containerLoad (bs : List Byte)
  /-- CONTAINER_UNLOAD (R46): A request to unload a container succeeds or fails busy while launches name it. -/
  | containerUnload (h : Nat)
  /-- INVALIDATE (R67): Drops cached descriptors and page entries in a range and completes when old translations are performed. -/
  | invalidate
  /-- READY (R61): Wakes and retries accesses held on a context, tensor and page range. -/
  | ready
  /-- INVQ_MALFORMED_COMMAND (R67): A queue command with a reserved opcode or hint or an inverted range gets status 0x0F. -/
  | invqMalformedCommand
  /-- BANK_SLICE (R370): An infuser opens a bank-row, reads or writes its beats for a key, value or append slice and closes it. -/
  | bankSlice (k b : Nat)
  /-- BANK_REFRESH (R371): A due refresh is performed at the bank's next point free of a slice. -/
  | bankRefresh (k b : Nat)
  /-- ORDINARY_BANK_ACCESS (R371): A waiting ordinary access through the stack pins is served between slices. -/
  | ordinaryBankAccess (k b : Nat)
  /-- QUERY_RESULT (R363): When every bank job of a query ends its block is written and its record or future follows. -/
  | queryResult (k i : Nat)
  /-- INFUSER_PARITY_FAULT (R379): An infuser failing its datapath parity returns empty partials and is taken out of service. -/
  | infuserParityFault (k b : Nat)
  /-- STACK_CONTROLLER_RESET (R379): A stack controller reset completes unfinished queries with ERR and fails unfinished appends. -/
  | stackControllerReset (k : Nat)
  /-- STAGED_PUT (R355): A target checks and holds a staged put under its section key. -/
  | stagedPut (f : Frame)
  /-- STAGED_REDUCTION (R355): A target checks and holds a staged reduction under its section key. -/
  | stagedReduction (f : Frame)
  /-- STAGED_SIGNAL (R355): A target checks and holds a staged signal under its section key. -/
  | stagedSignal (f : Frame)
  /-- GET_REQUEST (R272): A target reads the requested bytes and returns get data. -/
  | getRequest (f : Frame)
  /-- GET_DATA (R272): Returned get data is written to the local address, completing the xc.get. -/
  | getData (f : Frame)
  /-- COMMIT (R275): A target applies a section's staged effects as one action and acknowledges. -/
  | commit (f : Frame)
  /-- DISCARD (R276): A target drops every staging of a section. -/
  | discard (f : Frame)
  /-- ACKNOWLEDGEMENT (R346): A cumulative acknowledgement retires frames of a flow and grants relay credit. -/
  | acknowledgement (f : Frame)
  /-- ROW_FRAME_PART (R356): A receiver gathers the parts of a row frame and pushes its rows into windows once whole and checked. -/
  | rowFramePart (f : Frame)
  /-- CELL (R357): A receiver assembles row cells and pushes the row once its last cell is delivered. -/
  | cell (f : Frame)
  /-- ARC_TOKEN (R311): A cross-package arc token lands in the consumer's window and advances it. -/
  | arcToken (f : Frame)
  /-- ECLIPSE_MARKER (R316): An eclipse marker crossing packages is placed in the consumer's window after the arc's tokens. -/
  | eclipseMarker (f : Frame)
  /-- QUIESCENCE_REPORT (R317): A package's quiescence report reaches the other packages of the map. -/
  | quiescenceReport (f : Frame)
  /-- CHECKPOINT_ANNOUNCEMENT (R333): A due checkpoint is announced to every die and package of the launch. -/
  | checkpointAnnouncement (f : Frame)
  /-- PREEMPTION_ANNOUNCEMENT (R439): A package begins the restore of a pre-empted launch on its announcement. -/
  | preemptionAnnouncement (f : Frame)
  /-- CHECKPOINT_PARTS_WRITTEN (R438): A package reports to the pacing package that all its parts of a checkpoint are written. -/
  | checkpointPartsWritten (f : Frame)
  /-- CHECKPOINT_COMPLETE (R438): A checkpoint is announced complete; digests are formed, checked and hash trees written. -/
  | checkpointComplete (f : Frame)
  /-- RESTORE_DONE (R439): A package reports its restore done to the requesting package. -/
  | restoreDone (f : Frame)
  /-- RELAY_FRAME (R344): An intermediate holds a relayed frame in its buffer and forwards it in the pair's next slot. -/
  | relayFrame (f : Frame)
  /-- FRAME_RESEND (R346): A frame unacknowledged after one calendar cycle is resent by any path. -/
  | frameResend (dst cls : Nat)
  /-- DELIVERY_LIMIT_EXPIRY (R346): A frame unacknowledged past PKG_XC_DLIM fails its command with code 1. -/
  | deliveryLimitExpiry (dst cls : Nat)
  /-- ROW_FRAME_FILL_TIMEOUT (R356): A row frame closes and is sent when its fill timer runs out. -/
  | rowFrameFillTimeout (i : Nat)
  /-- COPY_ENGINE_RESET (R354): A faulted copy engine resets and reissues its journalled commands. -/
  | copyEngineReset (e : Nat)
  /-- ORRERY_SLOT (R340): A 2 µs slot starts and each optical port serves its round's peer after the guard. -/
  | orrerySlot
  /-- ORRERY_LOCK (R341): The Orrery unit locks to the optical core's slot clock and optical sending begins. -/
  | orreryLock (slot ports : Nat)
  /-- ORRERY_LOCK_LOSS (R341): Loss of lock takes every port out of the calendar until lock returns. -/
  | orreryLockLoss
  /-- OPTICAL_PORT_LOSS (R342): A failed optical port is removed from the calendar and its frames resent. -/
  | opticalPortLoss (k : Nat)
  /-- OPTICAL_PORT_RETURN (R342): A retrained port rejoins the calendar at the start of a calendar cycle. -/
  | opticalPortReturn (k : Nat)
  /-- OPTICAL_FLIT (R350): An encrypted optical flit is authenticated and decrypted under its phase key or dropped for replay. -/
  | opticalFlit (f : OptFlit)
  /-- KEY_INSTALL (R351): A new pair key is installed and the sender switches phase at a flit boundary. -/
  | keyInstall (src dst : Nat) (key : PairKeying)
  /-- KEY_RETIREMENT_REPORT (R351): On the sender's retirement report the receiver erases the old key. -/
  | keyRetirementReport (src dst : Nat)
  /-- D2D_FLIT (R337): A die-to-die flit is checked and delivered in sequence or dropped pending replay. -/
  | d2dFlit (d : Nat) (f : Flit)
  /-- D2D_NACK (R337): A nack makes the sender replay in order from the named flit. -/
  | d2dNack (d n : Nat)
  /-- LINK_RETRAIN (R337): After 16 failed replays a link retrains keeping its sequence state. -/
  | linkRetrain (d : Nat)
  /-- LANE_GROUP_FAILURE (R338): A lane group with a failed lane is removed and later flits go at reduced width. -/
  | laneGroupFailure (d g : Nat)
  /-- PAUSE_FRAME (R352): A per-class pause frame received on an electrical port pauses that traffic class. -/
  | pauseFrame (port cls : Nat) (on : Bool)
  /-- FAULT_RECORD (R430): The die manager handles a fault record by forwarding, checkpoint return or abort. -/
  | faultRecord (d : Nat)
  /-- FAULT_RING_WRITE (R450): A waiting record is written into the host fault ring once it has room, raising MSI-X vector 1. -/
  | faultRingWrite
  /-- TILE_QUARANTINE (R435): A tile fatal fault quarantines the tile and its launches re-place. -/
  | tileQuarantine (t : Nat)
  /-- DIE_RESET (R435): A die fatal fault resets the die and the others mask it. -/
  | dieReset (d : Nat)
  /-- STACK_FAULT (R435): A stack controller or interface fault poisons the stack until reloaded. -/
  | stackFault (k : Nat)
  /-- WATCHDOG_EXPIRY (R436): 10 ms without a kick resets the die manager core from its firmware checkpoint. -/
  | watchdogExpiry (d : Nat)
  /-- DIE_WDOG (R436): A write to DIE_WDOG kicks the watchdog and restarts its 10 ms interval. -/
  | dieWdog (d : Nat) (v : DWord)
  /-- DIE_ERRINJ (R434): A write to DIE_ERRINJ arms one error injection on the next write to the named address. -/
  | dieErrinj (d : Nat) (v : DWord)
  /-- CLOCK_CONTROL_TICK (R455): Every 100 µs the die manager sets the die's fabric clock within its power and thermal limits. -/
  | clockControlTick (d limit : Nat)
  /-- THERMAL_TRIP (R455): A junction reaching 115 °C makes the die take a die fatal fault. -/
  | thermalTrip (d : Nat)
  /-- MODULE_RESET (R451): Power-on or a module reset begins bring-up at stage 0. -/
  | moduleReset
  /-- ROOT_OF_TRUST_CHECK (R453): Stage 1 checks firmware and configuration signatures and derives the identity key. -/
  | rootOfTrustCheck (flash : BootFlash) (version minVersion pkg ceiling : Nat) (badTiles : List Nat)
  /-- DIE_MANAGER_START (R451): Stage 2 starts the die managers and agrees on a head die. -/
  | dieManagerStart (ok : Bool)
  /-- TILE_SELF_TEST (R451): Stage 3 self-tests tiles and quarantines failing ones. -/
  | tileSelfTest (news : SelfTest) (failed : List Nat)
  /-- HBM_TRAINING (R451): Stage 4 trains each HBM stack. -/
  | hbmTraining (k : Nat) (ok : Bool)
  /-- SUBSTRATE_LINK_TRAINING (R451): Stage 5 trains the substrate links and brings every die to full clock. -/
  | substrateLinkTraining (ok : Bool)
  /-- ATTESTATION_REQUEST (R454): Setting HOST_ATTC requests a signed attestation report over the nonce. -/
  | attestationRequest (v : DWord)
  /-- ATTESTATION_REPORT (R454): The finished report is written to HOST_ATTR and the request bit cleared. -/
  | attestationReport (report : List Byte)
  /-- HOST_JDB (R448): A doorbell write exposes journal entries up to a new tail or is ignored. -/
  | hostJdb (v : DWord)
  /-- HOST_JBASE (R447): A write to HOST_JBASE sets the journal ring, refusing SIZE changes unless the journal is idle. -/
  | hostJbase (v : DWord)
  /-- HOST_FBASE (R450): A write to HOST_FBASE sets the fault ring, refusing FSIZE changes unless the ring is empty. -/
  | hostFbase (v : DWord)
  /-- HOST_WINDOW_ACCESS (R446): A host access through BAR2 reaches module HBM through an enabled window or completes with Unsupported Request. -/
  | hostWindowAccess (link off : Nat) (data : Option (List Byte)) (len : Nat)
  /-- REGISTER_WRITE (R457): A write to a device register without behaviour of its own stores its writable fields, W1C clearing bits. -/
  | registerWrite (who : RegAgent) (off size : Nat) (v : DWord)
  /-- BASE_INSTRUCTION (R193): A scalar core executes an RV64IMC, Zba or Zbb instruction other than a load, store, fence, CSR form or break, including reserved and unassigned encodings, which raise ILLEGAL. -/
  | baseInstruction (op : BaseOp)
  /-- WRITE_PERFORMED (R386): A weak store or other write becomes performed with respect to a further observer, at an unbounded later moment. -/
  | writePerformed (i o : Nat)
  /-- ELECTRICAL_PORT_LOSS (R435): An electrical Ethernet port loses its link and leaves the ports in service, so its unacknowledged frames are resent. -/
  | electricalPortLoss (k : Nat)
  /-- ELECTRICAL_PORT_RETURN (R352): An electrical port regains its link and rejoins the ports in service that spread frames by destination. -/
  | electricalPortReturn (k : Nat)
  /-- OTHER_FRAME_TYPE (R352): A received frame that is not a valid transport frame, whether of another Ethernet type or carrying a reserved opcode, destination or field, is dropped and counted. -/
  | otherFrameType (f : Frame)
  /-- TILE_RETURN (R435): A quarantined tile passes a self-test and returns to the eligible tiles at the next round. -/
  | tileReturn (t : Nat)
  /-- DIE_REJOIN (R444): A reset die, or a die manager restarted by its watchdog, rejoins the other dies, rereads the journal and re-enters the active mask. -/
  | dieRejoin (d : Nat)
deriving DecidableEq, Repr, Inhabited

end Sys2Proof
end

