-- ==== Sys2Proof/WellFormed.lean ====
section
/-! DEFINITION. WellFormed.lean: what an instruction must satisfy beyond its types: scope and engine-class codes (R205, R207),
offsets that are even, word-shift amounts, and the ranges of the module's numbers (R4, R6, R55). -/

namespace Sys2Proof

/-- A tile number: TILE_ID[15:2] with DIE below 24 and TILE below 24 (R198). -/
def wfTile (t : Nat) : Bool := t / 512 < 24 && t % 32 < 24 && t / 512 * 512 + t % 512 == t

/-- A task slot (R198). -/
def wfSlot (s : Nat) : Bool := s < 8

/-- A scalar core (R190). -/
def wfCore (c : Nat) : Bool := c < 3

/-- A base operation: even branch and jump offsets, word-shift amounts below 32 (R193). -/
def BaseOp.wf : BaseOp → Bool
  | .shift .slliw _ _ sh | .shift .srliw _ _ sh | .shift .sraiw _ _ sh | .shift .roriw _ _ sh => sh.toNat < 32
  | .jal _ off => off.toNat % 2 == 0
  | .branch _ _ _ off => off.toNat % 2 == 0
  | _ => true

/-- Whether an instruction's fields lie in the values that the manual gives them. -/
def Instr.wf : Instr → Bool
  | .syFence s | .amAdd _ _ _ s | .amMin _ _ _ s | .amMax _ _ _ s | .amAnd _ _ _ s | .amOr _ _ _ s | .amXchg _ _ _ s
  | .amCas _ _ _ s => s.toNat < 5
  | .pfFence x y => x.toNat < 6 && y.toNat < 6
  | .baseInstruction op => op.wf
  | .instructionFetch t c => wfTile t && wfCore c
  | .msStep t | .msLoad t | .msSteep t | .msDrain t | .msZero t | .msWait t | .msLoop t | .msEnd t
  | .drainedRowAccept t | .drainStallExpiry t | .msWaitExpiry t | .expansionComplete t | .planeSwapInstall t
  | .evWaitExpiry t | .grWaitExpiry t | .trapEntry t | .swapOut t | .taskSwitch t | .tileQuarantine t | .tileReturn t =>
    wfTile t
  | .rowIssue t r | .routeLanding t r => wfTile t && r < 8
  | .drainLimitExit t r c => wfTile t && r < 8 && c < 4
  | .portTokenFetch t p | .portTokenWrite t p => wfTile t && p < 16
  | .tileCopyComplete t i => wfTile t && i < 96
  | .eventRecordWrite t _ => wfTile t
  | .advanceMessage t w | .releaseMessage t w => wfTile t && w < 2 ^ 70
  | .rwWaitExpiry t c | .fuWaitExpiry t c => wfTile t && wfCore c
  | .sectionRollback t s _ | .firingStart t s | .firingEnd t s | .checkpointPart t s | .taskPromotion t s =>
    wfTile t && wfSlot s
  | .bankSlice k b | .bankRefresh k b | .ordinaryBankAccess k b | .infuserParityFault k b => k < 48 && b < 1024
  | .queryResult k i => k < 48 && i < 512
  | .stackControllerReset k | .stackFault k | .hbmTraining k _ => k < 48
  | .frameResend dst cls | .deliveryLimitExpiry dst cls => dst < 64 && cls < 4
  | .copyEngineReset e => e < 24
  | .opticalPortLoss k | .opticalPortReturn k => k < 8
  | .keyInstall src dst _ | .keyRetirementReport src dst => src < 64 && dst < 64
  | .d2dFlit d _ | .linkRetrain d | .faultRecord d | .dieReset d | .watchdogExpiry d | .dieWdog d _ | .dieErrinj d _
  | .clockControlTick d _ | .thermalTrip d | .dieRejoin d => d < 24
  | .d2dNack d n => d < 24 && n < 2 ^ 16
  | .laneGroupFailure d g => d < 24 && g < 4
  | .dieVerdict d status _ => d < 24 && status < 256
  | .shareCompleteReport d _ => d < 24
  | .pauseFrame port cls _ => port < 8 && cls < 4
  | .electricalPortLoss k | .electricalPortReturn k => k < 8
  | .tileSelfTest (.monitor t c off) failed => wfTile t && wfCore c && decide (off < 65536) && off % 2 == 0 && failed.all wfTile
  | .tileSelfTest (.ended _) failed => failed.all wfTile
  | .hostWindowAccess link _ _ _ => link < 2
  | _ => true

end Sys2Proof
end

