-- ==== Sys2Proof/Decode.lean ====
section
/-! DEFINITION. Decode.lean: from bytes to instructions and back. A 32-bit word is six fields whatever its layout (R204):
f7 [31:25], rs2 [24:20], rs1 [19:15], f3 [14:12], rd [11:7], op [6:0]; the immediates of RV64I are unions of those fields.
Every encoding that the manual or RV64IMC, Zba and Zbb leave unassigned decodes to the reserved form, which raises ILLEGAL
(R194, R205). Decoding refuses only a byte string that ends inside an instruction, by name. -/

namespace Sys2Proof

/-- Why no instruction can be read from a byte string. -/
inductive DecodeError where
  /-- the bytes end before the instruction does -/
  | truncated
deriving DecidableEq, Repr, Inhabited

/-- An instruction where a condition on unused fields holds (R205). -/
def guardI (c : Bool) (i : Instr) : Option Instr := if c then some i else none

/-- custom-0 (0xb) by funct3 and funct7 (R206). -/
def decodeCustom0 (f3 f7 : Nat) (rd rs1 rs2 : Reg) : Option Instr :=
  match f3, f7 with
  | 0, 0 => guardI (rd == 0) (.ioCfg rs1 rs2)
  | 0, 1 => guardI (rd == 0 && rs2 == 0) (.ioArm rs1)
  | 0, 2 => guardI (rd == 0 && rs2 == 0) (.ioHalt rs1)
  | 0, 3 => guardI (rs2 == 0) (.ioStat rd rs1)
  | 1, 0 => some (.rwOpen rd rs1 rs2)
  | 1, 1 => guardI (rd == 0) (.rwPush rs1 rs2)
  | 1, 2 => guardI (rd == 0) (.rwPop rs1 rs2)
  | 1, 3 => some (.rwWait rd rs1 rs2)
  | 1, 4 => guardI (rs2 == 0) (.rwStat rd rs1)
  | 1, 5 => guardI (rs2 == 0) (.rwLap rd rs1)
  | 2, 0 => some (.tcCopy rd rs1 rs2)
  | 2, 1 => some (.tcCopy2 rd rs1 rs2)
  | 2, 2 => guardI (rs2 == 0) (.tcWait rd rs1)
  | 2, 3 => guardI (rs2 == 0) (.tcStat rd rs1)
  | 3, 0 => guardI (rs2 == 0) (.tgLook rd rs1)
  | 3, 1 => some (.tgIns rd rs1 rs2)
  | 3, 2 => guardI (rd == 0 && rs2 == 0) (.tgInv rs1)
  | 3, 3 => guardI (rs2 == 0) (.tgSlot rd rs1)
  | 4, 0 => guardI (rs2 == 0) (.gaCvt rd rs1)
  | 4, 1 => some (.gaTest rd rs1 rs2)
  | _, _ => none

/-- custom-1 (0x2b) by funct3 and funct7 (R207). -/
def decodeCustom1 (f3 f7 : Nat) (rd rs1 rs2 : Reg) (s : BitVec 3) : Option Instr :=
  match f3, f7 with
  | 0, 0 => guardI (rs1 == 0 && rs2 == 0) (.fuNew rd)
  | 0, 1 => guardI (rd == 0) (.fuSet rs1 rs2)
  | 0, 2 => guardI (rs2 == 0) (.fuGet rd rs1)
  | 0, 3 => some (.fuWait rd rs1 rs2)
  | 0, 4 => guardI (rd == 0) (.fuThen rs1 rs2)
  | 0, 5 => guardI (rd == 0 && rs2 == 0) (.fuDrop rs1)
  | 1, 0 => guardI (rd == 0 && rs2 == 0) (.grArrive rs1)
  | 1, 1 => some (.grWait rd rs1 rs2)
  | 1, 2 => some (.grBar rd rs1 rs2)
  | 1, 3 => guardI (rd == 0) (.grCast rs1 rs2)
  | 2, 0 => guardI (rs2 == 0) (.evPop rd rs1)
  | 2, 1 => guardI (rs2 == 0) (.evPeek rd rs1)
  | 2, 2 => some (.evWait rd rs1 rs2)
  | 3, 0 => guardI (rs2 == 0) (.syAcq rd rs1)
  | 3, 1 => guardI (rd == 0 && rs2 == 0) (.syRel rs1)
  | 3, 2 => guardI (rd == 0) (.syBind rs1 rs2)
  | 3, 8 => guardI (rd == 0 && rs1 == 0 && rs2 == 0) (.syFence s)
  | 3, 9 => guardI (rd == 0 && rs1 == 0 && rs2 == 0) (.syFence s)
  | 3, 10 => guardI (rd == 0 && rs1 == 0 && rs2 == 0) (.syFence s)
  | 3, 11 => guardI (rd == 0 && rs1 == 0 && rs2 == 0) (.syFence s)
  | 3, 12 => guardI (rd == 0 && rs1 == 0 && rs2 == 0) (.syFence s)
  | 3, 16 => guardI (rd == 0 && decide (rs1.toNat < 6) && decide (rs2.toNat < 6)) (.pfFence rs1 rs2)
  | _, _ => none

/-- custom-2 (0x5b) by funct3 and funct7 (R208). -/
def decodeCustom2 (f3 f7 : Nat) (rd rs1 rs2 : Reg) (s : BitVec 3) : Option Instr :=
  match f3, f7 with
  | 0, 0 => some (.amAdd rd rs1 rs2 s)
  | 0, 1 => some (.amAdd rd rs1 rs2 s)
  | 0, 2 => some (.amAdd rd rs1 rs2 s)
  | 0, 3 => some (.amAdd rd rs1 rs2 s)
  | 0, 4 => some (.amAdd rd rs1 rs2 s)
  | 0, 8 => some (.amMin rd rs1 rs2 s)
  | 0, 9 => some (.amMin rd rs1 rs2 s)
  | 0, 10 => some (.amMin rd rs1 rs2 s)
  | 0, 11 => some (.amMin rd rs1 rs2 s)
  | 0, 12 => some (.amMin rd rs1 rs2 s)
  | 0, 16 => some (.amMax rd rs1 rs2 s)
  | 0, 17 => some (.amMax rd rs1 rs2 s)
  | 0, 18 => some (.amMax rd rs1 rs2 s)
  | 0, 19 => some (.amMax rd rs1 rs2 s)
  | 0, 20 => some (.amMax rd rs1 rs2 s)
  | 0, 24 => some (.amAnd rd rs1 rs2 s)
  | 0, 25 => some (.amAnd rd rs1 rs2 s)
  | 0, 26 => some (.amAnd rd rs1 rs2 s)
  | 0, 27 => some (.amAnd rd rs1 rs2 s)
  | 0, 28 => some (.amAnd rd rs1 rs2 s)
  | 0, 32 => some (.amOr rd rs1 rs2 s)
  | 0, 33 => some (.amOr rd rs1 rs2 s)
  | 0, 34 => some (.amOr rd rs1 rs2 s)
  | 0, 35 => some (.amOr rd rs1 rs2 s)
  | 0, 36 => some (.amOr rd rs1 rs2 s)
  | 0, 40 => some (.amXchg rd rs1 rs2 s)
  | 0, 41 => some (.amXchg rd rs1 rs2 s)
  | 0, 42 => some (.amXchg rd rs1 rs2 s)
  | 0, 43 => some (.amXchg rd rs1 rs2 s)
  | 0, 44 => some (.amXchg rd rs1 rs2 s)
  | 0, 48 => some (.amCas rd rs1 rs2 s)
  | 0, 49 => some (.amCas rd rs1 rs2 s)
  | 0, 50 => some (.amCas rd rs1 rs2 s)
  | 0, 51 => some (.amCas rd rs1 rs2 s)
  | 0, 52 => some (.amCas rd rs1 rs2 s)
  | 1, 0 => some (.xcGet rd rs1 rs2)
  | 1, 1 => some (.xcPut rd rs1 rs2)
  | 1, 2 => some (.xcRed rd rs1 rs2)
  | 1, 3 => some (.xcSig rd rs1 rs2)
  | 1, 4 => guardI (rs1 == 0 && rs2 == 0) (.xcBegin rd)
  | 1, 5 => guardI (rs1 == 0 && rs2 == 0) (.xcCommit rd)
  | 1, 6 => some (.xcFrame rd rs1 rs2)
  | 2, 0 => some (.nbQuery rd rs1 rs2)
  | 2, 1 => some (.nbAppend rd rs1 rs2)
  | 2, 2 => guardI (rd == 0 && rs2 == 0) (.nbFence rs1)
  | 3, 0 => guardI (rd == 0) (.stKey rs1 rs2)
  | 3, 1 => guardI (rd == 0) (.stMember rs1 rs2)
  | _, _ => none

/-- custom-3 (0x7b) by funct3 and funct7 (R209). -/
def decodeCustom3 (f3 f7 : Nat) (rd rs1 rs2 : Reg) : Option Instr :=
  match f3, f7 with
  | 0, 0 => guardI (rs2 == 0) (.fbLoad rd rs1)
  | 0, 1 => guardI (rs1 == 0 && rs2 == 0) (.fbSwap rd)
  | 0, 2 => guardI (rd == 0 && rs2 == 0) (.fbRun rs1)
  | 0, 3 => guardI (rd == 0 && rs1 == 0 && rs2 == 0) (.fbStop)
  | 0, 4 => guardI (rd == 0 && decide (rs2.toNat < 4)) (.fbTok rs1 (rs2.setWidth 2))
  | 0, 5 => guardI (decide (rs2.toNat < 4) && rs1 == 0) (.fbSink rd (rs2.setWidth 2))
  | 1, 0 => guardI (rd == 0 && rs2 == 0) (.mxIssue rs1)
  | 1, 1 => guardI (rs2 == 0) (.mxWait rd rs1)
  | 2, 0 => guardI (rs1 == 0 && rs2 == 0) (.ckTake rd)
  | 2, 1 => guardI (rs2 == 0) (.ckDigest rd rs1)
  | 3, 0 => some (.bkSel rd rs1 rs2)
  | 7, 0 => guardI (rd == 0 && rs1 == 0 && rs2 == 0) (.sysYield)
  | 7, 1 => guardI (rd == 0 && rs1 == 0 && rs2 == 0) (.sysEnd)
  | 7, 2 => some (.sysSpawn rd rs1 rs2)
  | 7, 3 => guardI (rd == 0 && rs1 == 0 && rs2 == 0) (.sysBrk)
  | 7, 4 => guardI (rd == 0 && rs2 == 0) (.sysTrap rs1)
  | 7, 5 => guardI (rd == 0 && rs1 == 0 && rs2 == 0) (.sysEret)
  | _, _ => none

/-! ## The base profile: RV64I, M, Zba, Zbb, Zicsr (R193) -/

/-- OP (0x33): register-register operations by funct7 and funct3. -/
def decodeRegOp (f7 f3 : Nat) : Option RegOp :=
  match f7, f3 with
  | 0x00, 0 => some .add | 0x00, 1 => some .sll | 0x00, 2 => some .slt | 0x00, 3 => some .sltu
  | 0x00, 4 => some .xor | 0x00, 5 => some .srl | 0x00, 6 => some .or | 0x00, 7 => some .and
  | 0x20, 0 => some .sub | 0x20, 4 => some .xnor | 0x20, 5 => some .sra | 0x20, 6 => some .orn | 0x20, 7 => some .andn
  | 0x01, 0 => some .mul | 0x01, 1 => some .mulh | 0x01, 2 => some .mulhsu | 0x01, 3 => some .mulhu
  | 0x01, 4 => some .div | 0x01, 5 => some .divu | 0x01, 6 => some .rem | 0x01, 7 => some .remu
  | 0x10, 2 => some .sh1add | 0x10, 4 => some .sh2add | 0x10, 6 => some .sh3add
  | 0x05, 4 => some .min | 0x05, 5 => some .minu | 0x05, 6 => some .max | 0x05, 7 => some .maxu
  | 0x30, 1 => some .rol | 0x30, 5 => some .ror
  | _, _ => none

/-- OP-32 (0x3B): the word forms by funct7 and funct3. -/
def decodeRegOp32 (f7 f3 : Nat) : Option RegOp :=
  match f7, f3 with
  | 0x00, 0 => some .addw | 0x00, 1 => some .sllw | 0x00, 5 => some .srlw
  | 0x20, 0 => some .subw | 0x20, 5 => some .sraw
  | 0x01, 0 => some .mulw | 0x01, 4 => some .divw | 0x01, 5 => some .divuw | 0x01, 6 => some .remw | 0x01, 7 => some .remuw
  | 0x04, 0 => some .addUw
  | 0x10, 2 => some .sh1addUw | 0x10, 4 => some .sh2addUw | 0x10, 6 => some .sh3addUw
  | 0x30, 1 => some .rolw | 0x30, 5 => some .rorw
  | _, _ => none

/-- A base operation as an instruction. -/
def baseI (o : Option BaseOp) : Option Instr := o.map .baseInstruction

/-- OP-IMM (0x13). Shift forms read imm[11:6] and a 6-bit amount; the one-register forms of Zbb take whole immediates. -/
def decodeOpImm (f3 : Nat) (rd rs1 : Reg) (i : BitVec 12) : Option BaseOp :=
  let top := (i.extractLsb' 6 6).toNat
  let sh := i.extractLsb' 0 6
  match f3 with
  | 0 => some (.imm .addi rd rs1 i)
  | 2 => some (.imm .slti rd rs1 i)
  | 3 => some (.imm .sltiu rd rs1 i)
  | 4 => some (.imm .xori rd rs1 i)
  | 6 => some (.imm .ori rd rs1 i)
  | 7 => some (.imm .andi rd rs1 i)
  | 1 =>
    if top = 0x00 then some (.shift .slli rd rs1 sh)
    else if i = 0x600#12 then some (.un .clz rd rs1)
    else if i = 0x601#12 then some (.un .ctz rd rs1)
    else if i = 0x602#12 then some (.un .cpop rd rs1)
    else if i = 0x604#12 then some (.un .sextB rd rs1)
    else if i = 0x605#12 then some (.un .sextH rd rs1)
    else none
  | 5 =>
    if top = 0x00 then some (.shift .srli rd rs1 sh)
    else if top = 0x10 then some (.shift .srai rd rs1 sh)
    else if top = 0x18 then some (.shift .rori rd rs1 sh)
    else if i = 0x287#12 then some (.un .orcB rd rs1)
    else if i = 0x6B8#12 then some (.un .rev8 rd rs1)
    else none
  | _ => none

/-- OP-IMM-32 (0x1B). -/
def decodeOpImm32 (f3 : Nat) (rd rs1 : Reg) (i : BitVec 12) : Option BaseOp :=
  let top7 := (i.extractLsb' 5 7).toNat
  let sh := i.extractLsb' 0 6
  match f3 with
  | 0 => some (.imm .addiw rd rs1 i)
  | 1 =>
    if top7 = 0x00 then some (.shift .slliw rd rs1 sh)
    else if top7 / 2 = 0x02 then some (.shift .slliUw rd rs1 sh)
    else if i = 0x600#12 then some (.un .clzw rd rs1)
    else if i = 0x601#12 then some (.un .ctzw rd rs1)
    else if i = 0x602#12 then some (.un .cpopw rd rs1)
    else none
  | 5 =>
    if top7 = 0x00 then some (.shift .srliw rd rs1 sh)
    else if top7 = 0x20 then some (.shift .sraiw rd rs1 sh)
    else if top7 = 0x30 then some (.shift .roriw rd rs1 sh)
    else none
  | _ => none

def decodeLoadKind : Nat → Option LoadKind
  | 0 => some .lb | 1 => some .lh | 2 => some .lw | 3 => some .ld | 4 => some .lbu | 5 => some .lhu | 6 => some .lwu
  | _ => none

def decodeStoreKind : Nat → Option StoreKind
  | 0 => some .sb | 1 => some .sh | 2 => some .sw | 3 => some .sd
  | _ => none

def decodeBranchOp : Nat → Option BranchOp
  | 0 => some .beq | 1 => some .bne | 4 => some .blt | 5 => some .bge | 6 => some .bltu | 7 => some .bgeu
  | _ => none

def decodeCsrKind : Nat → Option CsrKind
  | 1 => some .rw | 2 => some .rs | 3 => some .rc | 5 => some .rwi | 6 => some .rsi | 7 => some .rci
  | _ => none

/-- SYSTEM (0x73): the privileged forms, the break and the CSR forms (R194, R198). -/
def decodeSystem (f3 : Nat) (rd rs1 rs2 : Reg) (f7 : BitVec 7) : Option Instr :=
  if f3 = 0 then
    if rd = 0 ∧ rs1 = 0 ∧ f7 ++ rs2 = 0x000#12 then some (.ecall .ecall)
    else if rd = 0 ∧ rs1 = 0 ∧ f7 ++ rs2 = 0x001#12 then some .ebreak
    else if rd = 0 ∧ rs1 = 0 ∧ f7 ++ rs2 = 0x302#12 then some (.ecall .mret)
    else if rd = 0 ∧ rs1 = 0 ∧ f7 ++ rs2 = 0x102#12 then some (.ecall .sret)
    else if rd = 0 ∧ rs1 = 0 ∧ f7 ++ rs2 = 0x105#12 then some (.ecall .wfi)
    else if rd = 0 ∧ f7 = 0x09#7 then some (.ecall .sfenceVma)
    else none
  else (decodeCsrKind f3).map fun k => .csrAccess k rd rs1 (f7 ++ rs2)

/-- Branch offset of the B layout: imm[12|10:5] in f7, imm[4:1|11] in rd. -/
def branchOff (f7 : BitVec 7) (rd : Reg) : BitVec 13 :=
  f7.extractLsb' 6 1 ++ rd.extractLsb' 0 1 ++ f7.extractLsb' 0 6 ++ rd.extractLsb' 1 4 ++ 0#1

/-- Jump offset of the J layout: imm[20|10:1|11|19:12] over f7, rs2, rs1, f3. -/
def jumpOff (f7 : BitVec 7) (rs2 rs1 : Reg) (f3 : BitVec 3) : BitVec 21 :=
  f7.extractLsb' 6 1 ++ (rs1 ++ f3) ++ rs2.extractLsb' 0 1 ++ (f7.extractLsb' 0 6 ++ rs2.extractLsb' 1 4) ++ 0#1

/-- An instruction from the six fields of its word; none where the encoding is unassigned. -/
def decodeFields (f7 : BitVec 7) (rs2 rs1 : Reg) (f3 : BitVec 3) (rd : Reg) (op : BitVec 7) : Option Instr :=
  match op.toNat with
  | 0x0B => decodeCustom0 f3.toNat f7.toNat rd rs1 rs2
  | 0x2B => decodeCustom1 f3.toNat f7.toNat rd rs1 rs2 (f7.extractLsb' 0 3)
  | 0x5B => decodeCustom2 f3.toNat f7.toNat rd rs1 rs2 (f7.extractLsb' 0 3)
  | 0x7B => decodeCustom3 f3.toNat f7.toNat rd rs1 rs2
  | 0x03 => (decodeLoadKind f3.toNat).map fun k => .scalarLoad k rd rs1 (f7 ++ rs2)
  | 0x23 => (decodeStoreKind f3.toNat).map fun k => .scalarStore k rs1 rs2 (f7 ++ rd)
  | 0x13 => baseI (decodeOpImm f3.toNat rd rs1 (f7 ++ rs2))
  | 0x1B => baseI (decodeOpImm32 f3.toNat rd rs1 (f7 ++ rs2))
  | 0x33 => baseI ((decodeRegOp f7.toNat f3.toNat).map fun o => .reg o rd rs1 rs2)
  | 0x3B =>
    if f7 = 0x04#7 ∧ f3 = 4#3 ∧ rs2 = 0 then baseI (some (.un .zextH rd rs1))
    else baseI ((decodeRegOp32 f7.toNat f3.toNat).map fun o => .reg o rd rs1 rs2)
  | 0x37 => baseI (some (.lui rd (f7 ++ rs2 ++ rs1 ++ f3)))
  | 0x17 => baseI (some (.auipc rd (f7 ++ rs2 ++ rs1 ++ f3)))
  | 0x6F => baseI (some (.jal rd (jumpOff f7 rs2 rs1 f3)))
  | 0x67 => if f3 = 0 then baseI (some (.jalr rd rs1 (f7 ++ rs2))) else none
  | 0x63 => baseI ((decodeBranchOp f3.toNat).map fun o => .branch o rs1 rs2 (branchOff f7 rd))
  | 0x0F => if f3 = 0 then some (.fence .fence) else if f3 = 1 then some (.fence .fenceI) else none
  | 0x73 => decodeSystem f3.toNat rd rs1 rs2 f7
  | _ => none

/-- The instruction of a 32-bit word (R204): total, the reserved form where nothing is assigned. -/
def decodeWord (w : Word) : Instr :=
  (decodeFields (w.extractLsb' 25 7) (w.extractLsb' 20 5) (w.extractLsb' 15 5) (w.extractLsb' 12 3) (w.extractLsb' 7 5)
    (w.extractLsb' 0 7)).getD (.baseInstruction (.reserved w))

/-! ## The compressed forms: RV64C without F and D (R193) -/

/-- A 3-bit register field of a compressed form: x8–x15. -/
def cReg (x : Nat) : Reg := BitVec.ofNat 5 (8 + x)

/-- Quadrant 0. -/
def decodeC0 (h : Nat) : Option Instr :=
  let f (hi lo : Nat) := Machine.bitsOf h hi lo
  let rdc := cReg (f 4 2)
  let rs1c := cReg (f 9 7)
  let offW : BitVec 12 := BitVec.ofNat 12 (f 12 10 * 8 + f 6 6 * 4 + f 5 5 * 64)
  let offD : BitVec 12 := BitVec.ofNat 12 (f 12 10 * 8 + f 6 5 * 64)
  match f 15 13 with
  | 0 =>
    let i := f 10 7 * 64 + f 12 11 * 16 + f 5 5 * 8 + f 6 6 * 4
    if i = 0 then none else some (.baseInstruction (.imm .addi rdc 2 (BitVec.ofNat 12 i)))
  | 2 => some (.scalarLoad .lw rdc rs1c offW)
  | 3 => some (.scalarLoad .ld rdc rs1c offD)
  | 6 => some (.scalarStore .sw rs1c rdc offW)
  | 7 => some (.scalarStore .sd rs1c rdc offD)
  | _ => none

/-- Quadrant 1. -/
def decodeC1 (h : Nat) : Option Instr :=
  let f (hi lo : Nat) := Machine.bitsOf h hi lo
  let rd : Reg := BitVec.ofNat 5 (f 11 7)
  let i6 : BitVec 12 := BitVec.ofInt 12 (Machine.sext 6 (f 12 12 * 32 + f 6 2))
  let rdc := cReg (f 9 7)
  let rs2c := cReg (f 4 2)
  let sh : BitVec 6 := BitVec.ofNat 6 (f 12 12 * 32 + f 6 2)
  let bOff : BitVec 13 := BitVec.ofInt 13
    (Machine.sext 9 (f 12 12 * 256 + f 6 5 * 64 + f 2 2 * 32 + f 11 10 * 8 + f 4 3 * 2))
  match f 15 13 with
  | 0 => some (.baseInstruction (.imm .addi rd rd i6))
  | 1 => if rd = 0 then none else some (.baseInstruction (.imm .addiw rd rd i6))
  | 2 => some (.baseInstruction (.imm .addi rd 0 i6))
  | 3 =>
    if rd = 2 then
      let i := Machine.sext 10 (f 12 12 * 512 + f 4 3 * 128 + f 5 5 * 64 + f 2 2 * 32 + f 6 6 * 16)
      if i = 0 then none else some (.baseInstruction (.imm .addi 2 2 (BitVec.ofInt 12 i)))
    else
      let i := Machine.sext 6 (f 12 12 * 32 + f 6 2)
      if i = 0 then none else some (.baseInstruction (.lui rd (BitVec.ofInt 20 i)))
  | 4 =>
    match f 11 10 with
    | 0 => some (.baseInstruction (.shift .srli rdc rdc sh))
    | 1 => some (.baseInstruction (.shift .srai rdc rdc sh))
    | 2 => some (.baseInstruction (.imm .andi rdc rdc i6))
    | _ =>
      match f 12 12, f 6 5 with
      | 0, 0 => some (.baseInstruction (.reg .sub rdc rdc rs2c))
      | 0, 1 => some (.baseInstruction (.reg .xor rdc rdc rs2c))
      | 0, 2 => some (.baseInstruction (.reg .or rdc rdc rs2c))
      | 0, 3 => some (.baseInstruction (.reg .and rdc rdc rs2c))
      | 1, 0 => some (.baseInstruction (.reg .subw rdc rdc rs2c))
      | 1, 1 => some (.baseInstruction (.reg .addw rdc rdc rs2c))
      | _, _ => none
  | 5 =>
    let j := Machine.sext 12 (f 12 12 * 2048 + f 8 8 * 1024 + f 10 9 * 256 + f 6 6 * 128 + f 7 7 * 64 + f 2 2 * 32
      + f 11 11 * 16 + f 5 3 * 2)
    some (.baseInstruction (.jal 0 (BitVec.ofInt 21 j)))
  | 6 => some (.baseInstruction (.branch .beq rdc 0 bOff))
  | _ => some (.baseInstruction (.branch .bne rdc 0 bOff))

/-- Quadrant 2. -/
def decodeC2 (h : Nat) : Option Instr :=
  let f (hi lo : Nat) := Machine.bitsOf h hi lo
  let rd : Reg := BitVec.ofNat 5 (f 11 7)
  let rs2 : Reg := BitVec.ofNat 5 (f 6 2)
  match f 15 13 with
  | 0 => some (.baseInstruction (.shift .slli rd rd (BitVec.ofNat 6 (f 12 12 * 32 + f 6 2))))
  | 2 => if rd = 0 then none else some (.scalarLoad .lw rd 2 (BitVec.ofNat 12 (f 12 12 * 32 + f 6 4 * 4 + f 3 2 * 64)))
  | 3 => if rd = 0 then none else some (.scalarLoad .ld rd 2 (BitVec.ofNat 12 (f 12 12 * 32 + f 6 5 * 8 + f 4 2 * 64)))
  | 4 =>
    if f 12 12 = 0 then
      if rs2 = 0 then (if rd = 0 then none else some (.baseInstruction (.jalr 0 rd 0)))
      else some (.baseInstruction (.reg .add rd 0 rs2))
    else
      if rs2 = 0 then (if rd = 0 then some .ebreak else some (.baseInstruction (.jalr 1 rd 0)))
      else some (.baseInstruction (.reg .add rd rd rs2))
  | 6 => some (.scalarStore .sw 2 rs2 (BitVec.ofNat 12 (f 12 9 * 4 + f 8 7 * 64)))
  | 7 => some (.scalarStore .sd 2 rs2 (BitVec.ofNat 12 (f 12 10 * 8 + f 9 7 * 64)))
  | _ => none

/-- The instruction of a 16-bit word whose low two bits are not 11; the all-zero halfword is reserved (R194). -/
def decodeHalf (h : BitVec 16) : Instr :=
  let r := match h.toNat % 4 with
    | 0 => decodeC0 h.toNat
    | 1 => decodeC1 h.toNat
    | _ => decodeC2 h.toNat
  r.getD (.baseInstruction (.reserved (h.setWidth 32)))

/-- Length in bytes of the instruction that begins with a byte: 4 when its low two bits are 11, else 2 (R193, R204). -/
def instrLen (b : Byte) : Nat := if b.toNat % 4 = 3 then 4 else 2

/-- The first instruction of a byte string with its length, or the reason there is none. -/
def decodeBytes : List Byte → Except DecodeError (Instr × Nat)
  | b0 :: b1 :: r =>
    if instrLen b0 = 2 then .ok (decodeHalf (b1 ++ b0), 2)
    else match r with
      | b2 :: b3 :: _ => .ok (decodeWord (b3 ++ b2 ++ b1 ++ b0), 4)
      | _ => .error .truncated
  | _ => .error .truncated

/-! ## The encoder -/

/-- A 32-bit word from its six fields (R204). -/
def encF (f7 : BitVec 7) (rs2 rs1 : Reg) (f3 : BitVec 3) (rd : Reg) (op : BitVec 7) : Word :=
  f7 ++ rs2 ++ rs1 ++ f3 ++ rd ++ op

/-- The I layout. -/
def encI (i : BitVec 12) (rs1 : Reg) (f3 : BitVec 3) (rd : Reg) (op : BitVec 7) : Word :=
  encF (i.extractLsb' 5 7) (i.extractLsb' 0 5) rs1 f3 rd op

/-- The U layout. -/
def encU (i : BitVec 20) (rd : Reg) (op : BitVec 7) : Word :=
  encF (i.extractLsb' 13 7) (i.extractLsb' 8 5) (i.extractLsb' 3 5) (i.extractLsb' 0 3) rd op

/-- The B layout. -/
def encB (off : BitVec 13) (rs2 rs1 : Reg) (f3 : BitVec 3) : Word :=
  encF (off.extractLsb' 12 1 ++ off.extractLsb' 5 6) rs2 rs1 f3 (off.extractLsb' 1 4 ++ off.extractLsb' 11 1) 0x63#7

/-- The J layout. -/
def encJ (off : BitVec 21) (rd : Reg) : Word :=
  encF (off.extractLsb' 20 1 ++ off.extractLsb' 5 6) (off.extractLsb' 1 4 ++ off.extractLsb' 11 1) (off.extractLsb' 15 5)
    (off.extractLsb' 12 3) rd 0x6F#7

/-- funct7, funct3 and major opcode of a register-register operation. -/
def regCode : RegOp → BitVec 7 × BitVec 3 × BitVec 7
  | .add => (0x00, 0, 0x33) | .sub => (0x20, 0, 0x33) | .sll => (0x00, 1, 0x33) | .slt => (0x00, 2, 0x33)
  | .sltu => (0x00, 3, 0x33) | .xor => (0x00, 4, 0x33) | .srl => (0x00, 5, 0x33) | .sra => (0x20, 5, 0x33)
  | .or => (0x00, 6, 0x33) | .and => (0x00, 7, 0x33)
  | .addw => (0x00, 0, 0x3B) | .subw => (0x20, 0, 0x3B) | .sllw => (0x00, 1, 0x3B) | .srlw => (0x00, 5, 0x3B)
  | .sraw => (0x20, 5, 0x3B)
  | .mul => (0x01, 0, 0x33) | .mulh => (0x01, 1, 0x33) | .mulhsu => (0x01, 2, 0x33) | .mulhu => (0x01, 3, 0x33)
  | .div => (0x01, 4, 0x33) | .divu => (0x01, 5, 0x33) | .rem => (0x01, 6, 0x33) | .remu => (0x01, 7, 0x33)
  | .mulw => (0x01, 0, 0x3B) | .divw => (0x01, 4, 0x3B) | .divuw => (0x01, 5, 0x3B) | .remw => (0x01, 6, 0x3B)
  | .remuw => (0x01, 7, 0x3B)
  | .addUw => (0x04, 0, 0x3B) | .sh1add => (0x10, 2, 0x33) | .sh2add => (0x10, 4, 0x33) | .sh3add => (0x10, 6, 0x33)
  | .sh1addUw => (0x10, 2, 0x3B) | .sh2addUw => (0x10, 4, 0x3B) | .sh3addUw => (0x10, 6, 0x3B)
  | .andn => (0x20, 7, 0x33) | .orn => (0x20, 6, 0x33) | .xnor => (0x20, 4, 0x33)
  | .max => (0x05, 6, 0x33) | .maxu => (0x05, 7, 0x33) | .min => (0x05, 4, 0x33) | .minu => (0x05, 5, 0x33)
  | .rol => (0x30, 1, 0x33) | .ror => (0x30, 5, 0x33) | .rolw => (0x30, 1, 0x3B) | .rorw => (0x30, 5, 0x3B)

/-- funct3 and major opcode of a register-immediate operation. -/
def immCode : ImmOp → BitVec 3 × BitVec 7
  | .addi => (0, 0x13) | .slti => (2, 0x13) | .sltiu => (3, 0x13) | .xori => (4, 0x13) | .ori => (6, 0x13)
  | .andi => (7, 0x13) | .addiw => (0, 0x1B)

/-- imm[11:6], funct3 and major opcode of a shift. -/
def shiftCode : ShiftOp → BitVec 6 × BitVec 3 × BitVec 7
  | .slli => (0x00, 1, 0x13) | .srli => (0x00, 5, 0x13) | .srai => (0x10, 5, 0x13) | .rori => (0x18, 5, 0x13)
  | .slliUw => (0x02, 1, 0x1B) | .slliw => (0x00, 1, 0x1B) | .srliw => (0x00, 5, 0x1B) | .sraiw => (0x10, 5, 0x1B)
  | .roriw => (0x18, 5, 0x1B)

/-- imm, funct3 and major opcode of a one-register operation. -/
def unCode : UnOp → BitVec 12 × BitVec 3 × BitVec 7
  | .clz => (0x600, 1, 0x13) | .ctz => (0x601, 1, 0x13) | .cpop => (0x602, 1, 0x13)
  | .clzw => (0x600, 1, 0x1B) | .ctzw => (0x601, 1, 0x1B) | .cpopw => (0x602, 1, 0x1B)
  | .sextB => (0x604, 1, 0x13) | .sextH => (0x605, 1, 0x13) | .zextH => (0x080, 4, 0x3B)
  | .orcB => (0x287, 5, 0x13) | .rev8 => (0x6B8, 5, 0x13)

def branchCode : BranchOp → BitVec 3
  | .beq => 0 | .bne => 1 | .blt => 4 | .bge => 5 | .bltu => 6 | .bgeu => 7

def loadCode : LoadKind → BitVec 3
  | .lb => 0 | .lh => 1 | .lw => 2 | .ld => 3 | .lbu => 4 | .lhu => 5 | .lwu => 6

def storeCode : StoreKind → BitVec 3
  | .sb => 0 | .sh => 1 | .sw => 2 | .sd => 3

def csrCode : CsrKind → BitVec 3
  | .rw => 1 | .rs => 2 | .rc => 3 | .rwi => 5 | .rsi => 6 | .rci => 7

def privCode : PrivKind → BitVec 12
  | .ecall => 0x000 | .mret => 0x302 | .sret => 0x102 | .wfi => 0x105 | .sfenceVma => 0x120

def fenceCode : FenceKind → BitVec 3
  | .fence => 0 | .fenceI => 1

/-- The four bytes of a word, lowest first (R2). -/
def wordBytes (w : Word) : List Byte :=
  [w.extractLsb' 0 8, w.extractLsb' 8 8, w.extractLsb' 16 8, w.extractLsb' 24 8]

/-- The bytes of a base operation; a reserved word only where it is one. -/
def encodeBase : BaseOp → Option (List Byte)
  | .reg o rd rs1 rs2 => let c := regCode o; some (wordBytes (encF c.1 rs2 rs1 c.2.1 rd c.2.2))
  | .imm o rd rs1 i => let c := immCode o; some (wordBytes (encI i rs1 c.1 rd c.2))
  | .shift o rd rs1 sh => let c := shiftCode o; some (wordBytes (encI (c.1 ++ sh) rs1 c.2.1 rd c.2.2))
  | .un o rd rs1 => let c := unCode o; some (wordBytes (encI c.1 rs1 c.2.1 rd c.2.2))
  | .lui rd i => some (wordBytes (encU i rd 0x37#7))
  | .auipc rd i => some (wordBytes (encU i rd 0x17#7))
  | .jal rd off => some (wordBytes (encJ off rd))
  | .jalr rd rs1 i => some (wordBytes (encI i rs1 0 rd 0x67#7))
  | .branch o rs1 rs2 off => some (wordBytes (encB off rs2 rs1 (branchCode o)))
  | .reserved w =>
    if w.toNat % 4 = 3 then
      if decodeWord w = .baseInstruction (.reserved w) then some (wordBytes w) else none
    else if decodeHalf (w.setWidth 16) = .baseInstruction (.reserved w) then some ((wordBytes w).take 2)
    else none

/-- The bytes of an instruction that a core fetches; a unit step has none. -/
def encode (i : Instr) : Option (List Byte) :=
  let ext (w : Word) : Option (List Byte) := some (wordBytes w)
  match i with
  | .ioCfg a b => ext (encF 0#7 b a 0 0 0x0B#7)
  | .ioArm a => ext (encF 1#7 0 a 0 0 0x0B#7)
  | .ioHalt a => ext (encF 2#7 0 a 0 0 0x0B#7)
  | .ioStat d a => ext (encF 3#7 0 a 0 d 0x0B#7)
  | .rwOpen d a b => ext (encF 0#7 b a 1 d 0x0B#7)
  | .rwPush a b => ext (encF 1#7 b a 1 0 0x0B#7)
  | .rwPop a b => ext (encF 2#7 b a 1 0 0x0B#7)
  | .rwWait d a b => ext (encF 3#7 b a 1 d 0x0B#7)
  | .rwStat d a => ext (encF 4#7 0 a 1 d 0x0B#7)
  | .rwLap d a => ext (encF 5#7 0 a 1 d 0x0B#7)
  | .tcCopy d a b => ext (encF 0#7 b a 2 d 0x0B#7)
  | .tcCopy2 d a b => ext (encF 1#7 b a 2 d 0x0B#7)
  | .tcWait d a => ext (encF 2#7 0 a 2 d 0x0B#7)
  | .tcStat d a => ext (encF 3#7 0 a 2 d 0x0B#7)
  | .tgLook d a => ext (encF 0#7 0 a 3 d 0x0B#7)
  | .tgIns d a b => ext (encF 1#7 b a 3 d 0x0B#7)
  | .tgInv a => ext (encF 2#7 0 a 3 0 0x0B#7)
  | .tgSlot d a => ext (encF 3#7 0 a 3 d 0x0B#7)
  | .gaCvt d a => ext (encF 0#7 0 a 4 d 0x0B#7)
  | .gaTest d a b => ext (encF 1#7 b a 4 d 0x0B#7)
  | .fuNew d => ext (encF 0#7 0 0 0 d 0x2B#7)
  | .fuSet a b => ext (encF 1#7 b a 0 0 0x2B#7)
  | .fuGet d a => ext (encF 2#7 0 a 0 d 0x2B#7)
  | .fuWait d a b => ext (encF 3#7 b a 0 d 0x2B#7)
  | .fuThen a b => ext (encF 4#7 b a 0 0 0x2B#7)
  | .fuDrop a => ext (encF 5#7 0 a 0 0 0x2B#7)
  | .grArrive a => ext (encF 0#7 0 a 1 0 0x2B#7)
  | .grWait d a b => ext (encF 1#7 b a 1 d 0x2B#7)
  | .grBar d a b => ext (encF 2#7 b a 1 d 0x2B#7)
  | .grCast a b => ext (encF 3#7 b a 1 0 0x2B#7)
  | .evPop d a => ext (encF 0#7 0 a 2 d 0x2B#7)
  | .evPeek d a => ext (encF 1#7 0 a 2 d 0x2B#7)
  | .evWait d a b => ext (encF 2#7 b a 2 d 0x2B#7)
  | .syAcq d a => ext (encF 0#7 0 a 3 d 0x2B#7)
  | .syRel a => ext (encF 1#7 0 a 3 0 0x2B#7)
  | .syBind a b => ext (encF 2#7 b a 3 0 0x2B#7)
  | .syFence s => ext (encF (8#7 + s.setWidth 7) 0 0 3 0 0x2B#7)
  | .pfFence x y => ext (encF 16#7 y x 3 0 0x2B#7)
  | .amAdd d a b s => ext (encF (0#7 + s.setWidth 7) b a 0 d 0x5B#7)
  | .amMin d a b s => ext (encF (8#7 + s.setWidth 7) b a 0 d 0x5B#7)
  | .amMax d a b s => ext (encF (16#7 + s.setWidth 7) b a 0 d 0x5B#7)
  | .amAnd d a b s => ext (encF (24#7 + s.setWidth 7) b a 0 d 0x5B#7)
  | .amOr d a b s => ext (encF (32#7 + s.setWidth 7) b a 0 d 0x5B#7)
  | .amXchg d a b s => ext (encF (40#7 + s.setWidth 7) b a 0 d 0x5B#7)
  | .amCas d a b s => ext (encF (48#7 + s.setWidth 7) b a 0 d 0x5B#7)
  | .xcGet d a b => ext (encF 0#7 b a 1 d 0x5B#7)
  | .xcPut d a b => ext (encF 1#7 b a 1 d 0x5B#7)
  | .xcRed d a b => ext (encF 2#7 b a 1 d 0x5B#7)
  | .xcSig d a b => ext (encF 3#7 b a 1 d 0x5B#7)
  | .xcBegin d => ext (encF 4#7 0 0 1 d 0x5B#7)
  | .xcCommit d => ext (encF 5#7 0 0 1 d 0x5B#7)
  | .xcFrame d a b => ext (encF 6#7 b a 1 d 0x5B#7)
  | .nbQuery d a b => ext (encF 0#7 b a 2 d 0x5B#7)
  | .nbAppend d a b => ext (encF 1#7 b a 2 d 0x5B#7)
  | .nbFence a => ext (encF 2#7 0 a 2 0 0x5B#7)
  | .stKey a b => ext (encF 0#7 b a 3 0 0x5B#7)
  | .stMember a b => ext (encF 1#7 b a 3 0 0x5B#7)
  | .fbLoad d a => ext (encF 0#7 0 a 0 d 0x7B#7)
  | .fbSwap d => ext (encF 1#7 0 0 0 d 0x7B#7)
  | .fbRun a => ext (encF 2#7 0 a 0 0 0x7B#7)
  | .fbStop => ext (encF 3#7 0 0 0 0 0x7B#7)
  | .fbTok a k => ext (encF 4#7 (k.setWidth 5) a 0 0 0x7B#7)
  | .fbSink d k => ext (encF 5#7 (k.setWidth 5) 0 0 d 0x7B#7)
  | .mxIssue a => ext (encF 0#7 0 a 1 0 0x7B#7)
  | .mxWait d a => ext (encF 1#7 0 a 1 d 0x7B#7)
  | .ckTake d => ext (encF 0#7 0 0 2 d 0x7B#7)
  | .ckDigest d a => ext (encF 1#7 0 a 2 d 0x7B#7)
  | .bkSel d a b => ext (encF 0#7 b a 3 d 0x7B#7)
  | .sysYield => ext (encF 0#7 0 0 7 0 0x7B#7)
  | .sysEnd => ext (encF 1#7 0 0 7 0 0x7B#7)
  | .sysSpawn d a b => ext (encF 2#7 b a 7 d 0x7B#7)
  | .sysBrk => ext (encF 3#7 0 0 7 0 0x7B#7)
  | .sysTrap a => ext (encF 4#7 0 a 7 0 0x7B#7)
  | .sysEret => ext (encF 5#7 0 0 7 0 0x7B#7)
  | .ebreak => ext (encI 0x001#12 0 0 0 0x73#7)
  | .ecall k => ext (encI (privCode k) 0 0 0 0x73#7)
  | .fence k => ext (encI 0 0 (fenceCode k) 0 0x0F#7)
  | .csrAccess k rd src csr => ext (encI csr src (csrCode k) rd 0x73#7)
  | .scalarLoad k rd rs1 i => ext (encI i rs1 (loadCode k) rd 0x03#7)
  | .scalarStore k rs1 rs2 i => ext (encF (i.extractLsb' 5 7) rs2 rs1 (storeCode k) (i.extractLsb' 0 5) 0x23#7)
  | .baseInstruction op => encodeBase op
  | _ => none

/-- The instruction read from the table's numbering: the low `nbits` bits of `w`, little-endian bytes from the lowest
address, zeros above. -/
def decodeTableWord (nbits w : Nat) : Option Instr :=
  match decodeBytes (Machine.leBytes 4 (w % 2 ^ nbits)) with
  | .ok (i, _) => some i
  | .error _ => none

/-! ## Step rows (R174, R175) -/

/-- The row of a 128-bit step-table entry; none for a reserved OP or a reserved bit that is set (R174). -/
def decodeStepRow (w : QWord) : Option StepRow :=
  let z (lo n : Nat) : Bool := w.extractLsb' lo n = 0#n
  match (w.extractLsb' 124 4).toNat with
  | 0x1 =>
    if z 0 51 then some (.step (w.extractLsb' 119 5) (w.extractLsb' 118 1) (w.extractLsb' 108 10) (w.extractLsb' 98 10)
      (w.extractLsb' 83 15) (w.extractLsb' 67 16) (w.extractLsb' 51 16)) else none
  | 0x2 =>
    if z 0 99 then some (.load (w.extractLsb' 119 5) (w.extractLsb' 106 13) (w.extractLsb' 100 6) (w.extractLsb' 99 1))
    else none
  | 0x3 =>
    if z 0 64 then some (.steep (w.extractLsb' 119 5) (w.extractLsb' 106 13) (w.extractLsb' 105 1) (w.extractLsb' 99 6)
      (w.extractLsb' 97 2) (w.extractLsb' 96 1) (w.extractLsb' 64 32)) else none
  | 0x4 =>
    if z 0 43 && z 67 9 then some (.drain (w.extractLsb' 123 1) (w.extractLsb' 122 1) (w.extractLsb' 112 10)
      (w.extractLsb' 102 10) (w.extractLsb' 87 15) (w.extractLsb' 81 6) (w.extractLsb' 79 2) (w.extractLsb' 78 1)
      (w.extractLsb' 76 2) (w.extractLsb' 43 24)) else none
  | 0x5 =>
    if z 0 101 && z 122 2 then some (.zero (w.extractLsb' 112 10) (w.extractLsb' 102 10) (w.extractLsb' 101 1)) else none
  | 0x6 =>
    if z 0 74 then some (.wait (w.extractLsb' 122 2) (w.extractLsb' 112 10) (w.extractLsb' 102 10) (w.extractLsb' 100 2)
      (w.extractLsb' 98 2) (w.extractLsb' 74 24)) else none
  | 0x7 =>
    if z 0 7 then some (.loop (w.extractLsb' 119 5) (w.extractLsb' 118 1) (w.extractLsb' 102 16) (w.extractLsb' 86 16)
      (w.extractLsb' 70 16) (w.extractLsb' 59 11) (w.extractLsb' 46 13) (w.extractLsb' 22 24) (w.extractLsb' 7 15)) else none
  | 0x8 => if z 0 124 then some .fin else none
  | _ => none

/-- The 128-bit entry of a step row (R174, R177 to R186). -/
def encodeStepRow : StepRow → QWord
  | .step wrow acc abase cnt ud m0 k0 => 0x1#4 ++ wrow ++ acc ++ abase ++ cnt ++ ud ++ m0 ++ k0 ++ 0#51
  | .load wrow waddr wfmt wsc => 0x2#4 ++ wrow ++ waddr ++ wfmt ++ wsc ++ 0#99
  | .steep wrow paddr pf tfmt rnd sat widx => 0x3#4 ++ wrow ++ paddr ++ pf ++ tfmt ++ rnd ++ sat ++ widx ++ 0#64
  | .drain dst clr abase cnt daddr dfmt rnd sat pidx limit =>
    0x4#4 ++ dst ++ clr ++ abase ++ cnt ++ daddr ++ dfmt ++ rnd ++ sat ++ pidx ++ 0#9 ++ limit ++ 0#43
  | .zero abase cnt ak => 0x5#4 ++ 0#2 ++ abase ++ cnt ++ ak ++ 0#101
  | .wait kind abase cnt slot pidx limit => 0x6#4 ++ kind ++ abase ++ cnt ++ slot ++ pidx ++ limit ++ 0#74
  | .loop target lvl iter dk dm da dw di dd => 0x7#4 ++ target ++ lvl ++ iter ++ dk ++ dm ++ da ++ dw ++ di ++ dd ++ 0#7
  | .fin => 0x8#4 ++ 0#124

end Sys2Proof
end

