-- ==== Sys2Proof/Config.lean ====
section
/-! DEFINITION. Config.lean: what the manual leaves open, as free values: constants with no body, so that no proof can see
what they are (log entry 5). A step applies one to the operands it depends on, or to the counter `State.draws`. -/

namespace Sys2Proof.Config

/-- A value the manual leaves open where the machine goes on: the n-th draw. -/
opaque freeDWord : Nat → DWord
/-- An order or duration the manual leaves open: the n-th draw. -/
opaque freeNat : Nat → Nat

/-- The section key that a source engine assigns: package, launch, logical index, explicit or implicit, the checkpoint from which
its sections are counted, and the serial (R277, R348). -/
opaque sectionKey : Nat → Nat → Nat → Bool → Nat → Nat → BitVec 32
/-- What a target reads off a section key: the home sequence of the launch that it names, and the checkpoint from which its serial
counts (R277, R348). -/
opaque keyLaunch : Nat → Nat
opaque keyPart : Nat → Nat

/-- The bytes of the packet that carries a window message between dies: tile, window key, tokens, whether it is an advance (R328,
R336). -/
opaque d2dPacket : Nat → Nat → Nat → Bool → List Byte

/-- The format code of the tokens of a window-mode port, by its window (R101, R214, R215). -/
opaque windowFmt : Nat → Nat

/-- `mvendorid`, `marchid`, `mimpid` and `mhartid` of a core, by CSR number, tile and core (log entry 7). -/
opaque machineId : Nat → Nat → Nat → BitVec 64

/-- mcause of a trap cause of the device that the privileged architecture does not number (log entry 7). -/
opaque machineCause : Nat → BitVec 64

/-- The array id and the unit whose log a value of ARRAY in `DIE_ERRSEL` selects: the firmware's unit map (R433). -/
opaque errUnit : Nat → Nat × Nat

/-- The seven bits that name a failing descriptor field above bit 127 in a CFGREJECT record (R428). -/
opaque cfgBit : Nat → Nat

/-- The bind records of a launch template: the bytes of a container's template section, and the template's index; none where it
has no such template. The manual lays out each 72-byte bind record but not the template around them (R38, R43). -/
opaque templateBinds : List Byte → Nat → Option (List (List Byte))

/-- The identity key pair that the root of trust derives from its seed: public exponent and modulus (R454; log entry 145). -/
opaque identityKey : BitVec 256 → Nat × Nat

end Sys2Proof.Config
end

