-- ==== Sys2Proof/Machine/Numeric.lean ====
section
/-! DEFINITION. Machine/Numeric.lean: number formats, exact values, `decode` and `encode`, NaNs, sums (R96 to R114). -/

namespace Sys2Proof.Machine

/-! ## Format codes (R76, R96) -/

def fmtEMPTY : Nat := 0
def fmtFP32 : Nat := 1
def fmtBF16 : Nat := 2
def fmtFP16 : Nat := 3
def fmtINT32 : Nat := 4
def fmtINT16 : Nat := 5
def fmtINT8 : Nat := 6
def fmtUINT8 : Nat := 7
def fmtPW16 : Nat := 8
def fmtPW32 : Nat := 9
/-- `b8p4se`: the mean of PW16 (R100). -/
def fmtB8p4se : Nat := 0x3C
/-- `b8p4sf`: the log-deviation of PW16 (R100). -/
def fmtB8p4sf : Nat := 0x34

/-- The class "float" of R125. -/
def fmtIsFloat (f : Nat) : Bool := f == 1 || f == 2 || f == 3
/-- The class "integer" of R125. -/
def fmtIsInt (f : Nat) : Bool := 4 ≤ f && f ≤ 7
/-- The class "b8" of R125: 0x21–0x3F with P ≠ 0 (R76). -/
def fmtIsB8 (f : Nat) : Bool := 0x21 ≤ f && f ≤ 0x3F && f % 8 != 0
/-- The class "pair" of R125. -/
def fmtIsPair (f : Nat) : Bool := f == 8 || f == 9
/-- A valid format code other than EMPTY (R76). -/
def fmtValid (f : Nat) : Bool := fmtIsFloat f || fmtIsInt f || fmtIsB8 f || fmtIsPair f

/-- Lane width of a format (R96). -/
def fmtWidth (f : Nat) : Nat :=
  if f == 1 || f == 4 || f == 9 then 32 else if f == 2 || f == 3 || f == 5 || f == 8 then 16 else 8
/-- Lanes per 32-bit word (R96). -/
def fmtLanes (f : Nat) : Nat := 32 / fmtWidth f
/-- Element size in bytes, the z of R15 and R52. -/
def fmtBytes (f : Nat) : Nat := fmtWidth f / 8

/-- `lane(x, L, i)` (R114). -/
def lane (x L i : Nat) : Nat := (x / 2 ^ (L * i)) % 2 ^ L
/-- Joins lanes of width L, lane 0 lowest (R97). -/
def joinLanes (L : Nat) : List Nat → Nat
  | [] => 0
  | x :: r => x % 2 ^ L + 2 ^ L * joinLanes L r
/-- The lanes of a word in a format (R97). -/
def lanesOf (f x : Nat) : List Nat := (List.range (fmtLanes f)).map (lane x (fmtWidth f))

/-! ## Exact values -/

/-- The exact value of a lane: NaN with its cause, ±∞, or (−1)^neg · m · 2^e with the sign of zero kept (R114 `decode`). -/
inductive XVal where
  | nan (cause : Nat)
  | inf (neg : Bool)
  | fin (neg : Bool) (m : Nat) (e : Int)
deriving DecidableEq, Repr, Inhabited

/-- A floating-point or binary8 layout (R98, R99): `t` trailing significand bits, the exponent of the least subnormal,
the code of the largest finite magnitude, the weight of the sign bit (0: unsigned), whether infinities exist and their code,
whether it is an IEEE-style format. -/
structure FloatFmt where
  t : Nat
  qmin : Int
  maxCode : Nat
  signW : Nat
  hasInf : Bool
  infCode : Nat
  ieee : Bool
deriving DecidableEq, Repr

/-- The layout of a format code (R98, R99). -/
def floatFmt (f : Nat) : FloatFmt :=
  if f == 1 then ⟨23, -149, 0x7F7FFFFF, 0x80000000, true, 0x7F800000, true⟩
  else if f == 2 then ⟨7, -133, 0x7F7F, 0x8000, true, 0x7F80, true⟩
  else if f == 3 then ⟨10, -24, 0x7BFF, 0x8000, true, 0x7C00, true⟩
  else
    let p := f % 8
    let t := p - 1
    let ext := bitOf f 3
    if bitOf f 4 then
      ⟨t, 1 - (2 ^ (7 - p) : Nat) - (t : Int), if ext then 0x7E else 0x7F, 0x80, ext, 0x7F, false⟩
    else
      ⟨t, 1 - (2 ^ (8 - p) : Nat) - (t : Int), if ext then 0xFD else 0xFE, 0, ext, 0xFE, false⟩

/-- The NaN code of a binary8 format (R99). -/
def b8Nan (f : Nat) : Nat := if bitOf f 4 then 0x80 else 0xFF

/-- The least cause-free generated NaN of a float format (R107). -/
def nanBase (f : Nat) : Nat := if f == 1 then 0x7FC00000 else if f == 2 then 0x7FC0 else 0x7E00

/-- `gen_nan(fmt, c)` (R107); the single NaN code in binary8; 0 in an integer format (R105). -/
def genNan (f c : Nat) : Nat :=
  if fmtIsFloat f then nanBase f + c else if fmtIsB8 f then b8Nan f else 0

/-- The magnitude code of a lane: the lane without its sign bit. -/
def magCode (F : FloatFmt) (x : Nat) : Nat := if F.signW = 0 then x else x % F.signW
/-- The sign of a lane. -/
def signOf (F : FloatFmt) (x : Nat) : Bool := F.signW != 0 && x / F.signW % 2 == 1

/-- Whether a lane is a NaN of its format (R98, R99). -/
def isNan (f x : Nat) : Bool :=
  if fmtIsFloat f then let F := floatFmt f; decide (F.infCode < magCode F x)
  else fmtIsB8 f && x == b8Nan f

/-- `nan_cause(x)` (R108). -/
def nanCause (f x : Nat) : Nat :=
  if fmtIsFloat f && isNan f x && decide (x % 8 ≤ 5) then x % 8 else 1

/-- The exact value of a finite magnitude code: exponent field above `t` trailing bits (R98, R99). -/
def magValue (F : FloatFmt) (c : Nat) : Nat × Int :=
  let ef := c / 2 ^ F.t
  if ef = 0 then (c, F.qmin) else (2 ^ F.t + c % 2 ^ F.t, F.qmin + (ef : Int) - 1)

/-- `decode(x, fmt)` of one lane (R114). -/
def decodeLane (f x : Nat) : XVal :=
  if fmtIsInt f then
    let v : Int := if f == fmtUINT8 then (x % 256 : Nat) else sext (fmtWidth f) x
    .fin (decide (v < 0)) v.natAbs 0
  else
    let F := floatFmt f
    if isNan f x then .nan (nanCause f x)
    else
      let c := magCode F x
      if F.hasInf && c == F.infCode then .inf (signOf F x)
      else let (m, e) := magValue F c; .fin (signOf F x) m e

/-- The integer read from a lane: signed in INT32, INT16 and INT8, unsigned in UINT8 (R131). -/
def intLane (f x : Nat) : Int := if f == fmtUINT8 then ((x % 256 : Nat) : Int) else sext (fmtWidth f) x

/-! ## Rounding (R103 to R105). Modes: 0 RNE, 1 RTZ, 2 RUP, 3 RDN (R77). -/

/-- Whether a positive remainder rounds the magnitude up. -/
def roundsUp (rnd : Nat) (neg odd : Bool) (rem half : Nat) : Bool :=
  if rnd = 0 then decide (rem > half) || (rem == half && odd)
  else if rnd = 1 then false
  else if rnd = 2 then rem != 0 && !neg
  else rem != 0 && neg

/-- The magnitude code of `m · 2^e` (m ≠ 0), rounded with the exponent range unbounded above and subnormals kept
below (R103); consecutive codes are consecutive representable magnitudes, so a tie goes to the even code. -/
def roundCode (F : FloatFmt) (neg : Bool) (m : Nat) (e : Int) (rnd : Nat) : Nat :=
  let E : Int := max F.qmin ((Nat.log2 m : Int) + e - F.t)
  let base := (E - F.qmin).toNat * 2 ^ F.t
  if E ≤ e then base + m * 2 ^ (e - E).toNat
  else
    let sh := (E - e).toNat
    let q := base + m / 2 ^ sh
    if roundsUp rnd neg (q % 2 == 1) (2 * (m % 2 ^ sh)) (2 ^ sh) then q + 1 else q

/-- Puts the sign bit on a magnitude code. -/
def withSign (F : FloatFmt) (neg : Bool) (c : Nat) : Nat := if neg then F.signW + c else c

/-- A signed non-NaN result of a float or binary8 format after R104: an unsigned format has no negative non-zero
value, and a binary8 zero is 0x00. -/
def finishFloat (f : Nat) (F : FloatFmt) (neg sat : Bool) (c : Nat) : Nat :=
  if F.ieee then withSign F neg c
  else if c = 0 then 0
  else if neg && F.signW == 0 then (if sat then 0 else b8Nan f)
  else withSign F neg c

/-- An exact infinity in a float or binary8 format (R104). -/
def encodeInf (f : Nat) (F : FloatFmt) (neg sat : Bool) : Nat :=
  if sat then finishFloat f F neg sat F.maxCode
  else if F.hasInf then finishFloat f F neg sat F.infCode
  else b8Nan f

/-- Whether an overflow under a rounding mode goes to ±∞ and not to ±max (R103). -/
def overflowsToInf (rnd : Nat) (neg : Bool) : Bool := rnd == 0 || (rnd == 2 && !neg) || (rnd == 3 && neg)

/-- A finite overflowing result (R103, R104). -/
def encodeOverflow (f : Nat) (F : FloatFmt) (neg : Bool) (rnd : Nat) (sat : Bool) : Nat :=
  if overflowsToInf rnd neg && F.hasInf && !sat then finishFloat f F neg sat F.infCode
  else finishFloat f F neg sat F.maxCode

/-- `m · 2^e` with a sign, rounded to an integer (R105). -/
def roundInt (neg : Bool) (m : Nat) (e : Int) (rnd : Nat) : Int :=
  let mag : Nat :=
    if 0 ≤ e then m * 2 ^ e.toNat
    else
      let sh := (-e).toNat
      let q := m / 2 ^ sh
      if roundsUp rnd neg (q % 2 == 1) (2 * (m % 2 ^ sh)) (2 ^ sh) then q + 1 else q
  if neg then -(mag : Int) else mag

/-- Least and greatest integer of an integer format. -/
def intMin (f : Nat) : Int := if f == fmtUINT8 then 0 else -(2 ^ (fmtWidth f - 1) : Nat)
def intMax (f : Nat) : Int := if f == fmtUINT8 then 255 else (2 ^ (fmtWidth f - 1) : Nat) - 1

/-- An exact integer written into an integer format: wrapped, or clamped under SAT (R105). -/
def encodeInt (f : Nat) (v : Int) (sat : Bool) : Nat :=
  wrapInt (fmtWidth f) (if sat then max (intMin f) (min (intMax f) v) else v)

/-- `encode(v, fmt, rnd, sat)` (R103 to R105, R107). -/
def encode (v : XVal) (f rnd : Nat) (sat : Bool) : Nat :=
  match v with
  | .nan c => genNan f c
  | .inf neg =>
    if fmtIsInt f then wrapInt (fmtWidth f) (if neg then intMin f else intMax f)
    else encodeInf f (floatFmt f) neg sat
  | .fin neg m e =>
    if fmtIsInt f then encodeInt f (roundInt neg m e rnd) sat
    else
      let F := floatFmt f
      if m = 0 then finishFloat f F neg sat 0
      else
        let c := roundCode F neg m e rnd
        if F.maxCode < c then encodeOverflow f F neg rnd sat else finishFloat f F neg sat c

/-- `rn32(v)` (R114). -/
def rn32 (v : XVal) : Nat := encode v fmtFP32 0 false

/-! ## Exact arithmetic (R108, R109, R111) -/

/-- −v, the sign of zero flipped too (R148). -/
def XVal.neg : XVal → XVal
  | .nan c => .nan c
  | .inf s => .inf (!s)
  | .fin s m e => .fin (!s) m e

/-- The exact product; 0 × ∞ is a NaN with cause 4; the first NaN operand otherwise (R108, R109). -/
def XVal.mul : XVal → XVal → XVal
  | .nan c, _ => .nan c
  | _, .nan c => .nan c
  | .inf s, .inf t => .inf (s != t)
  | .inf s, .fin t m _ => if m = 0 then .nan 4 else .inf (s != t)
  | .fin s m _, .inf t => if m = 0 then .nan 4 else .inf (s != t)
  | .fin s m e, .fin t n g => .fin (s != t) (m * n) (e + g)

/-- The signed integer `(−1)^s · m · 2^(e − lo)`. -/
def alignTo (s : Bool) (m : Nat) (e lo : Int) : Int :=
  let x : Int := (m * 2 ^ (e - lo).toNat : Nat)
  if s then -x else x

/-- The exact sum; +∞ and −∞ give a NaN with cause 3; an exact zero takes the sign of R109. -/
def XVal.add (rnd : Nat) : XVal → XVal → XVal
  | .nan c, _ => .nan c
  | _, .nan c => .nan c
  | .inf s, .inf t => if s = t then .inf s else .nan 3
  | .inf s, .fin _ _ _ => .inf s
  | .fin _ _ _, .inf t => .inf t
  | .fin s m e, .fin t n g =>
    let lo := min e g
    let z := alignTo s m e lo + alignTo t n g lo
    if z = 0 then .fin ((s && t) || rnd == 3) 0 0
    else .fin (decide (z < 0)) z.natAbs lo

/-- Whether a value is a NaN. -/
def XVal.isNan : XVal → Bool
  | .nan _ => true
  | _ => false

/-- The exact value of +0, −0 and 1. -/
def XVal.zero (neg : Bool) : XVal := .fin neg 0 0

/-- Order by value with −∞ lowest and −0 below +0; `false` on a NaN (R138, R149). -/
def XVal.below : XVal → XVal → Bool
  | .nan _, _ => false
  | _, .nan _ => false
  | .inf s, .inf t => s && !t
  | .inf s, .fin _ _ _ => s
  | .fin _ _ _, .inf t => !t
  | .fin s m e, .fin t n g =>
    let lo := min e g
    let x := alignTo s m e lo
    let y := alignTo t n g lo
    decide (x < y) || (x == y && m == 0 && s && !t)

/-- Order by value with −0 equal to +0; `false` on a NaN (R151). -/
def XVal.lt : XVal → XVal → Bool
  | .fin s m e, .fin t n g =>
    let lo := min e g
    decide (alignTo s m e lo < alignTo t n g lo)
  | x, y => x.below y

/-- `pad(rnd)`: −0, or +0 under RDN (R110). -/
def pad (rnd : Nat) : XVal := .zero (rnd != 3)

/-- One halving of `tree_sum`: neighbouring pairs added and rounded once (R112). -/
def treePass (f rnd : Nat) : List Nat → List Nat
  | x :: y :: r => encode (XVal.add rnd (decodeLane f x) (decodeLane f y)) f rnd false :: treePass f rnd r
  | r => r

/-- `fuel` halvings of `tree_sum`. -/
def treeSumGo (f rnd : Nat) : Nat → List Nat → Nat
  | 0, l => l.headD 0
  | n + 1, l => if l.length ≤ 1 then l.headD 0 else treeSumGo f rnd n (treePass f rnd l)

/-- The least power of two not below `n`. -/
def pow2At (n : Nat) : Nat := if n ≤ 1 then 1 else 2 ^ (Nat.log2 (n - 1) + 1)

/-- `tree_sum(x, n, fmt, rnd)` over encoded leaves (R110, R112); no leaves give +0. -/
def treeSum (f rnd : Nat) (xs : List Nat) : Nat :=
  if xs.isEmpty then 0
  else
    let w := pow2At xs.length
    treeSumGo f rnd (Nat.log2 w + 1) (xs ++ List.replicate (w - xs.length) (encode (pad rnd) f rnd false))

/-- The special values of an exact product sum (R113): a NaN product gives cause 1, then ∞ − ∞ gives 3 and 0 × ∞ gives 4
(the lowest cause applies, R108), then an infinity. `none`: every product is finite. -/
def productSpecial (ps : List (XVal × XVal)) : Option XVal :=
  if ps.any (fun p => p.1.isNan || p.2.isNan) then some (.nan 1)
  else
    let vs := ps.map (fun p => p.1.mul p.2)
    let pos := vs.any (fun v => v == .inf false)
    let neg := vs.any (fun v => v == .inf true)
    if pos && neg then some (.nan 3)
    else if vs.any XVal.isNan then some (.nan 4)
    else if pos then some (.inf false) else if neg then some (.inf true) else none

/-- The exact sum of products of R113, before its one rounding. -/
def productSum (ps : List (XVal × XVal)) : XVal :=
  match productSpecial ps with
  | some v => v
  | none =>
    match ps with
    | [] => .zero false
    | p :: r => r.foldl (fun s q => XVal.add 0 s (q.1.mul q.2)) (p.1.mul p.2)

end Sys2Proof.Machine
end

