-- ==== Sys2Proof/Machine/Transcend.lean ====
section
/-! DEFINITION. Machine/Transcend.lean: the correctly rounded functions (R114 `exp2_cr`, `inv_phi`; R117; R152).
A value that is no dyadic number is given to `encode` as an approximation whose error is far below every rounding
boundary of the format, with its last bit set, so that no such value is taken for an exact one. -/

namespace Sys2Proof.Machine

/-- Working precision of the fixed-point series, in bits. -/
def fxP : Nat := 256

/-- `floor(√n)` by Newton's iteration from above. -/
def isqrtGo : Nat → Nat → Nat → Nat
  | 0, _, x => x
  | k + 1, n, x => let y := (x + n / x) / 2; if y < x then isqrtGo k n y else x

/-- `floor(√n)`. -/
def isqrt (n : Nat) : Nat := if n = 0 then 0 else isqrtGo (Nat.log2 n + 2) n (2 ^ (Nat.log2 n / 2 + 1))

/-- `num / den · 2^e` cut to many bits, the last bit sticky. -/
def ratio (neg : Bool) (num den : Nat) (e : Int) : XVal :=
  let k := 160 + Nat.log2 den
  let q := num * 2 ^ k / den
  let s := if num * 2 ^ k % den = 0 then 0 else 1
  .fin neg (2 * q + s) (e - k - 1)

/-- 1/x for a finite non-zero x. -/
def recipX (neg : Bool) (m : Nat) (e : Int) : XVal := ratio neg 1 m (-e)

/-- √(m·2^e), cut with a sticky bit. -/
def sqrtX (m : Nat) (e : Int) : XVal :=
  let m' := if e % 2 = 0 then m else 2 * m
  let e' := if e % 2 = 0 then e else e - 1
  let n := m' * 2 ^ 320
  let r := isqrt n
  .fin false (2 * r + (if r * r = n then 0 else 1)) (e' / 2 - 161)

/-- 1/√(m·2^e), cut with a sticky bit; exact where √ is exact and its reciprocal is dyadic. -/
def rsqrtX (m : Nat) (e : Int) : XVal :=
  let m' := if e % 2 = 0 then m else 2 * m
  let e' := if e % 2 = 0 then e else e - 1
  let num := 2 ^ 400
  let q := num / m'
  let r := isqrt q
  let exact := decide (r * r * m' = num)
  .fin false (2 * r + (if exact then 0 else 1)) (-(e' / 2) - 201)

/-- Σ z^n / n! in fixed point, the terms cut, until they vanish. -/
def expSeries : Nat → Nat → Nat → Nat → Nat → Nat
  | 0, _, _, _, acc => acc
  | k + 1, z, n, term, acc =>
    let t := term * z / 2 ^ fxP / n
    if t = 0 then acc else expSeries k z (n + 1) t (acc + t)

/-- Σ z^(2n+1) / (2n+1) in fixed point: atanh z. -/
def atanhSeries : Nat → Nat → Nat → Nat → Nat → Nat
  | 0, _, _, _, acc => acc
  | k + 1, z2, n, pw, acc =>
    if pw = 0 then acc else atanhSeries k z2 (n + 2) (pw * z2 / 2 ^ fxP) (acc + pw / n)

/-- ln 2 in fixed point: 2·atanh(1/3). -/
def ln2Fx : Nat := 2 * atanhSeries 200 (2 ^ fxP / 9) 1 (2 ^ fxP / 3) 0

/-- 2^x for a finite x = ±m·2^e: exact for an integer x. A magnitude of 2^20 or more lies beyond every format's range,
so its result is given as 2^(±2^20). -/
def exp2X (neg : Bool) (m : Nat) (e : Int) : XVal :=
  if m = 0 then .fin false 1 0
  else if (20 : Int) ≤ (Nat.log2 m : Int) + e then .fin false 1 (if neg then -1048576 else 1048576)
  else if 0 ≤ e then
    let n : Int := (m * 2 ^ e.toNat : Nat)
    .fin false 1 (if neg then -n else n)
  else
    let sh := (-e).toNat
    let q : Int := (m / 2 ^ sh : Nat)
    let r := m % 2 ^ sh
    if r = 0 then .fin false 1 (if neg then -q else q)
    else
      -- floor of x, and its fraction in fixed point
      let n : Int := if neg then -q - 1 else q
      let fr := if neg then 2 ^ sh - r else r
      let f := if sh ≤ fxP then fr * 2 ^ (fxP - sh) else fr / 2 ^ (sh - fxP)
      let y := expSeries 200 (f * ln2Fx / 2 ^ fxP) 1 (2 ^ fxP) (2 ^ fxP)
      .fin false (2 * y + 1) (n - fxP - 1)

/-- log₂(m·2^e), m ≠ 0: exact for a power of two. -/
def log2X (m : Nat) (e : Int) : XVal :=
  let L := Nat.log2 m
  let n : Int := (L : Int) + e
  if 2 ^ L = m then .fin (decide (n < 0)) n.natAbs 0
  else
    -- m / 2^L lies in (1, 2): ln = 2 atanh((m − 2^L) / (m + 2^L))
    let z := (m - 2 ^ L) * 2 ^ fxP / (m + 2 ^ L)
    let ln := 2 * atanhSeries 200 (z * z / 2 ^ fxP) 1 z 0
    let fr : Int := (ln * 2 ^ fxP / ln2Fx : Nat)
    let v : Int := n * 2 ^ fxP + fr
    .fin (decide (v < 0)) (2 * v.natAbs + 1) (-(fxP : Int) - 1)

/-- `exp2_cr(x)` of an exact value, as FP32 bits (R114). -/
def exp2Cr (x : XVal) : Nat :=
  match x with
  | .nan c => genNan fmtFP32 c
  | .inf true => 0
  | .inf false => 0x7F800000
  | .fin s m e => rn32 (exp2X s m e)

/-! ## inv_phi (R114, R117) -/

/-- Fixed-point precision of the normal distribution series. -/
def phiP : Nat := 200

/-- Σ (−1)^n x^(2n+1) / (2^n n! (2n+1)) for x ≥ 0 in fixed point: √(2π)·(Φ(x) − ½). -/
def phiSeries : Nat → Nat → Nat → Nat → Int → Int
  | 0, _, _, _, acc => acc
  | k + 1, x2, n, term, acc =>
    if term = 0 then acc
    else
      let s : Int := (term / (2 * n + 1) : Nat)
      phiSeries k x2 (n + 1) (term * x2 / 2 ^ phiP / (2 * (n + 1))) (if n % 2 = 0 then acc + s else acc - s)

/-- √(2π) in fixed point, from π by Machin's formula. -/
def arctanInvGo : Nat → Nat → Nat → Nat → Int → Int
  | 0, _, _, _, acc => acc
  | k + 1, d2, n, pw, acc =>
    if pw = 0 then acc
    else
      let s : Int := (pw / (2 * n + 1) : Nat)
      arctanInvGo k d2 (n + 1) (pw / d2) (if n % 2 = 0 then acc + s else acc - s)

/-- arctan(1/d) in fixed point. -/
def arctanInv (d : Nat) : Int := arctanInvGo 300 (d * d) 0 (2 ^ phiP / d) 0

/-- π in fixed point. -/
def piFx : Nat := (16 * arctanInv 5 - 4 * arctanInv 239).toNat

/-- √(2π) in fixed point. -/
def sqrt2PiFx : Nat := isqrt (2 * piFx * 2 ^ phiP)

/-- Whether Φ(x) − ½ < (2j + 1)/2^25 for the dyadic x = m·2^e ≥ 0. -/
def phiBelow (m : Nat) (e : Int) (j : Nat) : Bool :=
  let x := if 0 ≤ e + phiP then m * 2 ^ (e + phiP).toNat else m / 2 ^ (-(e + phiP)).toNat
  decide (phiSeries 400 (x * x / 2 ^ phiP) 0 x 0 < (((2 * j + 1) * sqrt2PiFx / 2 ^ 25 : Nat) : Int))

/-- Bisection over FP32 codes: the greatest code c in [lo, hi) such that the midpoint below c lies below the answer. -/
def invPhiGo : Nat → Nat → Nat → Nat → Nat
  | 0, lo, _, _ => lo
  | k + 1, lo, hi, j =>
    if hi ≤ lo + 1 then lo
    else
      let mid := (lo + hi) / 2
      -- the midpoint between codes mid − 1 and mid
      let (m, e) := magValue (floatFmt fmtFP32) (mid - 1)
      if phiBelow (2 * m + 1) (e - 1) j then invPhiGo k mid hi j else invPhiGo k lo mid j

/-- ε(k) = rn32(inv_phi((k + ½)/2^24)), as FP32 bits (R117); the lower half by the symmetry R117 states. -/
def epsOf (k : Nat) : Nat :=
  let j := if k < 2 ^ 23 then 2 ^ 23 - 1 - k else k - 2 ^ 23
  let c := invPhiGo 40 0x33000000 0x40B00000 j
  if k < 2 ^ 23 then 0x80000000 + c else c

end Sys2Proof.Machine
end

