-- ==== Sys2Proof/Machine/Gleam.lean ====
section
/-! DEFINITION. Machine/Gleam.lean: the counter-based generator and the steeping draw (R115 to R122). -/

namespace Sys2Proof.Machine

/-- The four words of a Gleam state. -/
structure Quad where
  x0 : Nat
  x1 : Nat
  x2 : Nat
  x3 : Nat
deriving DecidableEq, Repr

/-- Rotation constants RA and RB (R115). -/
def gleamRA (n : Nat) : Nat := [12, 20, 8, 28].getD (n % 4) 0
def gleamRB (n : Nat) : Nat := [24, 4, 16, 12].getD (n % 4) 0

/-- The key words ks[0..2] (R115). -/
def gleamKs (key i : Nat) : Nat :=
  let k0 := key % 2 ^ 32
  let k1 := key / 2 ^ 32 % 2 ^ 32
  if i % 3 = 0 then k0 else if i % 3 = 1 then k1 else (k0 ^^^ k1) ^^^ 0x5A4DC3B1

/-- Round n of R115, with the key injection after every odd round. -/
def gleamRound (key n : Nat) (x : Quad) : Quad :=
  let a0 := (x.x0 + x.x1) % 2 ^ 32
  let a1 := rotl32 x.x1 (gleamRA n) ^^^ a0
  let a2 := (x.x2 + x.x3) % 2 ^ 32
  let a3 := rotl32 x.x3 (gleamRB n) ^^^ a2
  if n % 2 = 1 then
    let j := (n + 1) / 2
    ⟨(a0 + gleamKs key j) % 2 ^ 32, (a3 + gleamKs key (j + 1)) % 2 ^ 32,
     (a2 + gleamKs key (j + 2)) % 2 ^ 32, (a1 + j) % 2 ^ 32⟩
  else ⟨a0, a3, a2, a1⟩

/-- `gleam(c, key)` (R115): eight rounds. -/
def gleam (c : Quad) (key : Nat) : Quad := (List.range 8).foldl (fun x n => gleamRound key n x) c

/-- Output word i of a Gleam evaluation. -/
def Quad.word (q : Quad) (i : Nat) : Nat :=
  if i = 0 then q.x0 else if i = 1 then q.x1 else if i = 2 then q.x2 else q.x3

/-- `eps_draw(K, s, m, i)` (R118), as FP32 bits. -/
def epsDraw (key stream member index : Nat) : Nat :=
  let q := index / 4
  let o := gleam ⟨q % 2 ^ 32, member % 2 ^ 16 * 2 ^ 16 + q / 2 ^ 32 % 2 ^ 16, stream % 2 ^ 32, 0x10000000⟩ key
  epsOf (o.word (index % 4) / 2 ^ 8)

/-- Format of the mean of a weight pair (R100). -/
def pairMuFmt (pfmt : Nat) : Nat := if pfmt == fmtPW16 then fmtB8p4se else fmtBF16
/-- Format of the log-deviation of a weight pair (R100). -/
def pairEllFmt (pfmt : Nat) : Nat := if pfmt == fmtPW16 then fmtB8p4sf else fmtBF16
/-- The mean bits of a pair (R100). -/
def pairMu (pfmt pair : Nat) : Nat := if pfmt == fmtPW16 then pair / 2 ^ 8 % 2 ^ 8 else pair / 2 ^ 16 % 2 ^ 16
/-- The log-deviation bits of a pair (R100). -/
def pairEll (pfmt pair : Nat) : Nat := if pfmt == fmtPW16 then pair % 2 ^ 8 else pair % 2 ^ 16

/-- σ of a pair: `exp2_cr(decode(ℓ))`, as FP32 bits (R120). -/
def pairSigma (pfmt pair : Nat) : Nat := exp2Cr (decodeLane (pairEllFmt pfmt) (pairEll pfmt pair))

/-- The exact value of R121. -/
def steepExact (mu sigma eps : XVal) (rnd : Nat) : XVal :=
  match sigma with
  | .inf _ =>
    let neg := match eps with | .fin s _ _ => s | .inf s => s | .nan _ => false
    match mu with
    | .inf t => if t = neg then .inf t else .nan 3
    | _ => .inf neg
  | .fin _ 0 _ => mu
  | _ =>
    match mu with
    | .inf t => .inf t
    | _ => XVal.add rnd mu (sigma.mul eps)

/-- `steep_weight(pair, pfmt, eps, fmt, rnd, sat)` (R122); `eps` as FP32 bits. -/
def steepWeight (pair pfmt eps f rnd : Nat) (sat : Bool) : Nat :=
  let mu := decodeLane (pairMuFmt pfmt) (pairMu pfmt pair)
  let ell := decodeLane (pairEllFmt pfmt) (pairEll pfmt pair)
  match mu, ell with
  | .nan c, _ => genNan f c
  | _, .nan c => genNan f c
  | _, _ =>
    encode (steepExact mu (decodeLane fmtFP32 (pairSigma pfmt pair)) (decodeLane fmtFP32 eps) rnd) f rnd sat

end Sys2Proof.Machine
end

