-- ==== Sys2Proof/Machine/Maps.lean ====
section
/-! DEFINITION. Machine/Maps.lean: sparse maps as plain data. A map is a list of (key, value) pairs in one canonical
form: keys strictly rising, and no entry equal to the value an unlisted key reads as. Every memory, register file and
table of the machine is held so, which keeps equal contents equal as data. -/

namespace Sys2Proof.Machine

/-- The value at a key; an unlisted key reads as `d`. -/
def mapGet {α : Type} (d : α) : List (Nat × α) → Nat → α
  | [], _ => d
  | (k, v) :: r, a => if a = k then v else mapGet d r a

/-- Puts a pair into a sorted list, replacing a pair with the same key. -/
def mapInsert {α : Type} : List (Nat × α) → Nat → α → List (Nat × α)
  | [], a, v => [(a, v)]
  | (k, w) :: r, a, v =>
    if a < k then (a, v) :: (k, w) :: r
    else if a = k then (a, v) :: r
    else (k, w) :: mapInsert r a v

/-- Writes a key: the default value removes the entry, any other value is listed. -/
def mapSet {α : Type} [DecidableEq α] (d : α) (m : List (Nat × α)) (a : Nat) (v : α) : List (Nat × α) :=
  if v = d then m.filter (fun p => p.1 != a) else mapInsert m a v

/-- The canonical form, with every key at or above `lo`. -/
def mapWfFrom {α : Type} [DecidableEq α] (d : α) : Nat → List (Nat × α) → Bool
  | _, [] => true
  | lo, (k, v) :: r => decide (lo ≤ k) && decide (v ≠ d) && mapWfFrom d (k + 1) r

/-- The canonical form of a sparse map: keys strictly rising, no entry equal to the default. -/
def mapWf {α : Type} [DecidableEq α] (d : α) (m : List (Nat × α)) : Bool := mapWfFrom d 0 m

/-- Drops every entry whose key fails a test. -/
def mapKeep {α : Type} (m : List (Nat × α)) (p : Nat → Bool) : List (Nat × α) := m.filter (fun e => p e.1)

end Sys2Proof.Machine
end

