-- ==== Sys2Proof/Machine/ElemWord.lean ====
section
/-! DEFINITION. Machine/ElemWord.lean: the fields of an element word and of a row header (R71, R79, R82). -/

namespace Sys2Proof.Machine

/-- `x[hi:lo]` of an element word, as a number. -/
def ewField (w : ElemWord) (hi lo : Nat) : Nat := bitsOf w.toNat hi lo

def ewOpc (w : ElemWord) : Nat := ewField w 95 88
def ewSA (w : ElemWord) : Nat := ewField w 87 82
def ewSB (w : ElemWord) : Nat := ewField w 81 76
def ewSC (w : ElemWord) : Nat := ewField w 75 70
def ewDST (w : ElemWord) : Nat := ewField w 69 66
def ewWE (w : ElemWord) : Bool := bitOf w.toNat 65
def ewFMT (w : ElemWord) : Nat := ewField w 64 59
def ewRND (w : ElemWord) : Nat := ewField w 58 57
def ewSAT (w : ElemWord) : Bool := bitOf w.toNat 56
def ewCV (w : ElemWord) : Nat := ewField w 55 49
def ewIMM (w : ElemWord) : Nat := ewField w 48 33
/-- The route field of direction 0 north, 1 east, 2 south, 3 west. -/
def ewRoute (w : ElemWord) (dir : Nat) : Nat := ewField w (32 - 7 * dir) (26 - 7 * dir)
def ewRsv (w : ElemWord) : Nat := ewField w 4 2
def ewXARM (w : ElemWord) : Bool := bitOf w.toNat 1
def ewHARM (w : ElemWord) : Bool := bitOf w.toNat 0

/-- CH, SRC and DLY of a route field (R79). -/
def rtCH (r : Nat) : Nat := r / 32
def rtSRC (r : Nat) : Nat := r / 8 % 4
def rtDLY (r : Nat) : Nat := r % 8

/-- CTX of a row header (R82). -/
def rhCTX (h : Nat) : Nat := bitsOf h 29 28

/-! ## Opcodes (R84) -/

def opNOP : Nat := 0x00
def opMOV : Nat := 0x01
def opCONST : Nat := 0x02
def opSINK : Nat := 0x03
def opEXIT : Nat := 0x04
def opSEL : Nat := 0x32
def opMMAC : Nat := 0x80
def opMLDW : Nat := 0x81
def opMZERO : Nat := 0x82
def opSTEEP : Nat := 0x90
def opEPS : Nat := 0x91
def opESCL : Nat := 0x92

/-- The 63 opcodes of the map (R84). -/
def opValid (o : Nat) : Bool :=
  o ≤ 0x04 || (0x10 ≤ o && o ≤ 0x1B) || (0x20 ≤ o && o ≤ 0x2A) || (0x30 ≤ o && o ≤ 0x33) ||
  (0x40 ≤ o && o ≤ 0x49) || (0x50 ≤ o && o ≤ 0x55) || (0x60 ≤ o && o ≤ 0x65) ||
  (0x70 ≤ o && o ≤ 0x72) || (0x80 ≤ o && o ≤ 0x82) || (0x90 ≤ o && o ≤ 0x92)

/-- The matrix-mode opcodes (R84). -/
def opMatrix (o : Nat) : Bool := 0x80 ≤ o && o ≤ 0x82

/-- How many of a, b, c an opcode reads (R125, R146); the sources read are always a leading run. -/
def opReads (o cv : Nat) : Nat :=
  if o == opNOP || opMatrix o then 0
  else if o ≤ 0x04 then 1
  else if o == 0x15 then 3                       -- IMAD
  else if o == 0x16 || o == 0x17 then 1          -- INEG, IABS
  else if o ≤ 0x1B then 2
  else if o == 0x24 then 1                       -- NOT
  else if o == 0x29 || o == 0x2A then 1          -- CLZ, POPC
  else if o ≤ 0x31 then 2
  else if o == 0x32 || o == 0x33 then 3          -- SEL, CLAMP
  else if o ≤ 0x42 then 2
  else if o ≤ 0x45 then 3                        -- FMA, FMS, FNMA
  else if o ≤ 0x47 then 2
  else if o == 0x48 || o == 0x49 then 1
  else if o ≤ 0x54 then 1
  else if o == 0x55 then 2
  else if o == 0x60 then 1
  else if o == 0x61 || o == 0x62 then 2
  else if o == 0x63 then 1
  else if o ≤ 0x71 then 2
  else if o == 0x72 then (if cv % 4 == 2 then 3 else 2)
  else if o == opEPS then 1
  else 2

/-- Whether an opcode has a result (R123, R160 to R162). -/
def opHasResult (o : Nat) : Bool := !(o == opNOP || o == opSINK || o == opEXIT || opMatrix o)

/-- The selector code of source s (0 a, 1 b, 2 c). -/
def ewSel (w : ElemWord) (s : Nat) : Nat := if s = 0 then ewSA w else if s = 1 then ewSB w else ewSC w

/-- Whether one of the four route fields has SRC 3, which counts as a read of SA (R75). -/
def ewRouteReadsA (w : ElemWord) : Bool := (List.range 4).any (fun d => rtSRC (ewRoute w d) == 3)

/-- The selector codes the word reads, a first (R75, R125, R146). -/
def ewReads (w : ElemWord) : List Nat :=
  let n := opReads (ewOpc w) (ewCV w)
  if n = 0 then (if ewRouteReadsA w then [ewSA w] else []) else (List.range n).map (ewSel w)

end Sys2Proof.Machine
end

