-- ==== Sys2Proof/Machine/ElemOps.lean ====
section
/-! DEFINITION. Machine/ElemOps.lean: what each element operation checks and computes (R102, R123 to R167). -/

namespace Sys2Proof.Machine

/-! ## Generated sources (R74) -/

/-- The value of selector code 48, the immediate. -/
def immValue (f imm : Nat) : Nat :=
  if fmtWidth f == 32 then (if f == fmtINT32 then wrapInt 32 (sext 16 imm) else imm)
  else if fmtWidth f == 16 then joinLanes 16 [imm, imm]
  else joinLanes 8 (List.replicate 4 (imm % 256))

/-- The value of selector code 50: the iteration count in every lane. -/
def iterValue (f n : Nat) : Nat := joinLanes (fmtWidth f) (List.replicate (fmtLanes f) (n % 2 ^ fmtWidth f))

/-- The value of selector code 51: the lane numbers. -/
def laneValue (f : Nat) : Nat := joinLanes (fmtWidth f) (List.range (fmtLanes f))

/-! ## Tag checks (R102) -/

/-- A failed check: `scale` tells SCALETAG from FMTTAG; then the source, the expected code and the found tag. -/
structure TagFail where
  scale : Bool
  source : Nat
  expected : Nat
  found : Nat
deriving DecidableEq, Repr

/-- The mask format that SEL expects of c (R137); in 8-bit lanes UINT8 is accepted too, and a record names INT8
(log entry 154). -/
def selMaskFmt (f : Nat) : Nat :=
  if fmtWidth f == 32 then fmtINT32 else if fmtWidth f == 16 then fmtINT16 else fmtINT8

/-- The code that source s of an opcode is expected to carry (R102, R125, R146); `none`: no check. -/
def opExpect (o f cv s : Nat) : Option Nat :=
  if o == opCONST || o == opNOP then none
  else if o == opMOV && f == 0 then none
  else if o == opSINK && f == 0 then none
  else if o == 0x60 then some (cv % 64)
  else if o == 0x64 || o == 0x65 then some (if s = 0 then cv % 64 else fmtFP32)
  else if o == opSEL && s == 2 then some (selMaskFmt f)
  else if o == 0x55 && s == 1 then some (if f == fmtFP32 then fmtINT32 else fmtINT16)
  else if o == opSTEEP || o == opESCL then some (if s = 0 then cv % 64 else fmtINT32)
  else if o == opEPS then some fmtINT32
  else some f

/-- Whether a tag matches an expected code: EMPTY and tags with bit 6 set never match (R102). -/
def tagMatches (o s expected tag : Nat) : Bool :=
  !bitOf tag 6 && tag % 64 != 0 &&
    (tag % 64 == expected || (o == opSEL && s == 2 && expected == fmtINT8 && tag % 64 == fmtUINT8))

/-- Step 1 of R102: format codes in the order a, b, c. -/
def fmtChecks (o f cv : Nat) : Nat → List TVal → Option TagFail
  | _, [] => none
  | s, v :: r =>
    match opExpect o f cv s with
    | none =>
      if o == opSINK && fmtIsPair v.code then some ⟨false, s, 0, v.tag.toNat⟩ else fmtChecks o f cv (s + 1) r
    | some e => if tagMatches o s e v.tag.toNat then fmtChecks o f cv (s + 1) r else some ⟨false, s, e, v.tag.toNat⟩

/-- Whether source s must be unscaled or scaled, or agrees with source a (`none`): R102, R134, R137, R143, R144, R146. -/
def scaleRule (o s : Nat) : Option Bool :=
  if 0x25 ≤ o && o ≤ 0x28 then (if s = 1 then some false else none)
  else if o == opSEL then (if s = 2 then some false else none)
  else if o == 0x64 then some (s == 0)
  else if o == 0x65 then some false
  else if 0x50 ≤ o && o ≤ 0x54 then some false
  else if o == 0x55 then (if s = 1 then some false else none)
  else if o == opSTEEP || o == opEPS || o == opESCL then some false
  else none

/-- Step 2 of R102: scaled flags; `first` is the flag of source a. -/
def scaleChecks (o f cv : Nat) (first : Bool) : Nat → List TVal → Option TagFail
  | _, [] => none
  | s, v :: r =>
    let want := (scaleRule o s).getD first
    if v.scaled == want then scaleChecks o f cv first (s + 1) r
    else some ⟨true, s, (opExpect o f cv s).getD 0, v.tag.toNat⟩

/-- The checks of R102 on the sources an opcode reads; CONST and format-free MOV, NOP check nothing. -/
def elemCheck (o f cv : Nat) (xs : List TVal) : Option TagFail :=
  if o == opCONST || o == opNOP || opMatrix o then none
  else if (o == opMOV || o == opSINK) && f == 0 then fmtChecks o f cv 0 xs
  else
    match fmtChecks o f cv 0 xs with
    | some t => some t
    | none => scaleChecks o f cv ((xs.headD TVal.empty).scaled) 0 xs

/-! ## Lane operations -/

/-- A function of two lanes, lane by lane (R97). -/
def lanes2 (f : Nat) (g : Nat → Nat → Nat) (a b : Nat) : Nat :=
  joinLanes (fmtWidth f) (List.zipWith g (lanesOf f a) (lanesOf f b))
/-- A function of one lane. -/
def lanes1 (f : Nat) (g : Nat → Nat) (a : Nat) : Nat := joinLanes (fmtWidth f) ((lanesOf f a).map g)
/-- A function of three lanes. -/
def lanes3 (f : Nat) (g : Nat → Nat → Nat → Nat) (a b c : Nat) : Nat :=
  joinLanes (fmtWidth f)
    ((List.range (fmtLanes f)).map (fun i => g (lane a (fmtWidth f) i) (lane b (fmtWidth f) i) (lane c (fmtWidth f) i)))

/-- All ones of a lane, or zero. -/
def maskLane (L : Nat) (b : Bool) : Nat := if b then 2 ^ L - 1 else 0

/-- The integer operations 0x10–0x1B of one lane (R131). -/
def intOp (o f : Nat) (sat : Bool) (a b c : Nat) : Nat :=
  let L := fmtWidth f
  let x := intLane f a
  let y := intLane f b
  let z := intLane f c
  if o == 0x10 then encodeInt f (x + y) sat
  else if o == 0x11 then encodeInt f (x - y) sat
  else if o == 0x12 then encodeInt f (x * y) sat
  else if o == 0x13 then wrapInt L (x * y / (2 ^ L : Nat))
  else if o == 0x14 then a * b / 2 ^ L
  else if o == 0x15 then encodeInt f (x * y + z) sat
  else if o == 0x16 then encodeInt f (-x) sat
  else if o == 0x17 then encodeInt f (x.natAbs : Int) sat
  else if o == 0x18 then wrapInt L (min x y)
  else if o == 0x19 then wrapInt L (max x y)
  else if o == 0x1A then min a b
  else max a b

/-- The shifts 0x25–0x28 of one L-bit lane (R134). -/
def shiftOp (o L a n : Nat) : Nat :=
  if o == 0x25 then (if n ≥ L then 0 else a * 2 ^ n % 2 ^ L)
  else if o == 0x26 then (if n ≥ L then 0 else a / 2 ^ n)
  else if o == 0x27 then wrapInt L (sext L a / (2 ^ (min n L) : Nat))
  else let k := n % L; (a * 2 ^ k + a / 2 ^ (L - k)) % 2 ^ L

/-- The conditions of ICMP (R136). -/
def icmp (f cond a b : Nat) : Bool :=
  let x := intLane f a
  let y := intLane f b
  if cond == 0 then x == y
  else if cond == 1 then x != y
  else if cond == 2 then decide (x < y)
  else if cond == 3 then decide (x ≤ y)
  else if cond == 4 then decide (x > y)
  else if cond == 5 then decide (x ≥ y)
  else if cond == 6 then decide (a < b)
  else if cond == 7 then decide (a ≤ b)
  else if cond == 8 then decide (a > b)
  else decide (a ≥ b)

/-- The conditions of FCMP (R151): −0 equals +0. -/
def fcmp (f cond a b : Nat) : Bool :=
  let x := decodeLane f a
  let y := decodeLane f b
  let un := x.isNan || y.isNan
  let lt := x.lt y
  let gt := y.lt x
  if cond == 0 then !un && !lt && !gt
  else if cond == 1 then un || lt || gt
  else if cond == 2 then !un && lt
  else if cond == 3 then !un && !gt
  else if cond == 4 then !un && gt
  else if cond == 5 then !un && !lt
  else if cond == 6 then un
  else !un

/-- `first_nan` over lanes in order, as its cause (R108, R114). -/
def firstNanCause (f : Nat) : List Nat → Option Nat
  | [] => none
  | x :: r => if isNan f x then some (nanCause f x) else firstNanCause f r

/-- FADD to FNMA of one lane: `float_arith` (R148). -/
def floatArith (o f rnd : Nat) (sat : Bool) (a b c : Nat) : Nat :=
  let srcs := if o ≤ 0x42 then [a, b] else [a, b, c]
  match firstNanCause f srcs with
  | some n => genNan f n
  | none =>
    let x := decodeLane f a
    let y := decodeLane f b
    let z := decodeLane f c
    let v :=
      if o == 0x40 then XVal.add rnd x y
      else if o == 0x41 then XVal.add rnd x y.neg
      else if o == 0x42 then x.mul y
      else if o == 0x43 then XVal.add rnd (x.mul y) z
      else if o == 0x44 then XVal.add rnd (x.mul y) z.neg
      else XVal.add rnd (x.mul y).neg z
    encode v f rnd sat

/-- FMIN, FMAX of one lane (R149). -/
def floatMinMax (isMax : Bool) (f a b : Nat) : Nat :=
  match firstNanCause f [a, b] with
  | some n => genNan f n
  | none =>
    let x := decodeLane f a
    let y := decodeLane f b
    if isMax then (if x.below y then b else a) else (if y.below x then b else a)

/-- The order that CLAMP uses (R138). -/
def clampBelow (f a b : Nat) : Bool :=
  if fmtIsInt f then decide (intLane f a < intLane f b) else (decodeLane f a).below (decodeLane f b)

/-- CLAMP of one lane: min(max(a, b), c) (R138). -/
def clampLane (f a b c : Nat) : Nat :=
  match (if fmtIsInt f then none else firstNanCause f [a, b, c]) with
  | some n => genNan f n
  | none =>
    let m := if clampBelow f a b then b else a
    if clampBelow f c m then c else m

/-- FABS, FNEG of one lane (R150). -/
def signOp (isNeg : Bool) (f a : Nat) : Nat :=
  let F := floatFmt f
  if isNan f a then (if F.ieee then genNan f (nanCause f a) else a)
  else if F.signW = 0 then a
  else if !F.ieee && a == 0 then 0
  else
    let m := magCode F a
    if isNeg && !signOf F a then F.signW + m else m

/-- The functions 0x50–0x54 of one lane (R152). -/
def floatFn (o f rnd : Nat) (sat : Bool) (a : Nat) : Nat :=
  let v : XVal :=
    match decodeLane f a with
    | .nan c => .nan c
    | .inf neg =>
      if o == 0x50 then .zero neg
      else if o == 0x53 then (if neg then .zero false else .inf false)
      else if neg then .nan 5
      else if o == 0x51 then .zero false
      else .inf false
    | .fin neg m e =>
      if m = 0 then
        (if o == 0x50 || o == 0x51 then .inf neg
         else if o == 0x52 then .zero neg
         else if o == 0x53 then .fin false 1 0
         else .inf true)
      else if o == 0x50 then recipX neg m e
      else if o == 0x53 then exp2X neg m e
      else if neg then .nan 5
      else if o == 0x51 then rsqrtX m e
      else if o == 0x52 then sqrtX m e
      else log2X m e
  encode v f rnd sat

/-- Multiplies an exact value by 2^n (R153). -/
def XVal.scale (n : Int) : XVal → XVal
  | .fin s m e => .fin s m (e + n)
  | v => v

/-- The lanes of a conversion (R139): n = min(ns, nd) lanes formed, the rest zero. -/
def convLanes (sf df : Nat) (g : Nat → Nat) (a : Nat) : Nat :=
  joinLanes (fmtWidth df) ((List.range (min (fmtLanes sf) (fmtLanes df))).map (fun i => g (lane a (fmtWidth sf) i)))

/-- SCL and QSC of one lane (R143, R144). -/
def scaleLane (sf df rnd : Nat) (sat : Bool) (b a : Nat) : Nat :=
  if isNan sf a then genNan df (nanCause sf a)
  else if isNan fmtFP32 b then genNan df 2
  else encode ((decodeLane sf a).mul (decodeLane fmtFP32 b)) df rnd sat

/-! ## Tournament entries (R154 to R156) -/

/-- Width of the index field of an entry (R154). -/
def entIdxW (f : Nat) : Nat := if fmtIsB8 f then 24 else 16
def entIndex (f p : Nat) : Nat := p % 2 ^ entIdxW f
def entScore (f p : Nat) : Nat := p / 2 ^ entIdxW f
def entAbsent (f p : Nat) : Bool := entIndex f p == 2 ^ entIdxW f - 1

/-- `beats(p, q)` (R155). -/
def beats (f : Nat) (isMin : Bool) (p q : Nat) : Bool :=
  if entAbsent f p then false
  else if entAbsent f q then true
  else
    let sp := entScore f p
    let sq := entScore f q
    if isNan f sp && isNan f sq then decide (entIndex f p < entIndex f q)
    else if isNan f sp then false
    else if isNan f sq then true
    else
      let x := decodeLane f sp
      let y := decodeLane f sq
      let pOver := if isMin then x.below y else y.below x
      let qOver := if isMin then y.below x else x.below y
      if pOver then true else if qOver then false else decide (entIndex f p < entIndex f q)

/-- TWIN (R156). -/
def twin (f a b : Nat) : Nat :=
  if !entAbsent f a && entIndex f a == entIndex f b then entScore f a * 2 ^ entIdxW f + (2 ^ entIdxW f - 1) else a

/-! ## Softmax partials (R157, R158) -/

/-- OSMC.d (R157). -/
def osmcD (rnd : Nat) (sat : Bool) (a b : Nat) : Nat :=
  if a == b && (a == 0x7F800000 || a == 0xFF800000) then 0 else floatArith 0x41 fmtFP32 rnd sat a b 0

/-- OSMC.w (R158). -/
def osmcW (rnd : Nat) (sat : Bool) (a b d : Nat) : Nat :=
  match firstNanCause fmtFP32 [a, b, d] with
  | some n => genNan fmtFP32 n
  | none =>
    let negAbs : XVal := match decodeLane fmtFP32 d with
      | .fin _ m e => .fin true m e
      | .inf _ => .inf true
      | .nan c => .nan c
    let e := decodeLane fmtFP32 (exp2Cr negAbs)
    let x1 := decodeLane fmtFP32 a
    let x2 := decodeLane fmtFP32 b
    let dNeg := d / 2 ^ 31 == 1 && d != 0x80000000
    let (p, q) := if dNeg then (e.mul x1, x2) else (x1, e.mul x2)
    match p, q with
    | .nan c, _ => genNan fmtFP32 c
    | _, .nan c => genNan fmtFP32 c
    | _, _ => encode (XVal.add rnd p q) fmtFP32 rnd sat

/-! ## Steeping operations (R164 to R166) -/

/-- The steeping state of a task: K, s, m and IB (R164). -/
structure SteepKeys where
  key : DWord
  stream : Word
  member : BitVec 16
  base : BitVec 48
deriving DecidableEq, Repr, Inhabited

/-- All four are zero when a task first becomes resident (R164). -/
def SteepKeys.zero : SteepKeys := ⟨0, 0, 0, 0⟩

/-- The draw of weight index (IB + b + j) mod 2^48 (R165, R166). -/
def SteepKeys.draw (k : SteepKeys) (b j : Nat) : Nat :=
  epsDraw k.key.toNat k.stream.toNat k.member.toNat ((k.base.toNat + b + j) % 2 ^ 48)

/-- STEEP (R165). -/
def steepOp (k : SteepKeys) (pf f rnd : Nat) (sat : Bool) (a b : Nat) : Nat :=
  joinLanes (fmtWidth f) ((List.range (min (fmtLanes pf) (fmtLanes f))).map (fun j =>
    steepWeight (lane a (fmtWidth pf) j) pf (k.draw b j) f rnd sat))

/-- ESCL (R166). -/
def esclOp (k : SteepKeys) (pf a b : Nat) : Nat :=
  let pair := lane a (fmtWidth pf) 0
  let ell := pairEll pf pair
  let eps := decodeLane fmtFP32 (k.draw b 0)
  if isNan (pairEllFmt pf) ell then genNan fmtFP32 (nanCause (pairEllFmt pf) ell)
  else rn32 ((decodeLane fmtFP32 (pairSigma pf pair)).mul eps)

/-! ## The result of an operation -/

/-- CONST (R128). -/
def constBits (cv imm : Nat) : Nat :=
  if cv % 4 == 0 then imm
  else if cv % 4 == 1 then imm * 2 ^ 16
  else if cv % 4 == 2 then wrapInt 32 (sext 16 imm)
  else imm * 2 ^ 16 + imm

/-- The 32 result bits of an opcode that has a result (R127 to R166). A conversion within one format re-encodes what it decodes: a quiet NaN becomes the
generated one, and an infinity saturates under `.sat` (log entry 157). -/
def elemBits (k : SteepKeys) (o f rnd : Nat) (sat : Bool) (cv imm a b c : Nat) : Nat :=
  if o == opMOV then a
  else if o == opCONST then constBits cv imm
  else if o ≤ 0x1B then lanes3 f (intOp o f sat) a b c
  else if o == 0x20 then a &&& b
  else if o == 0x21 then a ||| b
  else if o == 0x22 then a ^^^ b
  else if o == 0x23 then a &&& (2 ^ 32 - 1 - b)
  else if o == 0x24 then 2 ^ 32 - 1 - a
  else if o ≤ 0x28 then lanes2 f (shiftOp o (fmtWidth f)) a b
  else if o == 0x29 then lanes1 f (clzNat (fmtWidth f)) a
  else if o == 0x2A then lanes1 f (popNat (fmtWidth f)) a
  else if o == 0x30 then lanes2 f (fun x y => maskLane (fmtWidth f) (icmp f (cv % 16) x y)) a b
  else if o == 0x31 then lanes2 f (fun x y => maskLane (fmtWidth f) (fcmp f (cv % 16) x y)) a b
  else if o == opSEL then lanes3 f (fun x y m => if m != 0 then x else y) a b c
  else if o == 0x33 then lanes3 f (clampLane f) a b c
  else if o ≤ 0x45 then lanes3 f (floatArith o f rnd sat) a b c
  else if o == 0x46 then lanes2 f (floatMinMax false f) a b
  else if o == 0x47 then lanes2 f (floatMinMax true f) a b
  else if o == 0x48 then lanes1 f (signOp false f) a
  else if o == 0x49 then lanes1 f (signOp true f) a
  else if o ≤ 0x54 then lanes1 f (floatFn o f rnd sat) a
  else if o == 0x55 then
    lanes2 f (fun x n => encode ((decodeLane f x).scale (sext (fmtWidth f) n)) f rnd sat) a b
  else if o == 0x60 then convLanes (cv % 64) f (fun x => encode (decodeLane (cv % 64) x) f rnd sat) a
  else if o == 0x61 then a / 2 ^ 16 + b % 2 ^ 16 * 2 ^ 16
  else if o == 0x62 then a / 2 ^ 8 + b % 2 ^ 8 * 2 ^ 24
  else if o == 0x63 then
    joinLanes (fmtWidth f) ((List.range (fmtLanes f)).map (fun i => lane a (fmtWidth f) ((i + cv % 4) % fmtLanes f)))
  else if o == 0x64 || o == 0x65 then convLanes (cv % 64) f (scaleLane (cv % 64) f rnd sat b) a
  else if o == 0x70 then (if beats f (cv % 2 == 1) b a then b else a)
  else if o == 0x71 then twin f a b
  else if o == 0x72 then
    (if cv % 4 == 0 then floatMinMax true fmtFP32 a b
     else if cv % 4 == 1 then osmcD rnd sat a b else osmcW rnd sat a b c)
  else if o == opSTEEP then steepOp k (cv % 64) f rnd sat a b
  else if o == opEPS then k.draw a 0
  else esclOp k (cv % 64) a b

/-- The tag of a result (R125, R146). -/
def elemTag (o f : Nat) (a : TVal) : Byte :=
  if o == opMOV then a.tag
  else
    let code := if o == 0x31 then
        (if fmtWidth f == 32 then fmtINT32 else if fmtWidth f == 16 then fmtINT16 else fmtINT8)
      else if o == opEPS || o == opESCL then fmtFP32 else f
    let unscaled := o == opCONST || o == 0x29 || o == 0x2A || o == 0x30 || o == 0x31 ||
      (0x50 ≤ o && o ≤ 0x54) || o == 0x64 || (0x90 ≤ o && o ≤ 0x92)
    let flag := if o == 0x65 then true else if unscaled then false else a.scaled
    BitVec.ofNat 8 (code + if flag then 128 else 0)

/-- The result of an element word on its source values, in the order a, b, c (R123). -/
def elemResult (k : SteepKeys) (w : ElemWord) (xs : List TVal) : TVal :=
  let a := xs.headD TVal.empty
  let b := xs.getD 1 TVal.empty
  let c := xs.getD 2 TVal.empty
  let o := ewOpc w
  ⟨BitVec.ofNat 32 (elemBits k o (ewFMT w) (ewRND w) (ewSAT w) (ewCV w) (ewIMM w) a.bits.toNat b.bits.toNat c.bits.toNat),
   elemTag o (ewFMT w) a⟩

/-- The exit predicate of EXIT (R130). -/
def exitPred (cv : Nat) (a : TVal) : Bool := if cv % 2 == 0 then a.bits != 0 else a.bits == 0

end Sys2Proof.Machine
end

