-- ==== Sys2Proof/Machine/State.lean ====
section
/-! DEFINITION. Machine/State.lean: every piece of state the manual gives one GW24 module, as plain data, and the state
after reset. Each field's docstring ends in three items: the rule that names it, its width, and its reset value ("0 (r)":
the manual's reset value; "0 (DC n)": a value the model names in log entry n; "0 (model)": a field of the model itself).
A list of (key, value) pairs is a sparse map, read and written by the operations of Machine/Maps.lean; of the memory the canonical
form is stated and kept. -/

namespace Sys2Proof.Machine

/-! ## Traps and scalar cores -/

/-- A trap record: words 0–3 (R427). -/
structure TrapRec where
  w0 : DWord
  w1 : DWord
  w2 : DWord
  w3 : DWord
deriving DecidableEq, Repr, Inhabited

/-- What a scalar core is doing (R190, R199, R200, R60). -/
inductive CoreStat where
  /-- not named by the firing, or no firing in progress -/
  | off
  /-- executing its part of the firing -/
  | run
  /-- its part has ended at `sys.end` -/
  | ended
  /-- stopped by a control-class trap that the control core has yet to handle or is handling (R200, R201) -/
  | trapped
  /-- stopped by a fault (R199) -/
  | faulted
  /-- stalled at an access held by `NOTPRESENT` (R60) -/
  | held
deriving DecidableEq, Repr, Inhabited

/-- An access held by `NOTPRESENT`: what a `READY` must cover to wake it (R60, R61). -/
structure Held where
  ctx : Nat
  tensor : Nat
  page : Nat
  /-- its task has been swapped out while it was held. R64. W: 1. Reset: false (r). -/
  swapped : Bool
  /-- a `READY` has covered it while its task was not on the tile: it is retried when the task is next bound. R64. W: 1. Reset: false (r). -/
  ready : Bool
deriving DecidableEq, Repr, Inhabited

/-- One scalar core of a tile (R190 to R198). -/
structure Core where
  /-- x1–x31 by number. R190. W: 31 × 64. Reset: 0 (DC 1). -/
  x : List (Nat × DWord)
  /-- program counter. R195. W: 64. Reset: 0 (DC 1). -/
  pc : DWord
  /-- what the core is doing. R190. W: enum. Reset: off (r). -/
  stat : CoreStat
  /-- the extension form at pc is blocked, waiting. R212. W: 1. Reset: false (r). -/
  blocked : Bool
  /-- limit cycles the blocked form has counted. R212, R225. W: 64. Reset: 0 (r). -/
  waited : Nat
  /-- the access the core is held at. R60. W: record. Reset: none (r). -/
  held : Option Held
  /-- instruction store, 64 KiB, by byte offset. R195. W: 65,536 × 8. Reset: 0 (DC 2). -/
  imem : List (Nat × Byte)
  /-- execute/data region map, bit n = region n executes. R34. W: 256. Reset: 0 (DC 2). -/
  imap : BitVec 256
  /-- data memory, 16 KiB, by byte offset. R195. W: 16,384 × 8. Reset: 0 (DC 2). -/
  dmem : List (Nat × Byte)
  /-- poisoned protection words of the data memory, by word number. R458. W: 2,048 × 1. Reset: false (DC 2). -/
  dpoison : List (Nat × Bool)
  /-- poisoned entries of the instruction store, 8 bytes each. R458. W: 8,192 × 1. Reset: false (DC 2). -/
  ipoison : List (Nat × Bool)
  /-- `instret`, instructions retired. R198. W: 64. Reset: 0 (DC 1). -/
  instret : DWord
  /-- machine mode; user mode otherwise. R193. W: 1. Reset: false (r). -/
  machine : Bool
  /-- machine CSRs and the tile-monitor registers 0x7C0–0x7FF, by number. R193, R198. W: 4,096 × 64. Reset: 0 (DC 1). -/
  mcsr : List (Nat × DWord)
  /-- the instruction word last fetched. R428. W: 32. Reset: 0 (model). -/
  iword : Word
  /-- its length in bytes, 2 or 4. R204. W: 3. Reset: 4 (model). -/
  ilen : Nat
  /-- `instret` when the access of the instruction at pc was swapped out. R64. W: 65. Reset: none (model). -/
  out : Option DWord
deriving DecidableEq, Repr, Inhabited

/-- The device CSRs of the control core that programs reach (R182, R198). -/
structure CtlCsr where
  /-- `TILE_TVEC`. R198. W: 64. Reset: 0 (r). -/
  tvec : DWord
  /-- `TILE_TEPC`. R198. W: 64. Reset: 0 (r). -/
  tepc : DWord
  /-- `TILE_MXPEER0`–`3` by number. R182. W: 4 × 64. Reset: 0 (r). -/
  mxpeer : List (Nat × DWord)
  /-- `TILE_TREC0`–`3`. R198, R427. W: 4 × 64. Reset: 0 (r). -/
  trec : TrapRec
  /-- `TILE_TSTAT`. R198. W: 64. Reset: 0 (r). -/
  tstat : DWord
deriving DecidableEq, Repr, Inhabited

/-! ## The fabric -/

/-- A region image header (R87). -/
structure RegionHdr where
  index : Nat
  plane : Nat
  rows : Nat
  matrix : Bool
  orow : Nat
  ocol : Nat
  height : Nat
  width : Nat
  lcMask : Nat
  conf : Nat
  stepCount : Nat
deriving DecidableEq, Repr, Inhabited

/-- A declaration record with its preloads (R88): LIVE, KEEP, and for each declared delay line its stages' values. -/
structure ElemDecl where
  live : Nat
  keep : Nat
  lines : List (List TVal)
deriving DecidableEq, Repr, Inhabited

/-- One row-store plane with what its configuration declares (R85, R91, R92). -/
structure Plane where
  /-- element words, key row·256 + 16·fabric row + column. R85. W: 32 × 256 × 96. Reset: 0 (DC 3). -/
  words : List (Nat × ElemWord)
  /-- poisoned element words. R458. W: 32 × 256 × 1. Reset: false (DC 3). -/
  poison : List (Nat × Bool)
  /-- row headers, key region position·32 + row. R82. W: 8 × 32 × 32. Reset: 0 (DC 3). -/
  hdrs : List (Nat × Word)
  /-- image headers of the configuration's regions. R87. W: 8 records. Reset: none (DC 3). -/
  regions : List RegionHdr
  /-- declaration records by element. R88. W: 256 records. Reset: none (DC 3). -/
  decls : List (Nat × ElemDecl)
  /-- step table. R91. W: 32 × 128. Reset: none (DC 3). -/
  steps : List QWord
  /-- configuration number, 255 when presented from scratchpad. R86, R238. W: 8. Reset: 255 (DC 3). -/
  conf : Nat
deriving DecidableEq, Repr, Inhabited

/-- States of a loop context (R293). -/
inductive LcStat where
  | unstarted | running | draining | frozen | exited
deriving DecidableEq, Repr, Inhabited

/-- A loop context of a region (R293 to R300). -/
structure LoopCtx where
  /-- state. R293. W: enum. Reset: unstarted (r). -/
  stat : LcStat
  /-- stage-valid register. R296. W: 16. Reset: 0 (r). -/
  sv : BitVec 16
  /-- iteration count. R300. W: 32. Reset: 0 (r). -/
  iter : BitVec 32
  /-- an exit has been raised. R298. W: 1. Reset: false (r). -/
  exitRaised : Bool
  /-- passes since it began to drain. R299. W: 8. Reset: 0 (r). -/
  drained : Nat
  /-- every word with a result was quiet or trapped so far in this pass. R299. W: 1. Reset: true (r). -/
  quiet : Bool
  /-- `fb.run` has selected it; it starts at the next pass start. R296. W: 1. Reset: false (r). -/
  starting : Bool
  /-- a frozen context: the state it froze in was DRAINING. R240. W: 1. Reset: false (r). -/
  wasDraining : Bool
  /-- a frozen context: the row where it froze. R240. W: 5. Reset: 0 (r). -/
  frozenRow : Nat
  /-- `fb.run` resumes it when the counter next stands there. R296. W: 1. Reset: false (r). -/
  resuming : Bool
deriving DecidableEq, Repr, Inhabited

/-- The running state of one region of the resident configuration (R292 to R294). -/
structure Region where
  /-- row counter. R292. W: 5. Reset: 0 (r). -/
  row : Nat
  /-- loop contexts lc0–lc3. R293. W: 4 records. Reset: unstarted (r). -/
  ctxs : List LoopCtx
  /-- steps 1–3 of R294 have been done at the present boundary. R294. W: 1. Reset: false (r). -/
  ready : Bool
  /-- the present boundary ends a pass. R292. W: 1. Reset: false (r). -/
  passEnd : Bool
  /-- the region is held at this boundary. R295. W: 1. Reset: false (r). -/
  holding : Bool
deriving DecidableEq, Repr, Inhabited

/-- A route in flight (R304): its region, the rows left before it lands, its target, the value and the context that drove it. -/
structure InFlight where
  region : Nat
  left : Nat
  /-- port 8–15, or none for an inbound channel -/
  port : Option Nat
  elem : Nat
  chan : Nat
  val : TVal
  ctx : Nat
deriving DecidableEq, Repr, Inhabited

/-- States of a stream port (R216). -/
inductive PortStat where
  | idle | ready | streaming | done | halted
deriving DecidableEq, Repr, Inhabited

/-- How a port is configured (R213, R39). -/
structure PortCfg where
  /-- window mode -/
  wm : Bool
  /-- key of its window on the tile -/
  win : Nat
  exd : Nat
  sc : Bool
  tensor : Nat
  pageCode : Nat
  dims : Nat
  counts : List Nat
  strides : List Int
  base : Int
deriving DecidableEq, Repr, Inhabited

/-- A token in a port's queue: its bits, tag, end-of-dimension flags, poison mark, and the step of the walk that it is for; of an inbound one, the
offset in its tensor or scratchpad that it came from. -/
structure PortTok where
  val : TVal
  flags : Nat
  poison : Bool
  step : Nat
deriving DecidableEq, Repr, Inhabited

/-- A stream port (R213 to R219). -/
structure Port where
  /-- state. R216. W: enum. Reset: idle (r). -/
  stat : PortStat
  /-- configuration. R213. W: record. Reset: empty (DC 3). -/
  cfg : PortCfg
  /-- queue, 16 tokens, oldest first. R213. W: 16 × 40. Reset: empty (r). -/
  queue : List PortTok
  /-- next step of the walk to fetch or accept. R214. W: 64. Reset: 0 (r). -/
  nextStep : Nat
  /-- queue entries reserved by routes in flight. R295. W: 5. Reset: 0 (r). -/
  reserved : Nat
  /-- tokens written (outbound) since the last arm. R216. W: 64. Reset: 0 (r). -/
  written : Nat
  /-- MOVED of `io.stat`. R219. W: 32. Reset: 0 (r). -/
  moved : BitVec 32
  /-- EV of the last `io.arm`. R217. W: 1. Reset: false (r). -/
  ev : Bool
  /-- the access held by `NOTPRESENT`. R60. W: record. Reset: none (r). -/
  held : Option Held
  /-- tokens moved since the last arm when an access of it was swapped out. R64. W: 65. Reset: none (model). -/
  out : Option Nat
deriving DecidableEq, Repr, Inhabited

/-- A row that has issued in the present cycle: its region, and the port and control tokens that it has consumed (R305). -/
structure Beat where
  region : Nat
  ports : List (Nat × PortTok)
  toks : List (Nat × TVal)
deriving DecidableEq, Repr, Inhabited

/-- The fabric of a tile with its row stores, registers, ports, tokens and sinks (R85, R101, R239, R242, R295). -/
structure Fabric where
  /-- the two row-store planes. R85. W: 2 records. Reset: empty (DC 3). -/
  plane0 : Plane
  plane1 : Plane
  /-- the active plane; none: no configuration is resident. R238. W: 2. Reset: none (r). -/
  active : Option Nat
  /-- a configuration is staged in the idle plane. R238. W: 1. Reset: false (r). -/
  staged : Bool
  /-- the staged expansion is still in progress. R92, R93. W: 1. Reset: false (r). -/
  expanding : Bool
  /-- rotating entries with tags, key element·16 + physical entry. R301. W: 256 × 16 × 40. Reset: EMPTY (DC 3). -/
  rot : List (Nat × TVal)
  /-- bank states of the resident configuration: LIVE, by element. R89. W: 256 × 4. Reset: 0 (DC 3). -/
  live : List (Nat × Nat)
  /-- KEEP of the resident configuration, by element. R89. W: 256 × 4. Reset: 0 (DC 3). -/
  keep : List (Nat × Nat)
  /-- result registers by element. R302. W: 256 × 40. Reset: EMPTY (DC 3). -/
  res : List (Nat × TVal)
  /-- inbound route channels, key element·4 + channel. R304. W: 1,024 × 40. Reset: EMPTY (DC 3). -/
  chan : List (Nat × TVal)
  /-- delay lines, key element·4 + line, stage 0 first. R303. W: 1,024 × 16 × 40. Reset: none (DC 3). -/
  dl : List (Nat × List TVal)
  /-- routes in flight. R304. W: up to 512 records. Reset: none (r). -/
  flight : List InFlight
  /-- control tokens ct0–ct3. R242. W: 4 × 41. Reset: empty (DC 3). -/
  ct : List (Nat × Option TVal)
  /-- sinks sk0–sk3. R243. W: 4 × 41. Reset: empty (DC 3). -/
  sk : List (Nat × Option TVal)
  /-- ports io0–io15. R216. W: 16 records. Reset: IDLE (r). -/
  ports : List (Nat × Port)
  /-- running state of the regions, in image order. R292. W: 8 records. Reset: none (r). -/
  regions : List Region
  /-- contexts frozen by a trap, key region·4 + context. R429. W: 32 × 1. Reset: false (r). -/
  trapFroze : List (Nat × Bool)
  /-- rows that issued in the present cycle. R292, R305. W: 8 records. Reset: none (r). -/
  beat : List Beat
deriving DecidableEq, Repr, Inhabited

/-- A row of the accumulator panel: its kind and 16 words (R173). -/
structure AccRow where
  int32 : Bool
  vals : List Word
deriving DecidableEq, Repr, Inhabited

/-- FP32 +0 in every column (R173). -/
def AccRow.zero : AccRow := ⟨false, List.replicate 16 0⟩

/-- A peer drain or a receive in progress (R181, R183, R184): rows moved so far, limit cycles counted, and the peer tile and
receive slot read when the row began. -/
structure MxProg where
  rowsDone : Nat
  waited : Nat
  peer : Option (Nat × Nat)
deriving DecidableEq, Repr, Inhabited

/-- The rows of a block that a trap has stopped which had begun by then (R187): how many have yet to complete, the present one among them, the index
of the last, and the steeping state as they have latched it (R179). -/
structure Wind where
  left : Nat
  last : Nat
  steep : SteepKeys
deriving DecidableEq, Repr, Inhabited

/-- The matrix sequencer (R174 to R187, R244). -/
structure Mx where
  /-- a block is running. R244. W: 1. Reset: false (r). -/
  busy : Bool
  /-- step row at which it stands. R175. W: 5. Reset: 0 (r). -/
  row : Nat
  /-- UTAG of the block. R244. W: 32. Reset: 0 (r). -/
  utag : Word
  /-- loop counters n[0], n[1]. R185. W: 2 × 17. Reset: 0 (r). -/
  n0 : Nat
  n1 : Nat
  /-- steps latched for the two levels: the index of the loop row. R185. W: 2 × 6. Reset: none (r). -/
  loop0 : Option Nat
  loop1 : Option Nat
  /-- progress of a draining or receiving row. R183, R184. W: record. Reset: 0 (r). -/
  prog : MxProg
  /-- cycle count at the first step row. R247. W: 64. Reset: 0 (r). -/
  startCycle : Nat
  /-- rows that had begun when an earlier row of the block trapped and are still to complete. R187. W: record. Reset: none (r). -/
  wind : Option Wind
deriving DecidableEq, Repr, Inhabited

/-! ## Windows, copies, tags, events -/

/-- A ring window, as its own tile holds it (R325, R327). -/
structure Window where
  /-- descriptor: base, token size, capacity. R325. W: 21 + 17 + 16. Reset: not open (r). -/
  base : Nat
  tok : Nat
  cap : Nat
  /-- producer and consumer tile and package. R325. W: 14 + 6 + 14 + 6. Reset: not open (r). -/
  pTile : Nat
  pPkg : Nat
  cTile : Nat
  cPkg : Nat
  /-- flags PROXY, MON, PACE. R325. W: 3. Reset: not open (r). -/
  proxy : Bool
  mon : Bool
  pace : Bool
  /-- initial tokens and arc index. R325. W: 17 + 6. Reset: not open (r). -/
  initial : Nat
  arc : Nat
  /-- write index, read index, occupancy at the consumer. R327. W: 16 + 16 + 17. Reset: 0 (r). -/
  wr : Nat
  rd : Nat
  occ : Nat
  /-- lap counter and laps since start. R332. W: 16 + 64. Reset: 0 (r). -/
  lap : Nat
  laps : Nat
  /-- tokens consumed by the firing in progress. R329. W: 17. Reset: 0 (r). -/
  cCount : Nat
  /-- eclipse markers, each with the tokens that stand before it. R316. W: list. Reset: none (r). -/
  marks : List Nat
  /-- words of the oldest token an inbound window-mode port has fetched or delivered; words an outbound one has filled. R215. W: 14. Reset: 0 (r). -/
  inWord : Nat
  outWord : Nat
  /-- tags of the tokens that a source memory actor has put in its slots, by slot, each plus one. R13. W: 65,535 × 8. Reset: none (r). -/
  tags : List (Nat × Nat)
  /-- number of the token behind the last that the producer's package has carried to it. R311, R334. W: 32. Reset: 0 (r). -/
  next : Nat
  /-- the launch that opened it, and the task slot that owns it. R221. W: record. Reset: none (r). -/
  launch : Option Nat
  owner : Nat
deriving DecidableEq, Repr, Inhabited

/-- The producer's copy of a window (R327). -/
structure ProdCopy where
  /-- producer write index. R327. W: 16. Reset: 0 (r). -/
  wr : Nat
  /-- read mirror. R327. W: 16. Reset: 0 (r). -/
  rdMirror : Nat
  /-- mirror occupancy. R327. W: 17. Reset: 0 (r). -/
  occ : Nat
  /-- lap mirror. R327. W: 16. Reset: 0 (r). -/
  lapMirror : Nat
  /-- tokens produced by the firing in progress. R329. W: 17. Reset: 0 (r). -/
  pCount : Nat
  /-- tokens produced since it opened, initial ones among them. R311, R334. W: 64. Reset: 0 (r). -/
  total : Nat
deriving DecidableEq, Repr, Inhabited

/-- A message between the ends of a window (R328). -/
structure WinMsg where
  /-- an advance message; else a release message -/
  advance : Bool
  n : Nat
  index : Nat
  lap : Nat
  /-- the issuing task and core when a class-5 record is due (R224) -/
  ev : Option (Nat × Nat × Nat)
deriving DecidableEq, Repr, Inhabited

/-- What a copy-unit slot carries (R231). -/
inductive CopyKind where
  | copy | push (w : Nat) (n : Nat) (tile : Nat) | pop (w : Nat) | cast (group : Nat)
deriving DecidableEq, Repr, Inhabited

/-- A tile copy in flight (R228 to R231). -/
structure Copy where
  kind : CopyKind
  slot : Nat
  core : Nat
  ticket : Nat
  ev : Bool
  src : DWord
  dst : DWord
  rowBytes : Nat
  rows : Nat
  srcPitch : Int
  dstPitch : Int
  /-- bytes already written. R63, R230. W: 40. Reset: none. -/
  moved : Nat
  poisoned : Bool
  held : Option Held
  /-- bytes that a copy issued later by the same core has written, which this one leaves alone: addresses and lengths. R229. W: list. Reset: none (r). -/
  mask : List (Nat × Nat)
  /-- of a pop: tokens that a port of the window has taken while it reads, consumed with it. R328. W: 17. Reset: 0 (r). -/
  after : Nat
deriving DecidableEq, Repr, Inhabited

/-- A tag-table entry (R233). -/
structure TagEntry where
  valid : Bool
  key : DWord
  slot : DWord
deriving DecidableEq, Repr, Inhabited

/-- An event record (R247): class, task slot, issuing core, TAG, PAYLOAD. -/
structure EvRec where
  cls : Nat
  slot : Nat
  core : Nat
  tag : Word
  payload : DWord
deriving DecidableEq, Repr, Inhabited

/-! ## Tasks -/

/-- A binding slot (R266): the descriptor's fields. -/
structure Binding where
  base : DWord
  len : Nat
  kind : Nat
  scope : Nat
  obj : DWord
deriving DecidableEq, Repr, Inhabited

/-- A staged command of a section as its source keeps it (R272, R274). -/
structure XcCmd where
  /-- 0 get, 1 put, 2 red, 3 sig, 4 frame -/
  op : Nat
  ticket : Nat
  core : Nat
  ev : Bool
  len : Nat
  pkg : Nat
  cls : Nat
  rctx : Nat
  rtensor : Nat
  roff : Nat
  redOp : Nat
  laddr : DWord
  serial : Nat
  /-- the section it belongs to, by serial; none outside a section -/
  inSect : Option Nat
  done : Bool
  /-- the bytes as read when the command was accepted; of a get, the bytes received, each with its poison -/
  data : List (Byte × Bool)
  /-- of a get: bytes written locally, its last frame has come, and the access held by `NOTPRESENT` (R60) -/
  written : Nat
  last : Bool
  held : Option Held
  /-- of an `xc.frame`: the windows of other packages that its rows go to, by package, tile and number (R394) -/
  ends : List (Nat × Nat × Nat)
deriving DecidableEq, Repr, Inhabited

/-- An open section (R274, R278). -/
structure Sect where
  serial : Nat
  explicit : Bool
  /-- x1–x31 and the address after `xc.begin`, saved by it -/
  savedX : List (Nat × DWord)
  savedPc : DWord
  beginRd : Nat
  /-- commands taken and LEN so far -/
  count : Nat
  bytes : Nat
  /-- targets named so far -/
  targets : List Nat
  /-- the commit has been sent (decided) and the targets that have yet to acknowledge -/
  decided : Bool
  pendingAck : List Nat
deriving DecidableEq, Repr, Inhabited

/-- Task states (R406). -/
inductive TaskStat where
  | waiting | ready | resident | saved | ended
deriving DecidableEq, Repr, Inhabited

/-- A firing in progress (R40, R286). -/
structure Firing where
  phase : Nat
  entry : Nat
  /-- cores the entry names, bit c -/
  named : Nat
  /-- the core whose part was the last to end so far. R330. W: 2. Reset: 0 (r). -/
  last : Nat
deriving DecidableEq, Repr, Inhabited

/-- A task's whole context when it does not hold the tile (R62, R439). -/
structure Context where
  cores : List Core
  csr : CtlCsr
  fabric : Fabric
  traps : List (TrapRec × Nat)
deriving DecidableEq, Repr, Inhabited

/-- The run state of an actor of a launch (R12, R316, R322). -/
structure ActorSt where
  /-- rows a memory actor has done. R334. W: 64. Reset: 0 (r). -/
  rows : Nat
  /-- it has received the eclipse, or makes no further firing. R316, R318, R322. W: 1. Reset: false (r). -/
  stopped : Bool
  /-- the access of a memory actor held by `NOTPRESENT`. R14, R60. W: record. Reset: none (r). -/
  held : Option Held
deriving DecidableEq, Repr, Inhabited

/-- A spawned task waiting to be bound (R288, R411). -/
structure SpawnReq where
  lidx : Nat
  tile : Nat
  entry : Nat
  prio : Nat
  arg : DWord
  future : Nat
  /-- the last part that its spawner had reached when it spawned it -/
  born : Nat
  /-- the digests of the mismatch whose `DIGEST` its control core is to take first. R442. W: 2 × 64. Reset: none (r). -/
  digest : Option (DWord × DWord)
deriving DecidableEq, Repr, Inhabited

/-- A recorded checkpoint part (R437). -/
structure CkPart where
  number : Nat
  cores : List Core
  csr : CtlCsr
  steep : SteepKeys
  binds : List (Nat × Binding)
  arrived : List (Nat × Option Nat)
  /-- next copy ticket, next engine ticket, spawns -/
  tickets : Nat × Nat × Nat
  events : List EvRec
  /-- windows and proxies the task holds, by number, each with the bytes of its occupied slots -/
  wins : List (Nat × Window × List (Byte × Bool))
  /-- producer copies of the arcs it feeds, by arc -/
  prods : List (Nat × ProdCopy)
  /-- its own actor and the memory actors that fire on its windows -/
  actors : List (Nat × ActorSt)
  phase : Nat
  firings : Nat
  firing : Option Firing
  digest : DWord
  ended : Bool
  unstarted : Bool
  /-- of a spawned task that has not ended: what it takes to bind it again -/
  req : Option SpawnReq
  /-- its area of the checkpoint store, where one is set up. R438. W: 48. Reset: none (r). -/
  area : Option Nat
deriving DecidableEq, Repr, Inhabited

/-- A bound task: its bind record (R404) and what the device keeps for it. -/
structure Task where
  /-- bind record: spawned, logical index, launch, container, actor. R404. W: record. Reset: none (r). -/
  spawned : Bool
  lidx : Nat
  launch : Nat
  container : Nat
  actor : Nat
  /-- first sequencing entry, base and current priority. R404, R408. W: 16 + 2 + 2. Reset: none (r). -/
  firstEntry : Nat
  basePrio : Nat
  prio : Nat
  /-- tensor context, module group entries, window set. R404. W: 12 + 4 × 8 + 64. Reset: none (r). -/
  ctx : Nat
  groups : List Nat
  wins : BitVec 64
  /-- reserve base and size, tag range base and size. R404, R233. W: 21 + 22 + 10 + 11. Reset: none (r). -/
  sbase : Nat
  ssize : Nat
  tbase : Nat
  tsize : Nat
  /-- state. R406. W: enum. Reset: none (r). -/
  stat : TaskStat
  /-- order in which it became READY, and cycles it has waited since then or its promotion. R407, R408. W: 64 + 17. Reset: 0 (r). -/
  readyAt : Nat
  aged : Nat
  /-- the context frame it holds, by its number in the pool of its die. R405. W: 12 + 1. Reset: none (r). -/
  frame : Option Nat
  /-- that frame was taken from the pool for a swap-out of a task alone on its tile, and goes back when it is restored. R62, R405. W: 1. Reset: false (r). -/
  lent : Bool
  /-- the per-task run state below. W: record. Reset: zero (r). -/
  firing : Option Firing
  /-- phase counter of its actor, firings completed. R320, R331. W: 4 + 64. Reset: 0 (r). -/
  phase : Nat
  firings : Nat
  /-- it has never been resident. R190. W: 1. Reset: true (r). -/
  fresh : Bool
  /-- saved context while not resident. R62. W: record. Reset: none (r). -/
  saved : Option Context
deriving DecidableEq, Repr, Inhabited

/-- The rest of a task: what its extension forms act on (R164, R232, R266, R272, R284, R288, R440). -/
structure TaskExt where
  /-- steeping state K, s, m, IB. R164. W: 64 + 32 + 16 + 48. Reset: 0 (r). -/
  steep : SteepKeys
  /-- 16 binding slots. R266. W: 16 records. Reset: zero (r). -/
  binds : List (Nat × Binding)
  /-- next tile-copy ticket, and the status of the 256 most recent. R232. W: 31 + 256 × 3. Reset: 0 (r). -/
  tcNext : Nat
  tcStat : List (Nat × Nat)
  /-- per core, bits 0 and 1 gathered for the all-copies wait. R232. W: 3 × 2. Reset: 0 (r). -/
  tcAll : List (Nat × Nat)
  /-- next ticket of `xc.*` and `nb.*`. R272. W: 31. Reset: 0 (r). -/
  xcNext : Nat
  /-- spawns since the last checkpoint part. R288. W: 9. Reset: 0 (r). -/
  spawns : Nat
  /-- arrived phase by group id. R260. W: 256 × 17. Reset: none (r). -/
  arrived : List (Nat × Option Nat)
  /-- open explicit section, implicit section, sections opened. R274, R278, R277. W: records. Reset: none (r). -/
  sect : Option Sect
  implicit : Option Sect
  sections : Nat
  /-- commands of the task in flight. R272. W: list. Reset: none (r). -/
  cmds : List XcCmd
  /-- last checkpoint part reached. R284. W: 32. Reset: 0 (r). -/
  part : Nat
  /-- running store digest. R440. W: 64. Reset: 0 (r). -/
  digest : DWord
  /-- cycles held by `NOTPRESENT`. R62. W: 24. Reset: 0 (r). -/
  heldFor : Nat
  /-- future a spawned task resolves, and its argument x10. R288. W: 32 + 64. Reset: 0 (r). -/
  future : Nat
  arg : DWord
  /-- code of a rollback that waits for the handler's `sys.eret`. R276. W: 3. Reset: none (r). -/
  rollback : Option Nat
  /-- of a spawned task: the last part that its spawner had reached when it spawned it. R439. W: 32. Reset: 0 (r). -/
  born : Nat
deriving DecidableEq, Repr, Inhabited

/-- One tile (R168, R190, R221, R231, R233, R246). -/
structure Tile where
  /-- control, loader and storer core. R190. W: 3 records. Reset: off (r). -/
  ctl : Core
  ldr : Core
  sto : Core
  /-- control-core CSRs. R198. W: record. Reset: 0 (r). -/
  csr : CtlCsr
  /-- the fabric. R85. W: record. Reset: empty (r). -/
  fabric : Fabric
  /-- the matrix sequencer. R174. W: record. Reset: idle (r). -/
  mx : Mx
  /-- accumulator panel by row. R173. W: 1,024 × 513. Reset: FP32 +0 (DC 3). -/
  acc : List (Nat × AccRow)
  /-- poisoned accumulator rows. R458. W: 1,024 × 1. Reset: false (DC 3). -/
  accPoison : List (Nat × Bool)
  /-- copies of the inverse-normal tables that fail their check, bit c. R421. W: 2. Reset: 0 (DC 3). -/
  tables : Nat
  /-- slot of the RESIDENT task. R406. W: 4. Reset: none (r). -/
  resident : Option Nat
  /-- traps waiting for the control core, with their source. R201. W: list. Reset: none (r). -/
  traps : List (TrapRec × Nat)
  /-- bound tasks by slot. R404. W: 8 records. Reset: none (r). -/
  tasks : List (Nat × Option Task)
  /-- the rest of each task's state, by slot. R164. W: 8 records. Reset: zero (r). -/
  exts : List (Nat × TaskExt)
  /-- open windows, w0–w63 of each launch, key launch·64 + number. R221, R310. W: 64 records. Reset: closed (r). -/
  wins : List (Nat × Option Window)
  /-- producer copies held here, by the window's tile and key (winNo). R327. W: records. Reset: 0 (r). -/
  prods : List (Nat × ProdCopy)
  /-- copies in flight, at most 96. R231. W: 96 records. Reset: none (r). -/
  copies : List Copy
  /-- memory actors whose copy is held by `NOTPRESENT` and keeps its slot until it completes: launch and actor. R14, R231. W: list. Reset: none (r). -/
  memHeld : List (Nat × Nat)
  /-- tag table. R233. W: 1,024 × 129. Reset: invalid (DC 3). -/
  tags : List (Nat × TagEntry)
  /-- event queue, 256 records, oldest first. R246. W: 256 × 128. Reset: none (r). -/
  events : List EvRec
  /-- records units hold until space frees. R246. W: list. Reset: none (r). -/
  pending : List EvRec
  /-- fabric cycles counted by the tile (`cycle`). R198. W: 64. Reset: 0 (DC 1). -/
  cycle : Nat
deriving DecidableEq, Repr, Inhabited

/-! ## Clusters, launches, containers -/

/-- A registered continuation (R256): kind, target, the registering task's tile, slot, logical index, core, and the
SCALAR writes it carries. -/
structure Cont where
  kind : Nat
  target : Nat
  tile : Nat
  slot : Nat
  lidx : Nat
  launch : Nat
  core : Nat
  /-- writes with a lower order of issue stand before its `fu.then` -/
  mark : Nat
deriving DecidableEq, Repr, Inhabited

/-- States of a future (R254). -/
inductive FuStat where
  | empty | pending | ready | poisoned
deriving DecidableEq, Repr, Inhabited

/-- A future-table entry (R254). -/
structure Fut where
  /-- value. R254. W: 64. Reset: 0 (r). -/
  val : DWord
  /-- state. R254. W: 2. Reset: EMPTY (r). -/
  stat : FuStat
  /-- generation. R254. W: 11. Reset: 1 (r). -/
  gen : Nat
  /-- continuations, oldest first. R254. W: list. Reset: none (r). -/
  conts : List Cont
  /-- the launch that created it. R258. W: 64. Reset: 0 (model). -/
  launch : Nat
deriving DecidableEq, Repr, Inhabited

/-- A module group entry (R410). -/
structure Grp where
  launch : Nat
  gid : Nat
  members : List Nat
  debugHeld : Bool
  phase : Nat
  /-- members arrived at the present phase. R259. W: list. Reset: none (r). -/
  arrived : List Nat
  /-- members that have ended. R259. W: list. Reset: none (r). -/
  ended : List Nat
  /-- order stamp of the last phase's completion: the arrivals before it are those that its waits acquire. R389. W: 64. Reset: 0 (model). -/
  doneAt : Nat
deriving DecidableEq, Repr, Inhabited

/-- A container section (R37). -/
structure NofSection where
  typ : Nat
  flags : Nat
  link : Nat
  bytes : List Byte
deriving DecidableEq, Repr, Inhabited

/-- A bind record of a launch (R397). -/
structure Bind where
  actor : Nat
  tensor : Nat
  b0 : Nat
  walkDims : Nat
  origin : List Nat
  extent : List Nat
  walkCounts : List Nat
  walkSteps : List Int
deriving DecidableEq, Repr, Inhabited

/-- How far a launch has come. -/
inductive LaunchStat where
  | validating | running | restoring | unplaced | aborted | completed
deriving DecidableEq, Repr, Inhabited

/-- A pending mode request of a launch (R314). -/
structure ModeReq where
  seq : Nat
  newMode : Nat
  count : Nat
  record : DWord
deriving DecidableEq, Repr, Inhabited

/-- A launch (R396 to R414). -/
structure Launch where
  /-- packet fields. R396. W: record. Reset: none (r). -/
  prio : Nat
  nopace : Bool
  hasMap : Bool
  container : Nat
  graph : Nat
  template : Nat
  pace : Nat
  interval : Nat
  ctx : Nat
  seed : DWord
  record : DWord
  map : List Nat
  home : Nat
  /-- replica table as read at acceptance. R413. W: 256 × 64 bytes. Reset: none (r). -/
  replica : List Byte
  /-- binds. R397. W: list. Reset: none (r). -/
  binds : List Bind
  /-- rate set in force, and the starting one. R317, R322. W: 3 + 3. Reset: 0 (r). -/
  mode : Nat
  startMode : Nat
  stat : LaunchStat
  /-- placement: tile of each logical index here. R403. W: list. Reset: none (r). -/
  place : List (Nat × Nat)
  /-- tile of each arc's window, and of its proxy. R310. W: lists. Reset: none (r). -/
  arcTile : List (Nat × Nat)
  proxyTile : List (Nat × Nat)
  actors : List (Nat × ActorSt)
  modeReq : Option ModeReq
deriving DecidableEq, Repr, Inhabited

/-- What a package records at a checkpoint beside its parts (R334, R437): futures, group phases, the windows and memory actors
that no task holds, the rate set. -/
structure CkPkg where
  number : Nat
  futures : List (Nat × Fut)
  groups : List (Nat × Nat)
  wins : List (Nat × Window × List (Byte × Bool))
  actors : List (Nat × ActorSt)
  finals : List (Nat × DWord)
  mode : Nat
  /-- mode requests completed, and spawned tasks that had not ended -/
  reqsDone : Nat
  spawnQ : List SpawnReq
  /-- names of the committed sections of the launch: source package and key. R277, R437. W: list. Reset: none (r). -/
  committed : List (Nat × Nat)
deriving DecidableEq, Repr, Inhabited

/-- What a launch holds of one tile from its acceptance until it is released (R69, R404): the ranges of its windows, proxies and
reserves, its tag ranges, how many windows and proxies, its group memberships, and the rows and banks that its configurations need. -/
structure TileShare where
  tile : Nat
  spad : List (Nat × Nat)
  tags : List (Nat × Nat)
  wins : Nat
  members : Nat
  /-- rows that its tasks need in each plane, and the live banks that they need of each element -/
  rows : Nat × Nat
  banks : List (Nat × Nat)
deriving DecidableEq, Repr, Inhabited

/-- A picture of what is held in the module, as a round gives it to every die (R399). -/
structure Holdings where
  /-- launches bound -/
  bound : List Nat
  shares : List TileShare
  /-- slots with a bound task: tile and slot -/
  slots : List (Nat × Nat)
  /-- scratchpad reserves that a queued query keeps: tile, base, size -/
  kept : List (Nat × Nat × Nat)
  /-- of each tile: tasks that have not ended, and those of them that hold no context frame -/
  live : List (Nat × Nat × Nat)
  /-- context frames in use, and jump-table entries in use, by die -/
  frames : List (Nat × Nat)
  buckets : List (Nat × Nat)
  /-- group entries in use -/
  groups : Nat
deriving DecidableEq, Repr, Inhabited

/-- The rest of a launch: checkpoints, recovery, reports (R258, R333, R430, R438, R441). -/
structure LaunchExt where
  /-- last checkpoint due, last complete. R333, R438. W: 32 + 32. Reset: 0 (r). -/
  due : Nat
  complete : Nat
  /-- launch digest of the last checkpoint taken. R441. W: 64. Reset: 0 (r). -/
  digest : DWord
  /-- launch digests of the two newest checkpoints, by number. R441, R438. W: 2 × 96. Reset: none (r). -/
  digests : List (Nat × DWord)
  /-- checkpoint restarts for memory poison so far. R430. W: 4. Reset: 0 (r). -/
  retries : Nat
  /-- the launch re-executes serially until the digest of this checkpoint is formed again, 0 being its completion's. R442. W: 1 + 32. Reset: none (r). -/
  serial : Option Nat
  /-- recorded parts by logical index, the two newest of each. R438. W: lists. Reset: none (r). -/
  parts : List (Nat × List CkPart)
  /-- what the package records beside the parts, the two newest. R437. W: records. Reset: none (r). -/
  pkgParts : List CkPkg
  /-- digests of tasks and instances that have ended, by logical index. R440, R441. W: lists. Reset: none (r). -/
  finals : List (Nat × DWord)
  /-- group entries held. R410. W: list. Reset: none (r). -/
  groups : List Nat
  /-- spawned tasks waiting for a slot. R411. W: list. Reset: none (r). -/
  spawnQ : List SpawnReq
  /-- quiescence reports, parts-written reports, restore-done reports received, by package. R317, R438, R439. W: lists. Reset: none (r). -/
  quiet : List Nat
  written : List Nat
  restored : List Nat
  /-- the pre-emption requests to complete: their journal sequences and record addresses. R439. W: list. Reset: none (r). -/
  preempt : List (Nat × DWord)
  /-- the fault that aborted it: cause, actor, offending value. R430. W: record. Reset: none (r). -/
  abort : Option (Nat × Nat × DWord)
  /-- dies that have yet to report their share complete to the head. R399. W: list. Reset: none (r). -/
  dies : List Nat
  /-- shared 2 MiB units written since the last checkpoint. R443. W: list. Reset: none (r). -/
  dirty : List Nat
  /-- bucket jump-table entries loaded. R412. W: 64 × 8 bytes. Reset: none (r). -/
  buckets : List (Nat × Nat × Nat × Nat)
  /-- mode requests accepted, in order, and how many are done. R314, R334. W: lists. Reset: none (r). -/
  reqs : List ModeReq
  reqsDone : Nat
  /-- the package to which the restore in progress is to be reported. R439. W: 6. Reset: none (r). -/
  reportTo : Option Nat
  /-- the checkpoint that the restore in progress returns to, and the digests of a mismatch that asked for it. R439, R442. W: 32; 2 × 64. Reset: 0, none (r). -/
  target : Nat
  mismatch : Option (DWord × DWord)
  /-- what it holds of each tile until it is released. R69, R399. W: list. Reset: none (r). -/
  share : List TileShare
  /-- the pinned tensors it binds, with their page counts, as they were validated. R56. W: list. Reset: none (r). -/
  pinned : List (Nat × Nat)
  /-- eclipse markers that have come and not yet taken their place, by the package they came from. R316. W: list. Reset: none (r). -/
  marksDue : List Nat
  /-- futures as they stood when a task past its part first changed them, until the package makes its record. R258, R437. W: list. Reset: none (r). -/
  futs : List (Nat × Fut)
  /-- windows that closed with their tasks, by arc, as a restore opens them again. R221, R334. W: records. Reset: none (r). -/
  closed : List (Nat × Window)
  /-- ended tasks whose slot another task has taken, with their tile and slot, as a restore binds them again. R406, R419. W: records. Reset: none (r). -/
  cleared : List (Nat × Nat × Task)
deriving DecidableEq, Repr, Inhabited

/-! ## Memory -/

/-- An observer of memory (R381): a core or unit of a tile, a stack controller with its infusers, a copy engine, a host link. -/
inductive Obs where
  /-- unit 0–2: the cores; 4 the tile-copy unit; 5 the matrix sequencer; 6 + p: stream port p -/
  | tile (t unit : Nat)
  | stack (k : Nat)
  | engine (e : Nat)
  | host (l : Nat)
deriving DecidableEq, Repr, Inhabited

/-- How far a write is performed: for one observer, whose reads return it; within a scope of a tile (R381), where a core's reads return it once
they come after it (R385); a strong store's scope before its one moment (R387); for every read of the module. -/
inductive Reach where
  | one (o : Obs) | scope (t code : Nat) | strong (t code : Nat) | all
deriving DecidableEq, Repr, Inhabited

/-- A release that carries a write (R267, R389): the object's key, the releasing tile, the scope, and its place in the object's order. -/
structure Carry where
  key : Nat
  tile : Nat
  scope : Nat
  /-- its place in the object's order: of a barrier the order of the arrival, of a window the number of the first token pushed, else 0 -/
  num : Nat
deriving DecidableEq, Repr, Inhabited

/-- A write on its way to its observers (R383 to R387). -/
structure PWrite where
  addr : Nat
  bytes : List Byte
  writer : Obs
  /-- engine class of the path, R270 -/
  cls : Nat
  /-- tile and slot of the task it is made for -/
  task : Option (Nat × Nat)
  /-- what in its class made it: a ticket or port number (R270) -/
  op : Nat
  /-- the task has seen its completion (R270) -/
  done : Bool
  /-- observers with respect to which it is performed, the writer aside -/
  reach : List Reach
  /-- releases that carry it (R267) -/
  carried : List Carry
  /-- order of issue, for the writes that a continuation carries (R256) -/
  seq : Nat
  /-- the launch it is made for (R16) -/
  launch : Option Nat
  /-- tasks that have acquired it, by tile and slot (R392) -/
  acquired : List (Nat × Nat)
deriving DecidableEq, Repr, Inhabited

/-! ## Infusers -/

/-- An entry of a stack controller's queue (R366). -/
structure NbCmd where
  isQuery : Bool
  tile : Nat
  slot : Nat
  core : Nat
  lidx : Nat
  launch : Nat
  ctx : Nat
  ticket : Nat
  ev : Bool
  future : Option Nat
  fmt : Nat
  dim : Nat
  banks : Nat
  stride : Nat
  b0 : Nat
  t0 : Nat
  count : Nat
  scale : Word
  kTensor : Nat
  vTensor : Nat
  kFrame : Nat
  vFrame : Nat
  /-- query vector, or key row -/
  vec : List Byte
  /-- value row of an append -/
  vec2 : List Byte
  /-- scratchpad reserve that a LOCAL result block keeps (R369): base and size -/
  reserve : Nat × Nat
  result : DWord
deriving DecidableEq, Repr, Inhabited

/-- A bank job's result (R362, R375). -/
structure NbRes where
  err : Nat
  m : Word
  s : Word
  acc : List Word
  scored : Nat
deriving DecidableEq, Repr, Inhabited

/-- Progress of a queued command: results by bank position, scores of an open job, completion (R367, R370). -/
structure NbProg where
  cmd : NbCmd
  done : List (Nat × NbRes)
  /-- bank position with its key slice done: scores by token, and excluded tokens -/
  keyed : List (Nat × List (Nat × Word) × List Nat)
  /-- of an append: a row was written poisoned (R374, R378); it was not performed (R379) -/
  poisoned : Bool
  failed : Bool
  /-- the result write held by `NOTPRESENT` (R60) -/
  held : Option Held
deriving DecidableEq, Repr, Inhabited

/-- What a bank owes and serves (R371). -/
structure BankSt where
  refreshDue : Bool
  /-- ordinary accesses that waited when the last slice ended, and those served since -/
  ordinary : Nat
  served : Nat
deriving DecidableEq, Repr, Inhabited

/-- A stack with its controller and infusers (R365, R379). -/
structure Stack where
  /-- command queue, 512 entries, in queue order. R367. W: 512 records. Reset: empty (r). -/
  queue : List NbProg
  /-- infusers out of service. R379. W: 1,024 × 1. Reset: false (r). -/
  down : List (Nat × Bool)
  /-- bank arbitration state. R371. W: 1,024 records. Reset: idle (DC 3). -/
  banks : List (Nat × BankSt)
  /-- HBM training has passed. R451. W: 1. Reset: false (r). -/
  trained : Bool
  /-- the interface failed and every word reads poisoned, but words rewritten since. R435. W: 1. Reset: false (r). -/
  poisoned : Bool
  clean : List (Nat × Bool)
deriving DecidableEq, Repr, Inhabited

/-! ## Dies -/

/-- Die-to-die link state, one end (R337, R338). -/
structure D2d where
  txSeq : Nat
  rxNext : Nat
  /-- unacknowledged data flits in order. R337. W: 2,048 flits. Reset: none (r). -/
  replay : List (Nat × List Byte)
  /-- flits to send. R337. W: list. Reset: none (r). -/
  out : List Flit
  /-- payloads delivered. R337. W: list. Reset: none (model). -/
  delivered : List (List Byte)
  /-- lane groups in use, bit g. R338. W: 4. Reset: 0xF (DC 4). -/
  groups : Nat
  /-- failed replays of the oldest unacknowledged flit in a row; the link is lost; a nack for the next flit is out. R337, R338. W: 5; 1; 1. Reset: 0 (r). -/
  fails : Nat
  lost : Bool
  nacked : Bool
  /-- the flit that the other end last asked for; payloads that wait for a place in the replay buffer. R337. W: 12; list. Reset: none (r). -/
  asked : Option Nat
  waiting : List (List Byte)
  /-- the last good data flit that came while the nack is out. R337. W: 12. Reset: none (model). -/
  passed : Option Nat
deriving DecidableEq, Repr, Inhabited

/-- An error-log entry (R433). -/
structure ErrEnt where
  addr : Nat
  syndrome : Nat
  ctx : Nat
  array : Nat
  flags : Nat
  unit : Nat
deriving DecidableEq, Repr, Inhabited

/-- A compute die: its registers, its manager and its link (R62, R380, R399, R430, R433, R436, R438, R455). -/
structure Die where
  /-- `DIE_SWAP_CTL`. R62. W: 64. Reset: 4096 (r). -/
  swapCtl : DWord
  /-- `DIE_CTXF_POOL`. R62. W: 64. Reset: 0 (r). -/
  ctxfPool : DWord
  /-- `DIE_NBQ_CTL0`, `1`. R380. W: 2 × 64. Reset: 0x108 (r). -/
  nbqCtl0 : DWord
  nbqCtl1 : DWord
  /-- EXCL of `DIE_NBQ_STAT0`, `1`. R380. W: 2 × 32. Reset: 0 (r). -/
  excl0 : BitVec 32
  excl1 : BitVec 32
  /-- `DIE_FAULT_CTL`. R434. W: 64. Reset: 1 (r). -/
  faultCtl : DWord
  /-- `DIE_ERRSEL` (INDEX and ARRAY). R434. W: 64. Reset: 0 (r). -/
  errSel : DWord
  /-- `DIE_ERRINJ`. R434. W: 64. Reset: 0 (r). -/
  errInj : DWord
  /-- `DIE_CLK`: CEIL and CUR. R455. W: 8 + 8. Reset: 34, 17 (r). -/
  ceil : Nat
  cur : Nat
  /-- `DIE_WDOG`: RESETS and KICK. R436. W: 16 + 32. Reset: 0 (r). -/
  wdogResets : Nat
  wdogKick : BitVec 32
  /-- `DIE_CKPT_BASE`. R438. W: 64. Reset: 0 (r). -/
  ckptBase : DWord
  /-- error logs, key array id + 256 · unit, newest first, and their overflow counts. R433. W: 16 × 128 each. Reset: empty (r). -/
  logs : List (Nat × List ErrEnt)
  ovf : List (Nat × Nat)
  /-- fault records waiting for the manager, with their launch and, for a memory actor, its index. R14, R430. W: list. Reset: none (r). -/
  faults : List (TrapRec × Nat × Option Nat)
  /-- tiles of the die with a fatal fault that the manager has yet to take. R421, R431. W: list. Reset: none (r). -/
  fatal : List Nat
  /-- poisoned words of the manager's SRAM. R458. W: bits. Reset: false (DC 3). -/
  sram : List (Nat × Bool)
  /-- the firmware checkpoint in HBM: the manager's copy of the holdings after the last completed round. R436. W: record. Reset: nothing held (DC 3). -/
  ckpt : Holdings
  /-- section log: rollbacks counted by code. R276. W: list. Reset: 0 (r). -/
  rollbacks : List (Nat × Nat)
  /-- the manager runs (not between a watchdog reset and its rejoin). R436, R444. W: 1. Reset: false (r). -/
  managed : Bool
  /-- copy of the module's holdings as the last round left it. R399. W: record. Reset: nothing held (r). -/
  holdings : Holdings
  link : D2d
deriving DecidableEq, Repr, Inhabited

/-! ## Links, transport and the Orrery -/

/-- A frame in a copy engine's hands: sent or to be sent (R346, R354). -/
structure TxFrame where
  frame : Frame
  /-- it is out, and not marked to go again -/
  sent : Bool
  /-- it has been sent at least once, so that an acknowledgement may be its own. R346. W: 1. Reset: false (r). -/
  once : Bool
  /-- the commands it belongs to: tile, slot, ticket (of a commit 2^31 plus its section's serial); none for launch traffic -/
  cmds : List (Nat × Nat × Nat)
  launch : Option Nat
  /-- it has passed the delivery limit. R346. W: 1. Reset: 0 (r). -/
  expired : Bool
deriving DecidableEq, Repr, Inhabited

/-- A flow as its source keeps it, key destination·4 + class (R345, R346). -/
structure TxFlow where
  next : Nat
  /-- unacknowledged frames, oldest first, of which at most the first 4,096 are sent: the engine's journal. R345, R354. W: records. Reset: none (r). -/
  unacked : List TxFrame
deriving DecidableEq, Repr, Inhabited

/-- A flow as its receiver keeps it, key source·4 + class (R345). -/
structure RxFlow where
  expect : Nat
  window : List Frame
  /-- delivered frames that are not yet to be acknowledged, oldest first: the first part of a row frame that is not whole, or a refused
  operation whose section's source has not acknowledged the refusal, with its section key plus one. R355, R356. W: list. Reset: none (r). -/
  holds : List (Nat × Nat)
deriving DecidableEq, Repr, Inhabited

/-- A staged operation: kind 0 put, 1 reduction, 2 signal; the reduction op; context, tensor, offset; bytes; the addresses and
lengths that its translation gave (R348, R355). -/
structure StageOp where
  kind : Nat
  op : Nat
  ctx : Nat
  tensor : Nat
  off : Nat
  data : List Byte
  parts : List (Nat × Nat)
deriving DecidableEq, Repr, Inhabited

/-- A staging held at this package as a target (R355): its operations in issue order. -/
structure Staging where
  src : Nat
  key : Nat
  ops : List StageOp
  /-- an operation was refused; the section is to fail with code 5 -/
  refused : Bool
deriving DecidableEq, Repr, Inhabited

/-- A row frame or a row of cells being gathered (R356, R357). -/
structure Gather where
  src : Nat
  serial : Nat
  parts : List (Nat × List (Byte × Bool))
  word : DWord
deriving DecidableEq, Repr, Inhabited

/-- A row frame being filled by an `xc.frame` (R356). -/
structure RowFill where
  dstPkg : Nat
  dstDie : Nat
  cls : Nat
  rowBytes : Nat
  serial : Nat
  rows : List (DWord × List (Byte × Bool))
  cmds : List (Nat × Nat × Nat)
deriving DecidableEq, Repr, Inhabited

/-- Keys of a pair, one direction (R349 to R351). -/
structure PairKey where
  epoch : Nat
  key : BitVec 256
  old : Option (BitVec 256)
  /-- flits used in the epoch, and the pair's next sequence. R349. W: 48 + 47. Reset: 0 (r). -/
  used : Nat
  txSeq : Nat
  rxNext : Nat
  /-- unacknowledged flits as sent, with their phase. R350. W: 2,048 flits. Reset: none (r). -/
  replay : List OptFlit
  /-- plaintexts delivered that have not made a whole frame yet, each byte with its poison. R347, R350. W: list. Reset: none (model). -/
  delivered : List (List (Byte × Bool))
  /-- flits put on the wire, replays among them; a flit that failed has been asked for; the retirement report has gone. R350, R351. W: list; 1; 1. Reset: none (model). -/
  out : List OptFlit
  nacked : Bool
  reported : Bool
deriving DecidableEq, Repr, Inhabited

/-- The module's transport: flows, stagings, gathers, relay, keys, ports (R339 to R357). -/
structure Net where
  /-- `ORR_STAT` fields PORTS, SLOT, LOCK. R342. W: 8 + 6 + 1. Reset: 0 (r). -/
  ports : BitVec 8
  slot : Nat
  lock : Bool
  /-- ports that have retrained and wait for a calendar cycle's start. R342. W: 8. Reset: 0 (model). -/
  retrained : BitVec 8
  /-- `ORR_LOSS`. R342. W: 8. Reset: 0 (r). -/
  loss : BitVec 8
  /-- `ORR_RELAY`. R342. W: 64. Reset: 2 (r). -/
  relay : DWord
  /-- `PKG_XC_PATH`. R342. W: 64. Reset: 0 (r). -/
  xcPath : DWord
  /-- `PKG_XC_DLIM`. R342. W: 64. Reset: 2000 (r). -/
  xcDlim : DWord
  tx : List (Nat × TxFlow)
  rx : List (Nat × RxFlow)
  /-- frames handed to the optical or electrical ports, in order. R341. W: list. Reset: none (model). -/
  sent : List Frame
  /-- relayed frames held for their destination. R344. W: 1 GiB. Reset: none (r). -/
  relayed : List Frame
  /-- relay credit granted to this package by each peer, in 8 KiB units. R344. W: 64 × 16. Reset: 0 (r). -/
  credit : List (Nat × Nat)
  /-- relay credit granted by this package to each source and not yet used. R344. W: 64 × 16. Reset: 0 (r). -/
  granted : List (Nat × Nat)
  /-- received frames dropped and counted. R347, R352. W: 64. Reset: 0 (r). -/
  drops : Nat
  /-- rows counted as errors and duplicates dropped. R279. W: 64 + 64. Reset: 0 (r). -/
  rowErrors : Nat
  rowDups : Nat
  stagings : List Staging
  /-- names of committed sections by source package and key, with their launch's checkpoint. R277. W: list. Reset: none (r). -/
  committed : List (Nat × Nat)
  gathers : List Gather
  fills : List RowFill
  keys : List (Nat × PairKey)
  /-- electrical ports in service, paused classes (port·4 + class); bit k + 4 is the second half of a port k that runs as two. R352. W: 8 + 32. Reset: 0xF (DC 4), 0. -/
  eports : BitVec 8
  paused : List (Nat × Bool)
  /-- next row-frame, cell-row and command serials. R348. W: 32 each. Reset: 0 (DC 4). -/
  serial : Nat
  /-- arc tokens and control frames of a launch that this package has not accepted yet, in order. R309, R311. W: list. Reset: none (r). -/
  early : List Frame
  /-- acknowledgements that wait for a port, at most one of a flow. R341, R346. W: list. Reset: none (r). -/
  acks : List Frame
  /-- what has left on the electrical ports: the port and the bytes. R347, R352. W: list. Reset: none (model). -/
  wire : List (Nat × List Byte)
deriving DecidableEq, Repr, Inhabited

/-! ## The host interface and the package -/

/-- The host and package registers (R49, R66, R442 to R457). -/
structure HostRegs where
  /-- `HOST_WINn`, key link·16 + n. R446. W: 32 × 64. Reset: 0 (r). -/
  win : List (Nat × DWord)
  /-- `HOST_JBASE`. R447. W: 64. Reset: 0 (r). -/
  jbase : DWord
  /-- `HOST_JDB`. R447. W: 64. Reset: 0 (r). -/
  jdb : DWord
  /-- `HOST_FBASE`. R450. W: 64. Reset: 0 (r). -/
  fbase : DWord
  /-- `HOST_FTAIL`. R450. W: 64. Reset: 0 (r). -/
  ftail : DWord
  /-- `HOST_FHEAD`. R450. W: 64. Reset: 0 (r). -/
  fhead : DWord
  /-- `HOST_ERR`. R448. W: 4. Reset: 0 (r). -/
  err : BitVec 4
  /-- `HOST_STAGE`: ERR and STAGE. R451. W: 8 + 4. Reset: 0 (r). -/
  stageErr : Nat
  stage : Nat
  /-- `HOST_ATTN0`–`3`. R454. W: 4 × 64. Reset: 0 (r). -/
  attn : List (Nat × DWord)
  /-- `HOST_ATTC`. R454. W: 1. Reset: 0 (r). -/
  attc : Bool
  /-- `HOST_ATTR`, the report area. R454. W: 4,096 × 8. Reset: 0 (r). -/
  attr : List Byte
  /-- `PKG_CTX_TABLE`. R49. W: 64. Reset: 0 (r). -/
  ctxTable : DWord
  /-- `PKG_INVQ_BASE`, `TAIL`, `DONE`. R68. W: 64 + 8 + 64. Reset: 0 (r). -/
  invqBase : DWord
  invqTail : BitVec 8
  invqDone : DWord
  /-- `PKG_PLX_REF`. R442. W: 64. Reset: 0 (r). -/
  plxRef : DWord
  /-- `PKG_PLX_HASH`. R443. W: 64. Reset: 0 (r). -/
  plxHash : DWord
  /-- records waiting for the fault ring. R450. W: list. Reset: none (r). -/
  ringWait : List (List Byte)
  /-- MSI-X raised: vector numbers, newest first. R450. W: list. Reset: none (r). -/
  msix : List Nat
  /-- what the last host window access returned. R446. W: list. Reset: none (model). -/
  winData : Option (List Byte)
  /-- what the last register read returned. R457. W: 64. Reset: 0 (model). -/
  regData : DWord
  /-- uncorrectable error status of Advanced Error Reporting, by link. R445. W: 2 × 32. Reset: 0 (DC 143). -/
  aer : List (Nat × Word)
  /-- SHA-512 of each image of package flash, in load order, as stage 1 measured them. R454. W: 16 × 512. Reset: none (r). -/
  measured : List (BitVec 512)
  /-- the seed of the device identity, which never leaves the root of trust. R454. W: 256. Reset: 0 (DC 145). -/
  idSeed : BitVec 256
  /-- public exponent and modulus of the identity key. R454. W: 32 + 4,096. Reset: 0 (DC 145). -/
  idExp : Nat
  idMod : Nat
deriving DecidableEq, Repr, Inhabited

/-- A validation round in progress (R399). -/
structure Round where
  seq : Nat
  /-- verdicts received: die, status, field code -/
  verdicts : List (Nat × Nat × Nat)
  /-- launches released in it -/
  released : List Nat
  replacement : Bool
  /-- the active die mask and the quarantined tiles that it carries. R399. W: 24; 9,216 × 1. Reset: none (r). -/
  dies : BitVec 24
  out : List (Nat × Bool)
deriving DecidableEq, Repr, Inhabited

/-- The package: launches, containers, groups, futures, masks, bring-up (R45, R399, R410, R451). -/
structure Pkg where
  /-- package number, from the configuration record. R342. W: 6. Reset: 0 (DC 4). -/
  num : Nat
  /-- clock ceiling of the configuration record. R453. W: 8. Reset: 34 (DC 4). -/
  ceiling : Nat
  /-- tiles known bad from test. R453. W: list. Reset: none (DC 4). -/
  badTiles : List Nat
  /-- minimum firmware version of the configuration record. R453. W: Nat. Reset: 0 (DC 4). -/
  minVersion : Nat
  /-- active die mask. R399. W: 24. Reset: 0 (DC 4). -/
  dieMask : BitVec 24
  /-- quarantined tiles. R399. W: 9,216 × 1. Reset: none (r). -/
  quarantined : List (Nat × Bool)
  /-- tiles to return at the next round. R435. W: list. Reset: none (r). -/
  returning : List Nat
  /-- resident containers by handle, and the next handle. R45. W: list. Reset: none (r). -/
  containers : List (Nat × List NofSection)
  nextHandle : Nat
  /-- answer to the last load or unload: load status, section index, byte offset, handle. R45, R46. W: record. Reset: 0 (model). -/
  loadAns : Nat × Nat × Nat × Nat
  launches : List (Nat × Option Launch)
  launchExts : List (Nat × LaunchExt)
  /-- next journal sequence to read, and entries whose completion bit is set. R395, R444. W: 64; list. Reset: 0 (r). -/
  jnext : Nat
  /-- tails that doorbell writes exposed, in order. R315, R448. W: list. Reset: none (r). -/
  doorbells : List Nat
  completed : List (Nat × Bool)
  /-- the second copy of those bits, in the HBM of another die. R444. W: list. Reset: 0 (r). -/
  completed2 : List (Nat × Bool)
  round : Option Round
  /-- launches released since the previous round. R399. W: list. Reset: none (r). -/
  released : List Nat
  /-- launches waiting for a re-placement round. R415. W: list. Reset: none (r). -/
  replaceQ : List Nat
  /-- module group table. R410. W: 256 records. Reset: free (r). -/
  groups : List (Nat × Option Grp)
  /-- future tables, key cluster·4096 + index. R254. W: 384 × 4,096 records. Reset: EMPTY, generation 1 (r). -/
  futures : List (Nat × Fut)
  /-- poisoned entries of the future tables. R458. W: 384 × 4,096 × 1. Reset: false (DC 3). -/
  futPoison : List (Nat × Bool)
  /-- continuation nodes in use, by cluster. R254. W: 384 × 14. Reset: 0 (r). -/
  nodes : List (Nat × Nat)
  /-- cached descriptors, key context·2^16 + tensor. R57, R67. W: lists. Reset: none (r). -/
  descCache : List (Nat × List Byte)
  /-- cached present page entries, key (context·2^16 + tensor)·2^32 + page. R57, R67. W: lists. Reset: none (r). -/
  pteCache : List (Nat × DWord)
  /-- signature or stage failure stopped bring-up. R451. W: 1. Reset: false (r). -/
  halted : Bool
deriving DecidableEq, Repr, Inhabited

/-- The module (R1 to R461). -/
structure State where
  /-- scratchpads, module HBM and host memory by byte address of the model: scratchpad 2^56 + tile·2^21 + offset,
  HBM its frame address, host link k 2^60 + k·2^52 + address. R48, R55, R446. W: bytes. Reset: 0 (DC 2). -/
  mem : List (Nat × Byte)
  /-- poisoned protection words, by the address of their first byte. R458. W: bits. Reset: false (DC 2). -/
  poison : List (Nat × Bool)
  /-- protection words in which an injection has flipped one bit, which every read corrects. R434. W: bits. Reset: false (DC 2). -/
  flips : List (Nat × Bool)
  /-- writes not yet performed for every observer, oldest first: each byte's coherence order. R384. W: list. Reset: none (r). -/
  writes : List PWrite
  /-- tiles by number (`TILE_ID` bits [15:2]). R6. W: 9,216 records. Reset: Tile.reset (r). -/
  tiles : List (Nat × Tile)
  /-- messages in flight between window ends, by the window's tile and key (winNo), oldest first. R328. W: lists. Reset: none (r). -/
  msgs : List (Nat × List WinMsg)
  /-- dies. R6. W: 24 records. Reset: Die.reset (r). -/
  dies : List (Nat × Die)
  /-- stacks. R55. W: 48 records. Reset: Stack.reset (r). -/
  hbm : List (Nat × Stack)
  pkg : Pkg
  net : Net
  regs : HostRegs
  /-- package time in nanoseconds (`time`). R198. W: 64. Reset: 0 (DC 1). -/
  time : Nat
  /-- order stamps handed out, to READY tasks and to writes. R256, R407. W: 64. Reset: 0 (model). -/
  stamp : Nat
  /-- free values drawn so far. W: Nat. Reset: 0 (DC 5, model). -/
  draws : Nat
  /-- unit steps that move before the focused core: the order of the agents' steps, as plain data. W: list. Reset: none (DC 6, model). -/
  agenda : List Instr
  /-- the tile and core whose instruction the step runs when the agenda is empty. W: pair. Reset: (0, 0) (DC 6, model). -/
  focus : Nat × Nat
deriving DecidableEq, Repr, Inhabited

/-! ## Stops -/

/-- Why the machine stops with a fault. No instruction of the table does: every exception of the manual is taken. -/
inductive Fault where
  /-- the present step reached a state outside the module's laws; nobody raises it (safe) -/
  | stuck
deriving DecidableEq, Repr, Inhabited

/-- Why a step has no meaning. -/
inductive Refusal where
  /-- an instruction that the model gives no meaning yet, by its mnemonic; raised by Dispatch.lean only (safe) -/
  | notModelled (mnemonic : String)
deriving DecidableEq, Repr, Inhabited

/-! ## Reset values -/

def CtlCsr.reset : CtlCsr := ⟨0, 0, [], ⟨0, 0, 0, 0⟩, 0⟩
def Core.reset : Core := ⟨[], 0, .off, false, 0, none, [], 0, [], [], [], 0, false, [], 0, 4, none⟩
def Plane.empty : Plane := ⟨[], [], [], [], [], [], 255⟩
def PortCfg.empty : PortCfg := ⟨false, 0, 0, false, 0, 0, 0, [], [], 0⟩
def Port.reset : Port := ⟨.idle, PortCfg.empty, [], 0, 0, 0, 0, false, none, none⟩
def LoopCtx.reset : LoopCtx := ⟨.unstarted, 0, 0, false, 0, true, false, false, 0, false⟩
def Region.reset : Region := ⟨0, List.replicate 4 LoopCtx.reset, false, false, false⟩
def Fabric.reset : Fabric :=
  ⟨Plane.empty, Plane.empty, none, false, false, [], [], [], [], [], [], [], [], [], [], [], [], []⟩
def Mx.reset : Mx := ⟨false, 0, 0, 0, 0, none, none, ⟨0, 0, none⟩, 0, none⟩
def ProdCopy.zero : ProdCopy := ⟨0, 0, 0, 0, 0, 0⟩
def TagEntry.invalid : TagEntry := ⟨false, 0, 0⟩
def Binding.zero : Binding := ⟨0, 0, 0, 0, 0⟩
def TaskExt.zero : TaskExt :=
  ⟨SteepKeys.zero, [], 0, [], [], 0, 0, [], none, none, 0, [], 0, 0, 0, 0, 0, none, 0⟩
def Tile.reset : Tile :=
  ⟨Core.reset, Core.reset, Core.reset, CtlCsr.reset, Fabric.reset, Mx.reset, [], [], 0, none, [], [], [], [], [], [], [], [], [], [], 0⟩
/-- EMPTY with generation 1 (R254). -/
def Fut.reset : Fut := ⟨0, .empty, 1, [], 0⟩
def LaunchExt.zero : LaunchExt :=
  ⟨0, 0, 0, [], 0, none, [], [], [], [], [], [], [], [], [], none, [], [], [], [], 0, none, 0, none, [], [], [], [], [], []⟩
def Holdings.empty : Holdings := ⟨[], [], [], [], [], [], [], 0⟩
def ActorSt.zero : ActorSt := ⟨0, false, none⟩
def BankSt.idle : BankSt := ⟨false, 0, 0⟩
def Stack.reset : Stack := ⟨[], [], [], false, false, []⟩
def D2d.reset : D2d := ⟨0, 0, [], [], [], 15, 0, false, false, none, [], none⟩
def Die.reset : Die :=
  ⟨4096, 0, 0x108, 0x108, 0, 0, 1, 0, 0, 34, 17, 0, 0, 0, [], [], [], [], [], Holdings.empty, [], false, Holdings.empty, D2d.reset⟩
def Net.reset : Net :=
  ⟨0, 0, false, 0, 0, 2, 0, 2000, [], [], [], [], [], [], 0, 0, 0, [], [], [], [], [], 15, [], 0, [], [], []⟩
def HostRegs.reset : HostRegs :=
  ⟨[], 0, 0, 0, 0, 0, 0, 0, 0, [], false, [], 0, 0, 0, 0, 0, 0, [], [], none, 0, [], [], 0, 0, 0⟩
def Pkg.reset : Pkg :=
  ⟨0, 34, [], 0, 0, [], [], [], 1, (0, 0, 0, 0), [], [], 0, [], [], [], none, [], [], [], [], [], [], [], [], false⟩
def TxFlow.zero : TxFlow := ⟨0, []⟩
def RxFlow.zero : RxFlow := ⟨0, [], []⟩
def PairKey.zero : PairKey := ⟨0, 0, none, 0, 0, 0, [], [], [], false, false⟩

/-- The module right after power-on or a module reset: stage 0, every register at its reset value, nothing bound (R451). -/
def State.reset : State :=
  ⟨[], [], [], [], [], [], [], [], Pkg.reset, Net.reset, HostRegs.reset, 0, 0, 0, [], (0, 0)⟩

end Sys2Proof.Machine
end

