-- ==== Sys2Proof/Machine/Mem.lean ====
section
/-! DEFINITION. Machine/Mem.lean: bytes of memory, the writes on their way to their observers (R381 to R392), and the
protection words with their poison (R458). -/

namespace Sys2Proof.Machine

/-! ## Addresses of the model -/

/-- First address of a tile's scratchpad. -/
def spadBase (t : Nat) : Nat := 2 ^ 56 + t * 2 ^ 21
/-- Address of a byte of host memory behind a link. -/
def hostAddr (link a : Nat) : Nat := 2 ^ 60 + link * 2 ^ 52 + a
/-- The stack that holds an HBM address (R55). -/
def stackOf (a : Nat) : Nat := a / 2 ^ 36
/-- Width of the protection word at an address: 8 bytes of scratchpad, 32 of HBM, none of host memory (R458). -/
def protWidth (a : Nat) : Nat := if a < 2 ^ 56 then 32 else if a < 2 ^ 60 then 8 else 1

/-- The canonical form of memory: addresses strictly rising, no entry equal to the 0 an unlisted byte reads as. -/
def Memory.wf (m : List (Nat × Byte)) : Bool := mapWf 0 m

/-! ## Observers (R381, R383) -/

/-- Whether a pending write covers a byte. -/
def PWrite.covers (w : PWrite) (a : Nat) : Bool := w.addr ≤ a && a < w.addr + w.bytes.length

/-- Whether a pending write touches a range. -/
def PWrite.touches (w : PWrite) (a n : Nat) : Bool := w.addr < a + n && a < w.addr + w.bytes.length

/-- Whether an observer lies within a scope of a tile (R381). -/
def inScope (t code : Nat) : Obs → Bool
  | .tile t' _ =>
    if code = 0 then t' == t else if code = 1 then t' / 32 == t / 32 else if code = 2 then t' / 512 == t / 512 else true
  | .stack k => if code < 2 then false else if code = 2 then k / 2 == t / 512 else true
  | .engine _ => 3 ≤ code
  | .host _ => 3 ≤ code

/-- Whether an observer is a core, whose loads may have been performed before earlier ones of its program (R385). -/
def Obs.isCore : Obs → Bool
  | .tile _ u => decide (u < 3)
  | _ => false

/-- Whether a write that has come so far is performed with respect to an observer. -/
def Reach.has (r : Reach) (o : Obs) : Bool :=
  match r with
  | .one o' => o' == o
  | .scope t code => inScope t code o
  | .strong _ _ => false
  | .all => true

/-- Whether an observer's reads return a write that has come so far: a load of a core may have had its value fixed before the write was performed,
until a fence, an acquire or the write's own arrival lies between (R385; log entry 31). -/
def Reach.shows (r : Reach) (o : Obs) : Bool :=
  match r with
  | .scope t code => inScope t code o && !o.isCore
  | _ => r.has o

/-- Whether a pending write is performed with respect to an observer (R383). -/
def PWrite.performedFor (w : PWrite) (o : Obs) : Bool := w.writer == o || w.reach.any (fun r => r.has o)

/-- Whether an observer's reads return a pending write or a later one; its writer's always do (R384). -/
def PWrite.seenBy (w : PWrite) (o : Obs) : Bool := w.writer == o || w.reach.any (fun r => r.shows o)

/-- A strong store whose moment is to come and that reaches an observer of its scope (R387). -/
def Reach.struckBy : Reach → Reach → Bool
  | .strong t code, .one o => inScope t code o
  | .strong _ _, _ => true
  | _, _ => false

/-- The one moment of a strong store: it is performed within its scope (R387). -/
def Reach.moment : Reach → Reach
  | .strong t code => .scope t code
  | r => r

/-- A pending write comes further; a strong store that so reaches an observer of its scope has its moment there and then (R387). -/
def PWrite.reachTo (w : PWrite) (r : Reach) : PWrite :=
  { w with reach := r :: (if w.reach.any (fun x => x.struckBy r) then w.reach.map Reach.moment else w.reach) }

/-- The host link behind which an address lies. -/
def hostLink (a : Nat) : Option Nat := if a < 2 ^ 60 then none else some ((a - 2 ^ 60) / 2 ^ 52)

/-- Whether a write is performed for an observer only when an earlier one is: writes of one outbound port, in walk order (R391), and posted
writes to one link's host memory, in the order of a single requester (R446). -/
def PWrite.follows (w x : PWrite) : Bool :=
  (w.cls == 1 && x.cls == 1 && w.writer == x.writer) || ((hostLink w.addr).isSome && hostLink w.addr == hostLink x.addr)

/-- Widens the observers of each write that passes a test, and of those that must not come after one of them; the second result lists them. -/
def performList (p : PWrite → Bool) (r : Reach) : List PWrite → List PWrite × List PWrite
  | [] => ([], [])
  | w :: ws =>
    let y := performList p r ws
    if p w || y.2.any (fun v => v.follows w) then (w.reachTo r :: y.1, w :: y.2) else (w :: y.1, y.2)

/-- A pending write in two at an address inside it. Aligned SCALAR accesses are single-copy atomic and stay whole; on other paths only single
bytes are (R384). -/
def PWrite.cut (a : Nat) (w : PWrite) : List PWrite :=
  if w.cls = 0 ∨ a ≤ w.addr ∨ w.addr + w.bytes.length ≤ a then [w]
  else [{ w with bytes := w.bytes.take (a - w.addr) }, { w with addr := a, bytes := w.bytes.drop (a - w.addr) }]

/-- Pending writes are cut at the ends of some ranges, so that each lies inside or outside them. -/
def State.cutAt (s : State) (rs : List (Nat × Nat)) : State :=
  { s with writes := rs.foldl (fun ws r => (ws.flatMap (PWrite.cut r.1)).flatMap (PWrite.cut (r.1 + r.2))) s.writes }

/-- Whether a pending write has bytes in one of some ranges. -/
def PWrite.within (w : PWrite) (rs : List (Nat × Nat)) : Bool := rs.any (fun r => w.touches r.1 r.2)

/-- Strong stores that pass a test have their moment. -/
def State.strike (s : State) (p : PWrite → Bool) : State :=
  { s with writes := s.writes.map (fun w => if p w then { w with reach := w.reach.map Reach.moment } else w) }

/-- Whether a pending write is performed with respect to every observer. -/
def PWrite.global (w : PWrite) : Bool := w.reach.contains .all

/-! ## Reading -/

/-- The newest write of a byte, in coherence order, among the pending writes that pass a test; else what stands below. -/
def newest (p : PWrite → Bool) (below : Byte) (ws : List PWrite) (a : Nat) : Byte :=
  ws.foldl (fun b w => if p w && w.covers a then w.bytes.getD (a - w.addr) 0 else b) below

/-- One byte as an observer reads it (R383, R384). -/
def State.byteAt (s : State) (o : Obs) (a : Nat) : Byte :=
  newest (fun w => w.seenBy o) (mapGet 0 s.mem a) s.writes a

/-- One byte at its home: the last write of the coherence order (R384). -/
def State.homeByte (s : State) (a : Nat) : Byte :=
  newest (fun _ => true) (mapGet 0 s.mem a) s.writes a

/-- `n` bytes as an observer reads them. -/
def State.bytesAt (s : State) (o : Obs) (a n : Nat) : List Byte := (List.range n).map (fun i => s.byteAt o (a + i))

/-- `n` bytes at their home. -/
def State.homeBytes (s : State) (a n : Nat) : List Byte := (List.range n).map (fun i => s.homeByte (a + i))

/-- A little-endian number of `n` bytes at its home. -/
def State.homeNat (s : State) (a n : Nat) : Nat := leNat (s.homeBytes a n)

/-! ## Poison (R432, R458) -/

/-- First byte of the protection word that holds a byte. -/
def protWord (a : Nat) : Nat := a / protWidth a * protWidth a

/-- Whether the protection word of a byte is poisoned; a failed stack poisons every word not rewritten since, and the
scratchpad of a quarantined tile reads as poison (R435). -/
def State.poisonAt (s : State) (a : Nat) : Bool :=
  let w := protWord a
  mapGet false s.poison w ||
    (decide (2 ^ 56 ≤ a) && decide (a < 2 ^ 60) && mapGet false s.pkg.quarantined ((a - 2 ^ 56) / 2 ^ 21)) ||
    (decide (a < 3 * 2 ^ 40) &&
      (let k := mapGet Stack.reset s.hbm (stackOf a); k.poisoned && !(mapGet false k.clean w)))

/-- Whether any byte of a range lies in a poisoned word (R458). -/
def State.poisonIn (s : State) (a n : Nat) : Bool := (List.range n).any (fun i => s.poisonAt (a + i))

/-- The protection words that a range touches, by first byte. -/
def protWords (a n : Nat) : List Nat :=
  if n = 0 then [] else
    (List.range ((a + n - 1) / protWidth a + 1 - a / protWidth a)).map (fun i => (a / protWidth a + i) * protWidth a)

/-- Sets or clears the poison of one protection word. -/
def State.setPoison (s : State) (w : Nat) (v : Bool) : State :=
  let s1 := { s with poison := mapSet false s.poison w v }
  if decide (w < 3 * 2 ^ 40) && !v then
    let k := mapGet Stack.reset s.hbm (stackOf w)
    if k.poisoned then
      { s1 with hbm := mapSet Stack.reset s1.hbm (stackOf w) { k with clean := mapSet false k.clean w true } }
    else s1
  else s1

/-- What a write does to the poison of its protection words: a whole word takes the write's own poison; a part of a word
leaves an uncorrectable word poisoned (R458). -/
def State.mergePoison (s : State) (a n : Nat) (v : Bool) : State :=
  (protWords a n).foldl
    (fun s w =>
      let whole := decide (a ≤ w) && decide (w + protWidth w ≤ a + n)
      s.setPoison w (if whole then v else v || s.poisonAt w))
    s

/-! ## Writing -/

/-- Puts bytes into memory in place. -/
def putBytes (m : List (Nat × Byte)) : Nat → List Byte → List (Nat × Byte)
  | _, [] => m
  | a, b :: r => putBytes (mapSet 0 m a b) (a + 1) r

/-- Retires the oldest pending writes while they are performed with respect to every observer. -/
def retireWrites : List (Nat × Byte) → List PWrite → List (Nat × Byte) × List PWrite
  | m, [] => (m, [])
  | m, w :: r => if w.global then retireWrites (putBytes m w.addr w.bytes) r else (m, w :: r)

/-- Retires what can be retired. -/
def State.settle (s : State) : State :=
  let r := retireWrites s.mem s.writes
  { s with mem := r.1, writes := r.2 }

/-! ## Error logs and injection (R433, R434) -/

/-- Key of the log of a unit of an array: each keeps its own (R433). -/
def logKey (array unit : Nat) : Nat := array + 256 * unit

/-- Adds an entry to the log of an array's unit, newest first, dropping the oldest of a full log. -/
def State.logError (s : State) (d : Nat) (e : ErrEnt) : State :=
  let x := mapGet Die.reset s.dies d
  let key := logKey e.array e.unit
  let l := e :: mapGet [] x.logs key
  let y : Die := { x with
    logs := mapSet [] x.logs key (l.take 16)
    ovf := if l.length ≤ 16 then x.ovf else mapSet 0 x.ovf key (min (mapGet 0 x.ovf key + 1) 65535) }
  { s with dies := mapSet Die.reset s.dies d y }

/-- An error at an address of an array of a die is logged; its syndrome is not fixed (R433). -/
def State.logAt (s : State) (d array unit ctx a flags : Nat) : State :=
  ({ s with draws := s.draws + 1 } : State).logError d ⟨a, Config.freeNat s.draws % 2 ^ 16, ctx, array, flags, unit⟩

/-- No context, in an entry of an error log. -/
def noCtx : Nat := 0xFFFF

/-- Where a model address lies for error injection: die, array id, address within the array, unit. A die's scratchpads and its
two stacks count as one array each, in order (log entry 9). -/
def arrayPlace (a : Nat) : Option (Nat × Nat × Nat × Nat) :=
  if a < 3 * 2 ^ 40 then some (a / 2 ^ 37, 0x08, a % 2 ^ 37, a / 2 ^ 36)
  else if 2 ^ 56 ≤ a ∧ a < 2 ^ 60 then some ((a - 2 ^ 56) / 2 ^ 30, 0x01, (a - 2 ^ 56) % 2 ^ 30, (a - 2 ^ 56) / 2 ^ 21)
  else none

/-- `DIE_ERRINJ` with its injection used: FLIPS 0 (R434). -/
def injUsed (v : DWord) : DWord := v &&& ~~~(0x00C0000000000000 : DWord)

/-- An armed injection whose address a write to an array of a die reaches: the number of flips and the address (R434). -/
def armedInj (s : State) (d array off n : Nat) : Option (Nat × Nat) :=
  let v := (mapGet Die.reset s.dies d).errInj.toNat
  let k := v / 2 ^ 54 % 4
  let a := v % 2 ^ 48
  if (k = 1 ∨ k = 2) ∧ v / 2 ^ 56 = array ∧ off ≤ a ∧ a < off + n then some (k, a) else none

/-- The injection of a die is used, and the error logged as injected (R433, R434). -/
def useInj (s : State) (d array flips a unit ctx : Nat) : State :=
  let x := mapGet Die.reset s.dies d
  let y : Die := { x with errInj := injUsed x.errInj }
  ({ s with dies := mapSet Die.reset s.dies d y } : State).logAt d array unit ctx a (if flips = 1 then 5 else 6)

/-- A write of `n` addresses of an array of a die from `off` on, for a context: an armed injection of one of them is used. The address that two flips
leave uncorrectable, if any (R434). -/
def strike (s : State) (d array unit ctx off n : Nat) : Option Nat × State :=
  match armedInj s d array off n with
  | none => (none, s)
  | some (k, a) => (if k = 2 then some a else none, useInj s d array k a unit ctx)

/-- What an armed injection does to a write of memory: one flip stays in the word, to be corrected by each read, and two poison it (R434). -/
def State.inject (s : State) (a n ctx : Nat) : State :=
  match arrayPlace a with
  | none => s
  | some (d, array, off, unit) =>
    match armedInj s d array off n with
    | none => s
    | some (k, x) =>
      let s1 := useInj s d array k x unit ctx
      let w := protWord (a + (x - off))
      if k = 2 then s1.setPoison w true else { s1 with flips := mapSet false s1.flips w true }

/-- A write takes away the flips of its words. -/
def State.clearFlips (s : State) (a n : Nat) : State := { s with flips := (protWords a n).foldl (fun m w => mapSet false m w false) s.flips }

/-- A write of a word in part whose other bytes are uncorrectable logs the error (R229, R432, R433). -/
def State.logMerge (s : State) (a n ctx : Nat) : State :=
  (protWords a n).foldl (fun s w =>
    if (decide (a ≤ w) && decide (w + protWidth w ≤ a + n)) || !s.poisonAt w then s
    else match arrayPlace w with
      | none => s
      | some (d, array, off, unit) => s.logAt d array unit ctx off 2) s

/-- A pending plain store of another core that nobody has seen yet: which of the two comes first at the home is not fixed (R384, R385). -/
def PWrite.unseen (x w : PWrite) : Bool :=
  x.reach.isEmpty && w.reach.isEmpty && x.cls == 0 && w.cls == 0 && x.writer.isCore && w.writer.isCore && x.writer != w.writer

/-- The coherence order with a new write (R384): it comes last, but for a plain store, which may come before the newest unseen plain stores
of other cores to its bytes: before how many is free (log entry 31). -/
def placeWrite (s : State) (w : PWrite) : State :=
  let near (x : PWrite) : Bool := x.touches w.addr w.bytes.length
  let tail := s.writes.reverse.takeWhile (fun x => !near x || x.unseen w)
  if tail.any near then
    let n := s.writes.length - Config.freeNat s.draws % (tail.length + 1)
    { s with writes := s.writes.take n ++ w :: s.writes.drop n, draws := s.draws + 1 }
  else { s with writes := s.writes ++ [w] }

/-- The task for which a write is made. -/
def writeTask (s : State) (w : PWrite) : Option Task := w.task.bind (fun k => mapGet none (mapGet Tile.reset s.tiles k.1).tasks k.2)

/-- The launch of the task for which a write is made. -/
def writeLaunch (s : State) (w : PWrite) : Option Nat := match w.launch with | none => (writeTask s w).map (·.launch) | q => q

/-- The context for which a write is made, as an error log has it. -/
def writeCtx (s : State) (w : PWrite) : Nat := ((writeTask s w).map (·.ctx)).getD noCtx

/-- A write enters the coherence order of its bytes (R384); `poison`: its data are poisoned (R229). -/
def State.addWrite (s : State) (w : PWrite) (poison : Bool) : State :=
  if w.bytes.isEmpty then s
  else
    let n := w.bytes.length
    let s1 := ((s.logMerge w.addr n (writeCtx s w)).clearFlips w.addr n).mergePoison w.addr n poison
    (({ placeWrite s1 { w with seq := s1.stamp, launch := writeLaunch s w } with stamp := s1.stamp + 1 } : State).settle).inject w.addr n (writeCtx s w)

/-- Writes bytes with their poison: as one write, or, where only some are poisoned, by protection words (R432, R458). -/
def State.addData (s : State) (w : PWrite) (bs : List (Byte × Bool)) : State :=
  if bs.all (fun b => b.2 == (bs.headD (0, false)).2) then s.addWrite { w with bytes := bs.map (·.1) } (bs.headD (0, false)).2
  else (protWords w.addr bs.length).foldl (fun s a =>
    let lo := max a w.addr
    let part := (bs.drop (lo - w.addr)).take (a + protWidth a - lo)
    s.addWrite { w with addr := lo, bytes := part.map (·.1) } (part.any (·.2))) s

/-- Some bytes as an observer reads them, each with its poison. -/
def State.dataAt (s : State) (o : Obs) (a n : Nat) : List (Byte × Bool) :=
  (List.range n).map (fun i => (s.byteAt o (a + i), s.poisonAt (a + i)))

/-- A write of a unit or of the device itself that is performed with respect to every observer at once. -/
def State.put (s : State) (a : Nat) (bs : List Byte) (poison : Bool := false) : State :=
  s.addWrite ⟨a, bs, .engine 0, 5, none, 0, true, [.all], [], 0, none, []⟩ poison

/-- Widens the observers of every pending write that passes a test, and of those that must not come after one of them, then retires. -/
def State.perform (s : State) (p : PWrite → Bool) (r : Reach) : State := { s with writes := (performList p r s.writes).1 }.settle

/-- Marks the completion of the writes of one operation as seen by the task (R270). -/
def State.markSeen (s : State) (task : Nat × Nat) (cls : Nat) (p : Nat → Bool) : State :=
  { s with writes := s.writes.map (fun w => if w.task == some task && w.cls == cls && p w.op then { w with done := true } else w) }

end Sys2Proof.Machine
end

