-- ==== Sys2Proof/Machine/Xlate.lean ====
section
/-! DEFINITION. Machine/Xlate.lean: generic addresses, tensor descriptors, page tables and the translation of an access
(R47 to R59). -/

namespace Sys2Proof.Machine

/-- What a trap says before its source adds where it stands: cause, words 2 and 3, and whether it concerns a future
(R427, R428). -/
structure Trap where
  cause : Nat
  w2 : Nat
  w3 : Nat
  fut : Bool
deriving DecidableEq, Repr, Inhabited

/-! ## Cause codes (R428) -/

def cILLEGAL : Nat := 0x01
def cFETCHDATA : Nat := 0x02
def cCFGREJECT : Nat := 0x03
def cFMTTAG : Nat := 0x04
def cSCALETAG : Nat := 0x05
def cRATE : Nat := 0x06
def cWAITEXP : Nat := 0x07
def cAPERTURE : Nat := 0x08
def cNOTPRESENT : Nat := 0x09
def cPERMISSION : Nat := 0x0A
def cPOISON : Nat := 0x0B
def cGATED : Nat := 0x0C
def cDIGEST : Nat := 0x0D
def cBREAK : Nat := 0x0F
def cSTALE : Nat := 0x10
def cBOUNDARY : Nat := 0x11
def cALIGN : Nat := 0x12
def cRESOURCE : Nat := 0x13
def cXFAIL : Nat := 0x14

/-- Kinds of access, by the code of a `NOTPRESENT` record (R428). -/
inductive Acc where
  | read | write | atomic
deriving DecidableEq, Repr, Inhabited

def Acc.code : Acc → Nat
  | .read => 0 | .write => 1 | .atomic => 2
def Acc.writes : Acc → Bool
  | .read => false | _ => true
def Acc.reads : Acc → Bool
  | .write => false | _ => true

/-- Engine classes (R270). -/
def kSCALAR : Nat := 0
def kSTREAM : Nat := 1
def kTCOPY : Nat := 2
def kMATRIX : Nat := 3
def kINFUSER : Nat := 4
def kXCOPY : Nat := 5

def trapAperture (addr cls : Nat) (acc : Acc) : Trap := ⟨cAPERTURE, addr, cls + 256 * bit01 acc.writes, false⟩
def trapPermission (addr cls : Nat) (acc : Acc) (byDesc : Bool) : Trap :=
  ⟨cPERMISSION, addr, cls + 256 * bit01 acc.writes + 512 * bit01 byDesc, false⟩
def trapNotPresent (id ctx port : Nat) (acc : Acc) (malformed : Bool) (page : Nat) : Trap :=
  ⟨cNOTPRESENT, id + 2 ^ 16 * ctx + 2 ^ 28 * port + 2 ^ 32 * acc.code + 2 ^ 35 * bit01 malformed, page, false⟩

/-- The held access that a `NOTPRESENT` names (R60). -/
def Trap.hold (t : Trap) : Held := ⟨bitsOf t.w2 27 16, t.w2 % 2 ^ 16, t.w3, false, false⟩

/-! ## Descriptors (R49 to R52) -/

/-- A tensor descriptor (R50). -/
structure TDesc where
  id : Nat
  ctxField : Nat
  rank : Nat
  fmt : Nat
  layout : Nat
  pg : Nat
  attr : Nat
  p : Nat
  q : Nat
  exts : List Nat
  pages : Nat
  pt : Nat
  /-- every reserved byte and bit is 0 -/
  clean : Bool
deriving DecidableEq, Repr, Inhabited

def TDesc.rd (d : TDesc) : Bool := bitOf d.attr 0
def TDesc.wr (d : TDesc) : Bool := bitOf d.attr 1
def TDesc.cc (d : TDesc) : Bool := bitOf d.attr 2
def TDesc.pin (d : TDesc) : Bool := bitOf d.attr 3
def TDesc.host (d : TDesc) : Bool := bitOf d.attr 4

/-- Page size in bytes by its code (R50). -/
def pageBytes (pg : Nat) : Nat := if pg = 0 then 2 ^ 16 else if pg = 1 then 2 ^ 21 else 2 ^ 25

/-- The fields of 64 descriptor bytes (R50). -/
def parseDesc (bs : List Byte) : TDesc :=
  let f := fieldAt bs
  { id := f 0 2, ctxField := f 2 2, rank := f 4 1, fmt := f 5 1, layout := f 6 1, pg := f 7 1, attr := f 8 1,
    p := f 0x0A 2, q := f 0x0C 2, exts := (List.range 5).map (fun i => f (0x10 + 4 * i) 4), pages := f 0x24 4, pt := f 0x28 8,
    clean := f 9 1 == 0 && f 0x0E 2 == 0 && f 0x30 16 == 0 }

/-- Extents up to the rank. -/
def TDesc.dims (d : TDesc) : List Nat := d.exts.take d.rank

/-- Element size in bytes. -/
def TDesc.z (d : TDesc) : Nat := fmtBytes d.fmt

/-- The span in bytes (R52). -/
def TDesc.span (d : TDesc) : Nat := if d.layout = 3 then 2 ^ 21 else d.z * d.dims.foldl (· * ·) 1

/-- Bank-striped limits of R15 and R52. -/
def stripedOk (b s rowBytes rows : Nat) : Bool :=
  1 ≤ b && b ≤ 1024 && isPow2 s && 32 ≤ s && s ≤ 2048 && rowBytes ≤ s && ceilDiv rows b * s ≤ 2048

/-- The layout parameters of R52. -/
def TDesc.layoutOk (d : TDesc) : Bool :=
  let ext (i : Nat) := d.exts.getD i 0
  if d.layout = 0 || d.layout = 1 then d.p == 0 && d.q == 0
  else if d.layout = 2 then
    isPow2 d.p && d.p ≤ 256 && isPow2 d.q && d.q ≤ 256 && d.p * d.q * d.z ≤ 2 ^ 16 && 2 ≤ d.rank &&
      ext (d.rank - 2) % d.p == 0 && ext (d.rank - 1) % d.q == 0
  else d.rank == 2 && stripedOk d.p d.q (d.z * ext 1) (ext 0)

/-- Validity of the descriptor at an index of a context's table (R51): the context field is any of 0 to 4,095. -/
def TDesc.valid (d : TDesc) (id : Nat) : Bool :=
  bitOf d.attr 7 && d.clean && d.id == id && d.ctxField < 4096 && 1 ≤ d.rank && d.rank ≤ 5 && fmtValid d.fmt &&
    d.layout ≤ 3 && d.pg ≤ 2 && bitsOf d.attr 6 5 == 0 && d.dims.all (fun e => 1 ≤ e) &&
    (d.exts.drop d.rank).all (fun e => e == 0) && d.pt % 8 == 0 && d.pt < 2 ^ 52 && d.layoutOk && d.span ≤ 2 ^ 47 &&
    d.pages == ceilDiv d.span (pageBytes d.pg) && (!d.cc || (d.pin && d.pg == 1)) && !(d.cc && d.host)

/-- Address of a context's descriptor table and its count, where the context is enabled and valid (R49). The reserved bits of the
entry are not looked at (log entry 123). -/
def ctxEntry (s : State) (ctx : Nat) : Option (Nat × Nat) :=
  let r := s.regs.ctxTable.toNat
  let a := bitsOf r 51 12 * 2 ^ 12 + 16 * ctx
  let w := s.homeNat a 8
  if bitOf r 0 && bitOf w 0 then some (bitsOf w 51 12 * 2 ^ 12, s.homeNat (a + 8) 4) else none

/-- The bytes of a descriptor: a cached copy, else as they stand in memory (R57). -/
def descBytes (s : State) (ctx id : Nat) : List Byte :=
  match mapGet [] s.pkg.descCache (ctx * 2 ^ 16 + id) with
  | [] => match ctxEntry s ctx with
    | none => []
    | some (tbl, n) => if id < n then s.homeBytes (tbl + 64 * id) 64 else []
  | bs => bs

/-- The valid descriptor of a tensor in a context, if there is one (R51). -/
def descOf (s : State) (ctx id : Nat) : Option TDesc :=
  match descBytes s ctx id with
  | [] => none
  | bs => let d := parseDesc bs; if bitOf s.regs.ctxTable.toNat 0 && d.valid id then some d else none

/-- Linear index with the last coordinate varying fastest. -/
def linearRow : List Nat → List Nat → Nat
  | c :: cs, _ :: es => c * es.foldl (· * ·) 1 + linearRow cs es
  | _, _ => 0

/-- Layout-space offset of an element by its coordinates (R52). -/
def TDesc.offset (d : TDesc) (c : List Nat) : Nat :=
  let es := d.dims
  if d.layout = 0 then d.z * linearRow c es
  else if d.layout = 1 then d.z * linearRow c.reverse es.reverse
  else if d.layout = 2 then
    let i := c.getD (d.rank - 2) 0
    let j := c.getD (d.rank - 1) 0
    let ei := es.getD (d.rank - 2) 0
    let ej := es.getD (d.rank - 1) 0
    let outer := linearRow (c.take (d.rank - 2)) (es.take (d.rank - 2))
    d.z * (outer * (ei * ej) + ((i / d.p) * (ej / d.q) + j / d.q) * (d.p * d.q) + (i % d.p) * d.q + j % d.q)
  else 2048 * (c.getD 0 0 % d.p) + d.q * (c.getD 0 0 / d.p) + d.z * c.getD 1 0

/-! ## Page entries (R53, R54) -/

/-- Whether a present entry is malformed (R54). -/
def pteMalformed (d : TDesc) (e : Nat) : Bool :=
  let tgt := bitsOf e 59 56
  let frame := bitsOf e 51 16 * 2 ^ 16
  3 ≤ tgt || frame % pageBytes d.pg != 0 || bitOf e 60 != d.cc || (tgt == 0) == d.host ||
    (tgt == 0 && decide (3 * 2 ^ 40 < frame + pageBytes d.pg))

/-- Key of a page entry in the cache. -/
def pteKey (ctx id page : Nat) : Nat := (ctx * 2 ^ 16 + id) * 2 ^ 32 + page

/-- The page entry in memory (R53). -/
def pteFresh (s : State) (d : TDesc) (page : Nat) : Nat := s.homeNat (d.pt + 8 * page) 8

/-- The page entry an access takes: a cached copy where there is one, else the one in memory (R57 step 4; log entry 124). -/
def pteOf (s : State) (ctx : Nat) (d : TDesc) (page : Nat) : Nat :=
  let c := (mapGet 0 s.pkg.pteCache (pteKey ctx d.id page)).toNat
  if c = 0 then pteFresh s d page else c

/-- Whether an entry permits an access (R57 step 6). -/
def pteAllows (e : Nat) (acc : Acc) : Bool := (!acc.reads || bitOf e 61) && (!acc.writes || bitOf e 62)
/-- Whether a descriptor permits an access (R57 step 6). -/
def TDesc.allows (d : TDesc) (acc : Acc) : Bool := (!acc.reads || d.rd) && (!acc.writes || d.wr)

/-- Model address of a byte of a page (R53, R57 step 7). -/
def frameByte (e off pgBytes : Nat) : Nat :=
  let a := bitsOf e 51 16 * 2 ^ 16 + off % pgBytes
  let tgt := bitsOf e 59 56
  if tgt = 0 then a else hostAddr (tgt - 1) a

/-- A piece of an access after translation. -/
structure Part where
  addr : Nat
  len : Nat
deriving DecidableEq, Repr, Inhabited

/-- The outcome of translating an access: its parts or a trap, and the page entries that are cached on the way. -/
structure XOut where
  res : Except Trap (List Part)
  desc : Option (Nat × List Byte)
  ptes : List (Nat × DWord)

/-- Translates one part within one page (R57 steps 4 to 7): its part or a trap, with the entry that is cached. -/
def xlatePart (s : State) (ctx : Nat) (d : TDesc) (gaddr off n : Nat) (acc : Acc) (cls port : Nat) :
    Except Trap Part × List (Nat × DWord) :=
  let ps := pageBytes d.pg
  let page := off / ps
  let e := pteOf s ctx d page
  let bad (e : Nat) : Option Trap :=
    if !bitOf e 63 then some (trapNotPresent d.id ctx port acc false page)
    else if pteMalformed d e then some (trapNotPresent d.id ctx port acc true page) else none
  let good (e : Nat) : Except Trap Part × List (Nat × DWord) :=
    (.ok ⟨frameByte e off ps, n⟩, [(pteKey ctx d.id page, BitVec.ofNat 64 e)])
  match bad e with
  | some t => (.error t, [])
  | none =>
    if d.allows acc && pteAllows e acc then good e
    else
      let e2 := pteFresh s d page
      match bad e2 with
      | some t => (.error t, [])
      | none =>
        if d.allows acc && pteAllows e2 acc then good e2
        else (.error (trapPermission gaddr cls acc (!d.allows acc)), [])

/-- Splits an access at page boundaries and translates the pieces in order (R57 step 3). -/
def xlateGo (s : State) (ctx : Nat) (d : TDesc) (gaddr : Nat) (acc : Acc) (cls port : Nat) :
    Nat → Nat → Nat → Except Trap (List Part) × List (Nat × DWord)
  | 0, _, _ => (.ok [], [])
  | fuel + 1, off, n =>
    if n = 0 then (.ok [], [])
    else
      let ps := pageBytes d.pg
      let k := min n (ps - off % ps)
      match xlatePart s ctx d gaddr off k acc cls port with
      | (.error t, c) => (.error t, c)
      | (.ok p, c) =>
        match xlateGo s ctx d gaddr acc cls port fuel (off + k) (n - k) with
        | (.error t, c') => (.error t, c ++ c')
        | (.ok ps', c') => (.ok (p :: ps'), c ++ c')

/-- Translates a tensor access (R57). -/
def xlate (s : State) (ctx id off n : Nat) (acc : Acc) (cls port : Nat) : XOut :=
  let gaddr := 2 ^ 63 + id * 2 ^ 47 + off
  match descOf s ctx id with
  | none => ⟨.error (trapAperture gaddr cls acc), none, []⟩
  | some d =>
    let dc := some (ctx * 2 ^ 16 + id, descBytes s ctx id)
    if d.span < off + n then ⟨.error (trapAperture gaddr cls acc), dc, []⟩
    else
      let r := xlateGo s ctx d gaddr acc cls port (n / pageBytes d.pg + 2) off n
      ⟨r.1, dc, r.2⟩

/-- A well-formed LOCAL, CLUSTER or SHARED address (R47). -/
inductive GAddr where
  | loc (off : Nat)
  | cluster (tile off : Nat)
  | shared (id off : Nat)
deriving DecidableEq, Repr, Inhabited

/-- A value of a LOCAL address field, or one that selects no aperture, the core addresses 0x2 among them: whatever is wrong with it is an
`APERTURE`, not a field value (R47, R195). -/
def localField (a : Nat) : Bool := decide (bitsOf a 63 60 < 8) && bitsOf a 63 60 != 1

/-- Decodes a generic address by its form alone (R47). -/
def gaddr (a : Nat) : Option GAddr :=
  let top := bitsOf a 63 60
  if top = 0 then (if bitsOf a 59 21 = 0 then some (.loc (bitsOf a 20 0)) else none)
  else if top = 1 then
    (if bitsOf a 59 26 = 0 ∧ bitsOf a 25 21 < 24 then some (.cluster (bitsOf a 25 21) (bitsOf a 20 0)) else none)
  else if 8 ≤ top then some (.shared (bitsOf a 62 47) (bitsOf a 46 0))
  else none

/-- Resolves a generic address of a tile's task to the bytes it names (R47, R48, R57). -/
def resolve (s : State) (t ctx a n : Nat) (acc : Acc) (cls port : Nat) : XOut :=
  let spad (tile off : Nat) : XOut :=
    if off + n ≤ 2 ^ 21 then ⟨.ok [⟨spadBase tile + off, n⟩], none, []⟩ else ⟨.error (trapAperture a cls acc), none, []⟩
  match gaddr a with
  | none => ⟨.error (trapAperture a cls acc), none, []⟩
  | some (.loc off) => spad t off
  | some (.cluster c off) => spad (t / 32 * 32 + c) off
  | some (.shared id off) => xlate s ctx id off n acc cls port

/-- Puts the descriptor and the entries that a translation used into the caches (R57). -/
def State.cache (s : State) (x : XOut) : State :=
  let dc := match x.desc with
    | some (k, bs) => mapSet [] s.pkg.descCache k bs
    | none => s.pkg.descCache
  let pc := x.ptes.foldl (fun m e => mapSet 0 m e.1 e.2) s.pkg.pteCache
  { s with pkg := { s.pkg with descCache := dc, pteCache := pc } }

/-- The bytes of the parts of an access, as an observer reads them. -/
def State.readParts (s : State) (o : Obs) (ps : List Part) : List Byte :=
  (ps.map (fun p => s.bytesAt o p.addr p.len)).flatten

/-- Address of the first poisoned part of an access, if any. -/
def State.poisonedPart (s : State) (ps : List Part) : Option Nat :=
  (ps.find? (fun p => s.poisonIn p.addr p.len)).map (·.addr)

/-- Array id of R433 for a model address. -/
def arrayId (a : Nat) : Nat := if a < 2 ^ 56 then 0x08 else 0x01

end Sys2Proof.Machine
end

