-- ==== Sys2Proof/Machine/Ops.lean ====
section
/-! DEFINITION. Machine/Ops.lean: the named operations over the state: tables, registers, tasks, events, memory accesses on
behalf of a task, trap records, taking an exception (R199 to R201, R427 to R430) and returning from one (R203). -/

namespace Sys2Proof.Machine

/-! ## Tables -/

def State.tile (s : State) (t : Nat) : Tile := mapGet Tile.reset s.tiles t
def State.setTile (s : State) (t : Nat) (v : Tile) : State := { s with tiles := mapSet Tile.reset s.tiles t v }
def State.modTile (s : State) (t : Nat) (f : Tile → Tile) : State := s.setTile t (f (s.tile t))
def State.die (s : State) (d : Nat) : Die := mapGet Die.reset s.dies d
def State.modDie (s : State) (d : Nat) (f : Die → Die) : State := { s with dies := mapSet Die.reset s.dies d (f (s.die d)) }
def State.stack (s : State) (k : Nat) : Stack := mapGet Stack.reset s.hbm k
def State.modStack (s : State) (k : Nat) (f : Stack → Stack) : State :=
  { s with hbm := mapSet Stack.reset s.hbm k (f (s.stack k)) }
def State.modPkg (s : State) (f : Pkg → Pkg) : State := { s with pkg := f s.pkg }
def State.modNet (s : State) (f : Net → Net) : State := { s with net := f s.net }
def State.modRegs (s : State) (f : HostRegs → HostRegs) : State := { s with regs := f s.regs }

/-- A scalar core of a tile: 0 control, 1 loader, 2 storer (R190). -/
def Tile.core (v : Tile) (c : Nat) : Core := if c = 0 then v.ctl else if c = 1 then v.ldr else v.sto
def Tile.setCore (v : Tile) (c : Nat) (k : Core) : Tile :=
  if c = 0 then { v with ctl := k } else if c = 1 then { v with ldr := k } else { v with sto := k }
def Tile.modCore (v : Tile) (c : Nat) (f : Core → Core) : Tile := v.setCore c (f (v.core c))

/-- A bound task, an open window, the rest of a task. -/
def Tile.task (v : Tile) (slot : Nat) : Option Task := mapGet none v.tasks slot
def Tile.ext (v : Tile) (slot : Nat) : TaskExt := mapGet TaskExt.zero v.exts slot
def Tile.win (v : Tile) (w : Nat) : Option Window := mapGet none v.wins w
def Tile.setWin (v : Tile) (w : Nat) (x : Option Window) : Tile := { v with wins := mapSet none v.wins w x }
def Tile.port (v : Tile) (p : Nat) : Port := mapGet Port.reset v.fabric.ports p
def Tile.setPort (v : Tile) (p : Nat) (x : Port) : Tile :=
  { v with fabric := { v.fabric with ports := mapSet Port.reset v.fabric.ports p x } }

def State.task (s : State) (t slot : Nat) : Option Task := (s.tile t).task slot
def State.ext (s : State) (t slot : Nat) : TaskExt := (s.tile t).ext slot
def State.modTask (s : State) (t slot : Nat) (f : Task → Task) : State :=
  s.modTile t (fun v => { v with tasks := mapSet none v.tasks slot ((v.task slot).map f) })
def State.modExt (s : State) (t slot : Nat) (f : TaskExt → TaskExt) : State :=
  s.modTile t (fun v => { v with exts := mapSet TaskExt.zero v.exts slot (f (v.ext slot)) })

def State.launch (s : State) (q : Nat) : Option Launch := mapGet none s.pkg.launches q
def State.lext (s : State) (q : Nat) : LaunchExt := mapGet LaunchExt.zero s.pkg.launchExts q
def State.modLaunch (s : State) (q : Nat) (f : Launch → Launch) : State :=
  s.modPkg (fun p => { p with launches := mapSet none p.launches q ((s.launch q).map f) })
def State.modLext (s : State) (q : Nat) (f : LaunchExt → LaunchExt) : State :=
  s.modPkg (fun p => { p with launchExts := mapSet LaunchExt.zero p.launchExts q (f (s.lext q)) })

/-- The context, logical index, launch and seed of a task. -/
def State.taskCtx (s : State) (t slot : Nat) : Nat := ((s.task t slot).map (·.ctx)).getD 0
def State.taskLidx (s : State) (t slot : Nat) : Nat := ((s.task t slot).map (·.lidx)).getD 0
def State.taskLaunch (s : State) (t slot : Nat) : Nat := ((s.task t slot).map (·.launch)).getD 0
def State.seed (s : State) (q : Nat) : Nat := ((s.launch q).map (·.seed.toNat)).getD 0

/-- The slot of the RESIDENT task of a tile. -/
def State.slot (s : State) (t : Nat) : Nat := (s.tile t).resident.getD 0

/-! ## The focused core -/

/-- Tile and core whose instruction runs. -/
def State.ft (s : State) : Nat := s.focus.1
def State.fc (s : State) : Nat := s.focus.2
def State.fslot (s : State) : Nat := s.slot s.ft
def State.cur (s : State) : Core := (s.tile s.ft).core s.fc
def State.modCur (s : State) (f : Core → Core) : State := s.modTile s.ft (fun v => v.modCore s.fc f)

/-- x-register read: x0 is zero (R193). -/
def Core.rx (k : Core) (r : Reg) : DWord := if r = 0 then 0 else mapGet 0 k.x r.toNat
/-- x-register write: x0 discards it (R193, R204). -/
def Core.wx (k : Core) (r : Reg) (v : DWord) : Core := if r = 0 then k else { k with x := mapSet 0 k.x r.toNat v }
def State.rx (s : State) (r : Reg) : DWord := s.cur.rx r
def State.wx (s : State) (r : Reg) (v : DWord) : State := s.modCur (fun k => k.wx r v)
/-- The register as a number. -/
def State.rn (s : State) (r : Reg) : Nat := (s.rx r).toNat

/-- First address of a core's own memories (R195). -/
def coreBase : Nat := 0x2000000000000000

/-- An instruction completes: pc moves past it, it is counted, and a wait it made is over (R212). -/
def Core.advance (k : Core) : Core :=
  { k with pc := k.pc + BitVec.ofNat 64 k.ilen, instret := k.instret + 1, blocked := false, waited := 0 }
/-- A jump completes at a target. -/
def Core.jumpTo (k : Core) (a : DWord) : Core := { k with pc := a, instret := k.instret + 1, blocked := false, waited := 0 }

/-! ## Free values -/

/-- A free number, and the state with one more draw. -/
def State.draw (s : State) : Nat × State := (Config.freeNat s.draws, { s with draws := s.draws + 1 })

/-! ## Trap records (R427) -/

/-- Word 0 of a record. -/
def recWord0 (cause src slot tile lidx : Nat) (fault fut : Bool) : DWord :=
  BitVec.ofNat 64 (cause % 256 + 2 ^ 8 * (src % 4) + 2 ^ 10 * (slot % 8) + 2 ^ 13 * bit01 fault + 2 ^ 14 * bit01 fut +
    2 ^ 16 * (tile % 2 ^ 14) + 2 ^ 32 * (lidx % 2 ^ 32))

/-- Word 1 of a record, by KIND (R427). -/
def w1Core (pc : DWord) : Nat := pc.toNat % 2 ^ 62
def w1Elem (row er ec src : Nat) : Nat := 2 ^ 62 + row + 2 ^ 8 * er + 2 ^ 12 * ec + 2 ^ 16 * src
def w1Seq (row sub last : Nat) : Nat := 2 * 2 ^ 62 + row + 2 ^ 5 * sub + 2 ^ 15 * last
def w1Unit (cls : Nat) : Nat := 3 * 2 ^ 62 + cls

/-- The record of a trap of a tile's task. -/
def mkRec (s : State) (t slot src w1 : Nat) (tr : Trap) (fault : Bool) : TrapRec :=
  ⟨recWord0 tr.cause src slot t (s.taskLidx t slot) fault tr.fut, BitVec.ofNat 64 w1, BitVec.ofNat 64 tr.w2, BitVec.ofNat 64 tr.w3⟩

def TrapRec.cause (r : TrapRec) : Nat := r.w0.toNat % 256
def TrapRec.src (r : TrapRec) : Nat := bitsOf r.w0.toNat 9 8
def TrapRec.slot (r : TrapRec) : Nat := bitsOf r.w0.toNat 12 10
def TrapRec.tile (r : TrapRec) : Nat := bitsOf r.w0.toNat 29 16
def TrapRec.fut (r : TrapRec) : Bool := bitOf r.w0.toNat 14
/-- The record with FAULT set: delivered to the die manager (R427). -/
def TrapRec.asFault (r : TrapRec) : TrapRec := { r with w0 := r.w0 ||| 0x2000 }

/-- Causes that go to the task's control core (R199). -/
def controlCause (c : Nat) : Bool :=
  c == cFMTTAG || c == cSCALETAG || c == cRATE || c == cWAITEXP || c == cDIGEST || c == cBREAK

/-- Whether the manager of a die works: it runs, and no word of its SRAM is poisoned, for such a word hangs it until its watchdog resets it (R431,
R436; log entry 9). -/
def Die.runs (x : Die) : Bool := x.managed && x.sram.isEmpty

/-- The manager of a die writes its SRAM: an armed injection of that array is used (R434). Which of its writes reaches an address the manual does not
say: it is the next record that it queues, wherever that lies (log entry 9). -/
def strikeSram (s : State) (d : Nat) : State :=
  let r := strike s d 0x09 d noCtx 0 (2 ^ 48)
  match r.1 with
  | some a => r.2.modDie d (fun x => { x with sram := mapSet false x.sram a true })
  | none => r.2

/-- Delivers a record to the die manager of a tile's die as a fault (R199, R430). -/
def deliverFault (s : State) (t launch : Nat) (r : TrapRec) : State :=
  strikeSram (s.modDie (t / 512) (fun d => { d with faults := d.faults ++ [(r.asFault, launch, none)] })) (t / 512)

/-! ## Taking an exception (R200) -/

def CtlCsr.busy (c : CtlCsr) : Bool := c.tstat.getLsbD 0
def CtlCsr.tvecEn (c : CtlCsr) : Bool := c.tvec.getLsbD 0
/-- Core address of the handler. -/
def CtlCsr.handler (c : CtlCsr) : DWord := BitVec.ofNat 64 (coreBase + bitsOf c.tvec.toNat 15 1 * 2)

/-- `TILE_TSTAT` while a handler runs (R198). -/
def tstatOf (cause src : Nat) : DWord := BitVec.ofNat 64 (cause * 2 ^ 8 + src * 2 ^ 4 + 1)

/-- Enters the handler of a tile for a record (R200): the trap CSRs take the record, TEPC names the next control-core
instruction not executed, and the control core runs at the handler in user mode (R202), a blocked form abandoned. -/
def enterHandler (v : Tile) (r : TrapRec) (src : Nat) : Tile :=
  { v with
    csr := { v.csr with trec := r, tstat := tstatOf r.cause src, tepc := v.ctl.pc }
    ctl := { v.ctl with pc := v.csr.handler, stat := .run, blocked := false, waited := 0, machine := false } }

/-- Whether the control core stands at an instruction boundary at which a trap can be entered (R200, R201); an `rw.pop`
whose copy has begun completes first (R223). -/
def Tile.canEnter (v : Tile) : Bool :=
  !v.csr.busy && v.ctl.stat != .faulted && v.ctl.stat != .held &&
    !(v.copies.any (fun c => match c.kind with | .pop _ => c.core == 0 | _ => false))

/-- Enters the oldest waiting trap of a tile (R200, R201), or delivers it as a fault where the handler is not enabled. -/
def enter (s : State) (t : Nat) : State :=
  let v := s.tile t
  match v.traps with
  | [] => s
  | (r, src) :: rest =>
    if !v.csr.tvecEn then
      deliverFault (s.setTile t ({ v with traps := rest }.modCore 0 (fun k => if src = 0 then { k with stat := .faulted } else k)))
        t (s.taskLaunch t r.slot) r
    else if v.canEnter then s.setTile t (enterHandler { v with traps := rest } r src)
    else s

/-- Stops a source at its trap: a core at the trapping instruction (R199, R200); the fabric and the sequencer are stopped by
the unit that raises the trap (R429, R187). -/
def stopSource (s : State) (t src : Nat) (st : CoreStat) : State :=
  if src < 3 then s.modTile t (fun v => v.modCore src (fun k => { k with stat := st, blocked := false, waited := 0 })) else s

/-- Whether the control core of a tile takes a trap: a control cause, a handler enabled and none running (R199, R200). -/
def Tile.takes (v : Tile) (tr : Trap) : Bool := controlCause tr.cause && !v.csr.busy && v.csr.tvecEn

/-- A source of a tile's task raises a trap (R199, R200): a control cause goes to the control core when a handler is
enabled and none runs, and every other trap goes to the die manager. A control core whose own trap heads the queue enters
its handler at once. -/
def raiseTrap (s : State) (t slot src w1 : Nat) (tr : Trap) : State :=
  let v := s.tile t
  if v.takes tr then
    let s1 := (stopSource s t src .trapped).modTile t (fun v => { v with traps := v.traps ++ [(mkRec s t slot src w1 tr false, src)] })
    if src = 0 ∧ v.traps.isEmpty then enter s1 t else s1
  else deliverFault (stopSource s t src .faulted) t (s.taskLaunch t slot) (mkRec s t slot src w1 tr true)

/-! ### Exceptions of machine mode, which only the tile monitor enters (R193; log entry 7) -/

/-- An exception taken in machine mode: mepc, mcause and mtval written, the interrupt enable and the mode stacked in
mstatus, the pc at the base of mtvec. -/
def Core.machineTrap (k : Core) (cause : DWord) (tval : DWord) : Core :=
  let st := mapGet 0 k.mcsr 0x300
  let st1 := ((st &&& ~~~(0x1888 : DWord)) ||| ((st &&& 8) <<< 4)) ||| 0x1800
  let m := mapSet 0 (mapSet 0 (mapSet 0 (mapSet 0 k.mcsr 0x341 k.pc) 0x342 cause) 0x343 tval) 0x300 st1
  { k with mcsr := m, pc := mapGet 0 k.mcsr 0x305 &&& ~~~(3 : DWord), blocked := false, waited := 0 }

/-- `mret`: the stacked enable and mode come back, user mode is stacked, the pc is mepc. -/
def Core.machineReturn (k : Core) : Core :=
  let st := mapGet 0 k.mcsr 0x300
  let mpp := bitsOf st.toNat 12 11
  let st1 := ((st &&& ~~~(if mpp = 3 then (0x1888 : DWord) else 0x21888)) ||| ((st &&& 0x80) >>> 4)) ||| 0x80
  { k with mcsr := mapSet 0 k.mcsr 0x300 st1, machine := mpp == 3 }.jumpTo (mapGet 0 k.mcsr 0x341)

/-- The die manager's tile monitor starts on a core of a tile on which no task is resident (R193): machine mode, at an offset of the core's
instruction store. -/
def enterMonitor (s : State) (t c off : Nat) : State :=
  if (s.tile t).resident.isSome then s
  else s.modTile t (fun v => v.modCore c (fun k =>
    { k with machine := true, stat := .run, pc := BitVec.ofNat 64 (coreBase + off), blocked := false, waited := 0 }))

/-- The tile monitor has ended: no core of the tile stays in machine mode. -/
def Tile.leaveMonitor (v : Tile) : Tile :=
  let out (k : Core) : Core := if k.machine then { k with machine := false, stat := .off } else k
  { v with ctl := out v.ctl, ldr := out v.ldr, sto := out v.sto }

/-- Whether an instruction word is a base store, in its 32-bit or a compressed form. -/
def isStoreWord (w : Nat) : Bool :=
  w % 128 == 0x23 || (w % 4 == 0 && decide (6 ≤ bitsOf w 15 13)) || (w % 4 == 2 && decide (6 ≤ bitsOf w 15 13))

/-- The mcause code of a trap of a machine-mode instruction: the architecture's where it has one. -/
def machineCause (w : Nat) (cause : Nat) : DWord :=
  if cause = cILLEGAL then 2
  else if cause = cBREAK then 3
  else if cause = cALIGN then (if isStoreWord w then 6 else 4)
  else if cause = cAPERTURE ∨ cause = cPERMISSION ∨ cause = cPOISON then (if isStoreWord w then 7 else 5)
  else Config.machineCause cause

/-- The focused core raises a trap at its instruction. A control cause completes the instruction (R200; the `RATE` of a
`sys.end`, which does not, is raised there); at a fault the core stops at the instruction (R199). In machine mode no task
runs, and the core takes its exception itself. Word 1 is the pc, also where only the second half of a fetched instruction offends (log entry 153). -/
def raiseCore (s : State) (tr : Trap) : State :=
  if s.cur.machine then
    s.modCur (fun k => k.machineTrap (machineCause k.iword.toNat tr.cause)
      (if tr.cause = cBREAK then k.pc else BitVec.ofNat 64 tr.w2)) else
  let pc := s.cur.pc
  let s1 := if controlCause tr.cause then s.modCur Core.advance else s
  raiseTrap s1 s.ft s.fslot s.fc (w1Core pc) tr

/-- The fetch of the focused core traps (R197). -/
def raiseFetch (s : State) (tr : Trap) : State :=
  if s.cur.machine then s.modCur (fun k => k.machineTrap 1 k.pc) else raiseCore s tr

/-- An access of the focused core is held by `NOTPRESENT` (R60): the core stalls and the die manager gets a record. -/
def holdCore (s : State) (tr : Trap) : State :=
  let h : Held := { tr.hold with swapped := s.cur.out == some s.cur.instret }
  let s1 := s.modCur (fun k => { k with stat := .held, held := some h })
  deliverFault s1 s.ft (s.taskLaunch s.ft s.fslot) (mkRec s s.ft s.fslot s.fc (w1Core s.cur.pc) tr true)

/-! ## Returning from an exception (R203) -/

/-- Resumes what a trap of the fabric froze, as `fb.run` would (R429, R240). -/
def Fabric.thaw (f : Fabric) : Fabric :=
  let regions := f.regions.mapIdx (fun r g =>
    { g with ctxs := g.ctxs.mapIdx (fun c x =>
        if mapGet false f.trapFroze (r * 4 + c) && x.stat == .frozen then { x with resuming := true } else x) })
  { f with regions := regions, trapFroze := [] }

/-- Resumes the source that a handled trap had stopped (R203, R429); one that another trap of its own, still waiting, has stopped too
stays stopped (R201). -/
def Tile.resume (v : Tile) (src : Nat) : Tile :=
  if v.traps.any (fun x => x.2 == src) then v
  else if src = 1 ∨ src = 2 then v.modCore src (fun k => if k.stat = .trapped then { k with stat := .run } else k)
  else if src = 3 then { v with fabric := v.fabric.thaw }
  else v

/-- The return of `sys.eret` (R203): pc from TEPC, BUSY cleared, the stopped source resumed. A control core whose own trap
still waits behind another stays stopped (R201). -/
def Tile.eret (v : Tile) : Tile :=
  let src := bitsOf v.csr.tstat.toNat 5 4
  let v1 := { v with
    csr := { v.csr with tstat := v.csr.tstat &&& ~~~(1 : DWord) }
    ctl := { v.ctl.jumpTo v.csr.tepc with stat := if v.traps.any (fun x => x.2 == 0) then .trapped else .run } }
  v1.resume src

/-- Takes the control core back to its `xc.begin` with a code (R276): x-registers and pc from the section, rd := code. -/
def rollbackCore (k : Core) (x : List (Nat × DWord)) (pc : DWord) (rd code : Nat) : Core :=
  { k with x := x, pc := pc, blocked := false, waited := 0, stat := .run }.wx (BitVec.ofNat 5 rd) (BitVec.ofNat 64 code)

/-! ## What a scalar instruction ends in -/

/-- The end of a scalar instruction. -/
inductive Act where
  /-- it completes and the next one follows -/
  | done (s : State)
  /-- it completes at a target it has set itself, or leaves the pc where it stands -/
  | go (s : State)
  /-- it raises a trap on this state -/
  | trap (tr : Trap) (s : State)
  /-- its access is held by `NOTPRESENT` -/
  | hold (tr : Trap) (s : State)
  /-- it is blocked, with no effect yet (R212) -/
  | wait (s : State)

/-- Whether an access of the RESIDENT task is held by `NOTPRESENT` (R60). -/
def Tile.taskHeld (v : Tile) : Bool :=
  v.ctl.held.isSome || v.ldr.held.isSome || v.sto.held.isSome || v.fabric.ports.any (fun p => p.2.held.isSome) ||
    v.copies.any (fun c => c.held.isSome && v.resident == some c.slot)

/-- A blocked form stays where it is; the cycles that pass until it is tried again are not fixed, and they count only while
the task is not held (R212, R65). -/
def blockCore (s : State) : State :=
  let d := s.draw
  let n := if (s.tile s.ft).taskHeld then 0 else 1 + d.1
  d.2.modCur (fun k => { k with blocked := true, waited := k.waited + n })

/-- A blocked form whose cycles do not count (R261). -/
def blockPaused (s : State) : State := s.modCur (fun k => { k with blocked := true })

/-- The state after the end of a scalar instruction. -/
def Act.state : Act → State
  | .done s => s.modCur Core.advance
  | .go s => s
  | .trap tr s => raiseCore s tr
  | .hold tr s => holdCore s tr
  | .wait s => blockCore s

/-- A scalar instruction always leads to a next state: it completes, waits, or takes its exception. -/
def perform (a : Act) : Host.Outcome State Fault Refusal := .next a.state

/-- A result in rd, then completion. -/
def Act.ret (s : State) (rd : Reg) (v : DWord) : Act := .done (s.wx rd v)
def Act.retN (s : State) (rd : Reg) (v : Nat) : Act := .done (s.wx rd (BitVec.ofNat 64 v))

/-- A trap with the instruction word in word 2 (R428). -/
def tIllegal (s : State) : Trap := ⟨cILLEGAL, s.cur.iword.toNat, 0, false⟩
def tResource (s : State) : Trap := ⟨cRESOURCE, s.cur.iword.toNat, 0, false⟩
def tAlign (a size : Nat) : Trap := ⟨cALIGN, a, size, false⟩
def tPermission (a : Nat) (cls : Nat := kSCALAR) (write : Bool := false) : Trap := ⟨cPERMISSION, a, cls + 256 * bit01 write, false⟩
/-- `CFGREJECT` of a descriptor whose lowest failing field bit is given, at a scratchpad address (R428, structure 5). -/
def tCfgDesc (bit addr : Nat) : Trap :=
  ⟨cCFGREJECT, (if bit < 128 then bit else Config.cfgBit bit % 128) * 2 ^ 24 + 5 * 2 ^ 31, addr, false⟩

/-- Lowest bit of the first field that fails its check; fields in order, each with whether it holds. -/
def firstFail (fs : List (Nat × Bool)) : Option Nat := (fs.find? (fun f => !f.2)).map (·.1)
def tStale (handle gen : Nat) : Trap := ⟨cSTALE, handle, gen, false⟩

def Act.illegal (s : State) : Act := .trap (tIllegal s) s
def Act.resource (s : State) : Act := .trap (tResource s) s
def Act.align (s : State) (a size : Nat) : Act := .trap (tAlign a size) s

/-- A form that only the control core may execute (R191). -/
def ctlOnly (s : State) (a : Act) : Act := if s.fc = 0 then a else .illegal s

/-! ## Events (R246, R247) -/

/-- A unit writes an event record: into the queue, or held while the queue is full (R246). Records of one source keep
their order: nothing passes a held record. -/
def Tile.event (v : Tile) (r : EvRec) : Tile :=
  if v.events.length < 256 && v.pending.isEmpty then { v with events := v.events ++ [r] }
  else { v with pending := v.pending ++ [r] }

/-! ## Store digests (R440) -/

/-- One term of a store digest. -/
def digestTerm (seed tensor off v k : Nat) : Nat :=
  let o := gleam ⟨v % 2 ^ 32, v / 2 ^ 32 % 2 ^ 32, bitsOf off 34 3, 0x30000000 ||| (tensor * 2 ^ 12) ||| bitsOf off 46 35⟩
    (seed ^^^ (k * 2 ^ 56))
  o.x0 + o.x1 * 2 ^ 32

/-- The terms of a store of bytes at an offset of a tensor, one for each 8-byte word it touches. -/
def digestStore (seed tensor off : Nat) (bs : List Byte) : Nat :=
  if bs.isEmpty then 0 else
    ((List.range ((off + bs.length - 1) / 8 + 1 - off / 8)).map (fun i =>
      let w := (off / 8 + i) * 8
      let at? (j : Nat) : Option Byte := if off ≤ w + j ∧ w + j < off + bs.length then bs[w + j - off]? else none
      let v := ((List.range 8).map (fun j => ((at? j).map (·.toNat)).getD 0 * 2 ^ (8 * j))).foldl (· + ·) 0
      let k := ((List.range 8).map (fun j => bit01 (at? j).isSome * 2 ^ j)).foldl (· + ·) 0
      digestTerm seed tensor w v k)).foldl (· + ·) 0

/-- Adds terms to a task's store digest. -/
def State.addDigest (s : State) (t slot x : Nat) : State :=
  s.modExt t slot (fun e => { e with digest := e.digest + BitVec.ofNat 64 x })

/-- Notes the 2 MiB units of a tensor that a launch has written (R443). -/
def State.touchUnits (s : State) (q ctx tensor off n : Nat) : State :=
  let us := (List.range ((off + n - 1) / 2 ^ 21 + 1 - off / 2 ^ 21)).map
    (fun i => (ctx * 2 ^ 16 + tensor) * 2 ^ 26 + off / 2 ^ 21 + i)
  if (s.launch q).isNone then s
  else s.modLext q (fun e => { e with dirty := e.dirty ++ us.filter (fun u => !e.dirty.contains u) })

/-! ## Accesses on behalf of a task -/

/-- Who makes an access: tile, task slot, observer, engine class, and what in the class (R270, R381). -/
structure Who where
  tile : Nat
  slot : Nat
  obs : Obs
  cls : Nat
  op : Nat
  done : Bool
  /-- the launch it works for, where no task of the tile tells it -/
  launch : Option Nat
deriving DecidableEq, Repr, Inhabited

/-- The focused core on path SCALAR; its accesses are seen complete at retirement (R270). -/
def State.who (s : State) : Who := ⟨s.ft, s.fslot, .tile s.ft s.fc, kSCALAR, 0, true, none⟩

/-- Resolves a generic address for an agent (R47, R57). -/
def State.find (s : State) (w : Who) (a n : Nat) (acc : Acc) (port : Nat := 0) : XOut :=
  resolve s w.tile (s.taskCtx w.tile w.slot) a n acc w.cls port

/-- Writes bytes to the parts of an access, in order. -/
def State.writeParts (s : State) (w : Who) (reach : List Reach) (poison : Bool) : List Part → List Byte → State
  | [], _ => s
  | p :: ps, bs =>
    (s.addWrite ⟨p.addr, bs.take p.len, w.obs, w.cls, some (w.tile, w.slot), w.op, w.done, reach, [], 0, w.launch, []⟩ poison).writeParts
      w reach poison ps (bs.drop p.len)

/-- Folds a write to a SHARED address into the task's digest and notes its units (R440, R443). -/
def State.foldShared (s : State) (w : Who) (a : Nat) (bs : List Byte) : State :=
  if a < 2 ^ 63 then s
  else
    let q := s.taskLaunch w.tile w.slot
    let id := bitsOf a 62 47
    let off := bitsOf a 46 0
    (s.addDigest w.tile w.slot (digestStore (s.seed q) id off bs)).touchUnits q (s.taskCtx w.tile w.slot) id off bs.length

/-- A write of an agent at a generic address whose parts are known. -/
def State.store (s : State) (w : Who) (a : Nat) (ps : List Part) (bs : List Byte) (poison : Bool := false)
    (reach : List Reach := []) : State :=
  (s.writeParts w reach poison ps bs).foldShared w a bs

/-- Whether a write is the focused core's on path SCALAR. -/
def ownScalar (s : State) (w : PWrite) : Bool := w.writer == .tile s.ft s.fc && w.cls == kSCALAR

/-- The focused core's read of some bytes follows its own strong stores to them, which have had their moment (R384, R387). -/
def ownMoment (s : State) (ps : List Part) : State :=
  s.strike (fun w => ownScalar s w && ps.any (fun p => w.touches p.addr p.len))

/-- A scratchpad address operand: its LOCAL offset (R211). -/
def spadOperand (a : Nat) : Option Nat :=
  match gaddr a with
  | some (.loc off) => some off
  | _ => none

/-- The scratchpad offset of the first poisoned protection word that a range of a tile's scratchpad touches. -/
def poisonFrom (s : State) (t off n : Nat) : Option Nat :=
  ((List.range n).find? (fun i => s.poisonAt (spadBase t + off + i))).map (fun i => (off + i) / 8 * 8)

/-- Reads a descriptor in the focused tile's scratchpad on path SCALAR (R211, R252): a CLUSTER, SHARED or core address
raises `APERTURE`, as does a range past the scratchpad; an unaligned address raises `ALIGN`; a poisoned word `POISON`. -/
def readSpad (s : State) (a n alignTo : Nat) : Except Trap (List Byte) :=
  match spadOperand a with
  | none => .error (trapAperture a kSCALAR .read)
  | some off =>
    if a % alignTo ≠ 0 then .error (tAlign a alignTo)
    else if 2 ^ 21 < off + n then .error (trapAperture a kSCALAR .read)
    else match poisonFrom s s.ft off n with
    | some w => .error ⟨cPOISON, w, 0x01, false⟩
    | none => .ok (s.bytesAt (.tile s.ft s.fc) (spadBase s.ft + off) n)

/-! ## Arrays of a tile (R433, R434, R458; log entry 9) -/

/-- First address of a core's data memory, and of its instruction store, in those of its die. -/
def dmemPlace (t c : Nat) : Nat := (t % 512 * 3 + c) * 2 ^ 14
def imemPlace (t c : Nat) : Nat := (t % 512 * 3 + c) * 2 ^ 16

/-- Entry of an element word of a tile in the row stores of its die. -/
def rowPlace (t plane key : Nat) : Nat := (t % 512 * 2 + plane) * 8192 + key

/-- An uncorrectable error in the row store of a tile. -/
def Fabric.poisonWord (f : Fabric) (plane key : Nat) : Fabric :=
  if plane = 0 then { f with plane0 := { f.plane0 with poison := mapSet false f.plane0.poison key true } }
  else { f with plane1 := { f.plane1 with poison := mapSet false f.plane1.poison key true } }

/-- A plane of a tile is written at the keys of a test: an armed injection of one of them is used. -/
def strikeRows (s : State) (t ctx plane : Nat) (keys : Nat → Bool) : State :=
  match armedInj s (t / 512) 0x04 (rowPlace t plane 0) 8192 with
  | none => s
  | some (k, a) =>
    if !keys (a - rowPlace t plane 0) then s
    else
      let s1 := useInj s (t / 512) 0x04 k a t ctx
      if k = 2 then s1.modTile t (fun v => { v with fabric := v.fabric.poisonWord plane (a - rowPlace t plane 0) }) else s1

/-- Entry of an accumulator row of a tile in the panels of its die. -/
def accPlace (t row : Nat) : Nat := t % 512 * 1024 + row

/-- Rows of a tile's accumulator panel have been written: an armed injection of one of them is used. -/
def strikeAcc (s : State) (t ctx row n : Nat) : State :=
  let r := strike s (t / 512) 0x05 t ctx (accPlace t row) n
  match r.1 with
  | some a => r.2.modTile t (fun v => { v with accPoison := mapSet false v.accPoison (a - accPlace t 0) true })
  | none => r.2

/-- The inverse-normal unit of a tile draws (R421): with one copy of its tables failing, or an error of a copy that lasts no longer than the draw, it
draws from the other and logs a corrected error. Whether there is such an error is free. -/
def drawTables (s : State) (t : Nat) : State :=
  let d := s.draw
  if (s.tile t).tables = 0 ∧ d.1 % 2 = 0 then d.2
  else d.2.logAt (t / 512) 0x07 t (s.taskCtx t (s.slot t)) (t % 512) (if (s.tile t).tables = 0 then 1 else 5)

/-- Both copies of the tables of a tile fail: nothing is drawn, and the tile has a fatal fault (R421). -/
def Tile.tablesFail (v : Tile) : Bool := v.tables == 3
def tableFault (s : State) (t : Nat) : State :=
  s.modDie (t / 512) (fun x => { x with fatal := if x.fatal.contains t then x.fatal else x.fatal ++ [t] })

/-- The tables of a tile are written: as its self-test ends, with an armed injection acting on one copy or, of two flips, on both (log entry 9). -/
def strikeTables (s : State) (t : Nat) : State :=
  let s0 := s.modTile t (fun v => { v with tables := 0 })
  match armedInj s0 (t / 512) 0x07 (t % 512) 1 with
  | none => s0
  | some (k, a) => (useInj s0 (t / 512) 0x07 k a t noCtx).modTile t (fun v => { v with tables := if k = 2 then 3 else 1 })

/-- The memories of the cores, the row stores and the accumulator panel of a tile are written from a context. -/
def strikeContext (s : State) (t ctx : Nat) : State :=
  let cores := (List.range 3).foldl (fun s c =>
    let i := strike s (t / 512) 0x02 t ctx (imemPlace t c) (2 ^ 16)
    let s1 := match i.1 with
      | some a => i.2.modTile t (fun v => v.modCore c (fun k => { k with ipoison := mapSet false k.ipoison ((a - imemPlace t c) / 8) true }))
      | none => i.2
    let d := strike s1 (t / 512) 0x03 t ctx (dmemPlace t c) (2 ^ 14)
    match d.1 with
    | some a => d.2.modTile t (fun v => v.modCore c (fun k => { k with dpoison := mapSet false k.dpoison ((a - dmemPlace t c) / 8) true }))
    | none => d.2) s
  strikeAcc (strikeRows (strikeRows cores t ctx 0 (fun _ => true)) t ctx 1 (fun _ => true)) t ctx 0 1024

/-! ## Time (R65, R198) -/

/-- The present cycle of the fabric is over: no further row issues in it (R292, R305). -/
def Fabric.cycleEnd (f : Fabric) : Fabric := { f with beat := [] }

/-- Fabric cycles pass on a tile: how many an instruction takes is not fixed. They age the READY tasks (R408) and count
against the swap threshold of a held task (R62). -/
def tickTile (v : Tile) (n : Nat) : Tile :=
  { v with
    cycle := v.cycle + n
    fabric := v.fabric.cycleEnd
    tasks := v.tasks.map (fun p => (p.1, p.2.map (fun k => if k.stat = .ready then { k with aged := k.aged + n } else k)))
    exts := match v.resident, v.taskHeld with
      | some sl, true => mapSet TaskExt.zero v.exts sl { v.ext sl with heldFor := (v.ext sl).heldFor + n }
      | some sl, false => if (v.ext sl).heldFor = 0 then v.exts else mapSet TaskExt.zero v.exts sl { v.ext sl with heldFor := 0 }
      | _, _ => v.exts }

/-- Time passes for the focused tile and the package. -/
def tick (s : State) : State :=
  let d := s.draw
  let e := d.2.draw
  { e.2.modTile s.ft (fun v => tickTile v (d.1 + 1)) with time := s.time + e.1 }

end Sys2Proof.Machine
end

