-- ==== Sys2Proof/Machine/Operands.lean ====
section
/-! DEFINITION. Machine/Operands.lean: the operand forms: register arithmetic of the base profile (R193), and the packed
words of the extension forms (R211, R213, R220, R228, R253, R262, R266). -/

namespace Sys2Proof.Machine

/-! ## Register arithmetic of RV64I, M, Zba and Zbb (R193) -/

/-- The low 32 bits of a register, and a 32-bit result sign-extended. -/
def lowW (x : DWord) : Word := x.extractLsb' 0 32
def sextW (x : Word) : DWord := x.signExtend 64
def zextW (x : DWord) : DWord := (lowW x).setWidth 64

/-- Shift amounts. -/
def sh6 (x : DWord) : Nat := x.toNat % 64
def sh5 (x : DWord) : Nat := x.toNat % 32

/-- High half of a product. -/
def mulHigh (x y : Int) : DWord := BitVec.ofInt 64 (x * y / 2 ^ 64)

/-- Signed division and remainder of the M extension: no trap on zero or overflow (R193). -/
def sdiv (w : Nat) (a b : BitVec w) : BitVec w := if b = 0 then BitVec.allOnes w else BitVec.ofInt w (a.toInt.tdiv b.toInt)
def srem (w : Nat) (a b : BitVec w) : BitVec w := if b = 0 then a else BitVec.ofInt w (a.toInt.tmod b.toInt)
def udiv (w : Nat) (a b : BitVec w) : BitVec w := if b = 0 then BitVec.allOnes w else BitVec.ofNat w (a.toNat / b.toNat)
def urem (w : Nat) (a b : BitVec w) : BitVec w := if b = 0 then a else BitVec.ofNat w (a.toNat % b.toNat)

def boolW (b : Bool) : DWord := if b then 1 else 0

/-- Register-register operations. -/
def regOp (o : RegOp) (a b : DWord) : DWord :=
  match o with
  | .add => a + b
  | .sub => a - b
  | .sll => a <<< sh6 b
  | .slt => boolW (a.slt b)
  | .sltu => boolW (a.ult b)
  | .xor => a ^^^ b
  | .srl => a >>> sh6 b
  | .sra => a.sshiftRight (sh6 b)
  | .or => a ||| b
  | .and => a &&& b
  | .addw => sextW (lowW a + lowW b)
  | .subw => sextW (lowW a - lowW b)
  | .sllw => sextW (lowW a <<< sh5 b)
  | .srlw => sextW (lowW a >>> sh5 b)
  | .sraw => sextW ((lowW a).sshiftRight (sh5 b))
  | .mul => a * b
  | .mulh => mulHigh a.toInt b.toInt
  | .mulhsu => mulHigh a.toInt b.toNat
  | .mulhu => mulHigh a.toNat b.toNat
  | .div => sdiv 64 a b
  | .divu => udiv 64 a b
  | .rem => srem 64 a b
  | .remu => urem 64 a b
  | .mulw => sextW (lowW a * lowW b)
  | .divw => sextW (sdiv 32 (lowW a) (lowW b))
  | .divuw => sextW (udiv 32 (lowW a) (lowW b))
  | .remw => sextW (srem 32 (lowW a) (lowW b))
  | .remuw => sextW (urem 32 (lowW a) (lowW b))
  | .addUw => b + zextW a
  | .sh1add => b + (a <<< 1)
  | .sh2add => b + (a <<< 2)
  | .sh3add => b + (a <<< 3)
  | .sh1addUw => b + (zextW a <<< 1)
  | .sh2addUw => b + (zextW a <<< 2)
  | .sh3addUw => b + (zextW a <<< 3)
  | .andn => a &&& ~~~b
  | .orn => a ||| ~~~b
  | .xnor => ~~~(a ^^^ b)
  | .max => if a.slt b then b else a
  | .maxu => if a.ult b then b else a
  | .min => if a.slt b then a else b
  | .minu => if a.ult b then a else b
  | .rol => a.rotateLeft (sh6 b)
  | .ror => a.rotateRight (sh6 b)
  | .rolw => sextW ((lowW a).rotateLeft (sh5 b))
  | .rorw => sextW ((lowW a).rotateRight (sh5 b))

/-- Register-immediate operations. -/
def immOp (o : ImmOp) (a : DWord) (i : BitVec 12) : DWord :=
  let b : DWord := i.signExtend 64
  match o with
  | .addi => a + b
  | .slti => boolW (a.slt b)
  | .sltiu => boolW (a.ult b)
  | .xori => a ^^^ b
  | .ori => a ||| b
  | .andi => a &&& b
  | .addiw => sextW (lowW (a + b))

/-- Shift-immediate operations. -/
def shiftImm (o : ShiftOp) (a : DWord) (sh : BitVec 6) : DWord :=
  let n := sh.toNat
  match o with
  | .slli => a <<< n
  | .srli => a >>> n
  | .srai => a.sshiftRight n
  | .rori => a.rotateRight n
  | .slliUw => zextW a <<< n
  | .slliw => sextW (lowW a <<< n)
  | .srliw => sextW (lowW a >>> n)
  | .sraiw => sextW ((lowW a).sshiftRight n)
  | .roriw => sextW ((lowW a).rotateRight n)

/-- The eight bytes of a register, lowest first. -/
def regBytes (a : DWord) : List Byte := leBytes 8 a.toNat

/-- One-register operations of Zbb. -/
def unOp (o : UnOp) (a : DWord) : DWord :=
  match o with
  | .clz => BitVec.ofNat 64 (clzNat 64 a.toNat)
  | .ctz => BitVec.ofNat 64 (ctzNat 64 a.toNat)
  | .cpop => BitVec.ofNat 64 (popNat 64 a.toNat)
  | .clzw => BitVec.ofNat 64 (clzNat 32 a.toNat)
  | .ctzw => BitVec.ofNat 64 (ctzNat 32 a.toNat)
  | .cpopw => BitVec.ofNat 64 (popNat 32 a.toNat)
  | .sextB => (a.extractLsb' 0 8).signExtend 64
  | .sextH => (a.extractLsb' 0 16).signExtend 64
  | .zextH => (a.extractLsb' 0 16).setWidth 64
  | .orcB => BitVec.ofNat 64 (leNat ((regBytes a).map (fun b => if b = 0 then 0 else BitVec.allOnes 8)))
  | .rev8 => BitVec.ofNat 64 (leNat (regBytes a).reverse)

/-- Conditions of the base branches. -/
def branchTaken (o : BranchOp) (a b : DWord) : Bool :=
  match o with
  | .beq => a == b
  | .bne => a != b
  | .blt => a.slt b
  | .bge => !a.slt b
  | .bltu => a.ult b
  | .bgeu => !a.ult b

/-- Bytes of a load or store, and how a loaded value fills the register (R196). -/
def loadSize : LoadKind → Nat
  | .lb | .lbu => 1 | .lh | .lhu => 2 | .lw | .lwu => 4 | .ld => 8
def loadSigned : LoadKind → Bool
  | .lb | .lh | .lw | .ld => true | _ => false
def storeSize : StoreKind → Nat
  | .sb => 1 | .sh => 2 | .sw => 4 | .sd => 8
def loadExtend (k : LoadKind) (x : Nat) : DWord :=
  if loadSigned k then BitVec.ofInt 64 (sext (8 * loadSize k) x) else BitVec.ofNat 64 x

/-- Address of a base load or store. -/
def effAddr (s : State) (rs1 : Reg) (i : BitVec 12) : Nat := (s.rx rs1 + i.signExtend 64).toNat

/-! ## Window references (R220) -/

/-- The fields of a window reference. -/
structure WinRef where
  n : Nat
  rmt : Bool
  tile : Nat
  ev : Bool
  rel : Bool
  space : Bool
  w : Nat
  /-- DIE or TILE above 23 -/
  badTile : Bool
  /-- a reserved bit is set, or a tile field with RMT = 0 -/
  reserved : Bool
deriving DecidableEq, Repr, Inhabited

/-- Key of window `wa` of a launch on a tile: each launch numbers its own windows from 0 (R310, R326; log entry 10). -/
def windowKey (launch a : Nat) : Nat := launch * 64 + a

/-- Number of a window of a tile among those of the package: its tile and its key on that tile. -/
def winNo (t k : Nat) : Nat := (k / 64 * 12288 + t) * 64 + k % 64

/-- Splits a window reference that a task of launch `q` gives on the tile `own`; RMT with the own tile means the own tile
(R220). `w` is the key of the launch's window W. -/
def winRef (q own x : Nat) : WinRef :=
  let die := bitsOf x 27 23
  let cl := bitsOf x 22 19
  let ti := bitsOf x 18 14
  let rmt := bitOf x 31
  let t := die * 512 + cl * 32 + ti
  { n := bitsOf x 63 48
    rmt := rmt && t != own
    tile := if rmt then t else own
    ev := bitOf x 8
    rel := bitOf x 7
    space := bitOf x 6
    w := windowKey q (bitsOf x 5 0)
    badTile := decide (23 < die) || decide (23 < ti)
    reserved := bitsOf x 47 32 != 0 || bitsOf x 30 28 != 0 || bitsOf x 13 9 != 0 || (!rmt && bitsOf x 27 14 != 0) }

/-! ## Other packed words -/

/-- A future handle (R253): generation, cluster, index. -/
structure Handle where
  gen : Nat
  cl : Nat
  idx : Nat
deriving DecidableEq, Repr, Inhabited

def handleOf (x : Nat) : Handle := ⟨bitsOf x 31 21, bitsOf x 20 12, bitsOf x 11 0⟩
def Handle.word (h : Handle) : Nat := h.gen * 2 ^ 21 + h.cl * 2 ^ 12 + h.idx
/-- Key of an entry in the module's future tables. -/
def Handle.key (h : Handle) : Nat := h.cl * 4096 + h.idx

end Sys2Proof.Machine
end

