-- ==== Sys2Proof/Machine/Flags.lean ====
section
/-! DEFINITION. Machine/Flags.lean: the control and status registers of a scalar core (R198): which numbers are defined,
who may reach them, their fields, and their writable bits. A GW24 core has no arithmetic flags. -/

namespace Sys2Proof.Machine

/-- Writable bits of `TILE_TVEC` (R198) and `TILE_MXPEERn` (R182). -/
def tvecMask : DWord := 0xFFFF
def mxpeerMask : DWord := 0x8000FF83

/-- A device CSR that user programs may name. -/
inductive CsrName where
  | cycle | time | instret | tvec | tepc | mxpeer (n : Nat) | tileId | tileTask | trec (n : Nat) | tstat | rsv
deriving DecidableEq, Repr, Inhabited

/-- The CSR of a number, where R198 defines one for user mode. -/
def csrName (n : Nat) : Option CsrName :=
  if n = 0xC00 then some .cycle else if n = 0xC01 then some .time else if n = 0xC02 then some .instret
  else if n = 0x800 then some .tvec else if n = 0x801 then some .tepc
  else if 0x840 ≤ n ∧ n ≤ 0x843 then some (.mxpeer (n - 0x840))
  else if n = 0xCC0 then some .tileId else if n = 0xCC1 then some .tileTask
  else if 0xCC2 ≤ n ∧ n ≤ 0xCC5 then some (.trec (n - 0xCC2))
  else if n = 0xCC6 then some .tstat else if n = 0xCC7 then some .rsv
  else none

/-- CSRs that only the control core may name (R198). -/
def CsrName.ctlOnly : CsrName → Bool
  | .tvec | .tepc | .mxpeer _ | .trec _ | .tstat => true
  | _ => false

/-- CSRs that may be written (R198). -/
def CsrName.writable : CsrName → Bool
  | .tvec | .tepc | .mxpeer _ => true
  | _ => false

/-! ### Machine CSRs (R193, R198): those of the ratified privileged architecture for a core with machine and user modes, and the
tile-monitor registers (log entry 7) -/

def csrMstatus : Nat := 0x300
def csrMtvec : Nat := 0x305
def csrMepc : Nat := 0x341
def csrMcause : Nat := 0x342
def csrMtval : Nat := 0x343

/-- The writable bits of a machine CSR; `none` for a number that is no machine CSR. The bits outside read as they are fixed. -/
def csrMachine (n : Nat) : Option DWord :=
  if n = csrMstatus then some 0x221888
  else if n = 0x304 then some 0x888
  else if n = csrMtvec then some (~~~(2 : DWord))
  else if n = csrMepc then some (~~~(1 : DWord))
  else if n = 0x340 ∨ n = csrMcause ∨ n = csrMtval ∨ n = 0xB00 ∨ n = 0xB02 then some (BitVec.allOnes 64)
  else if 0x7C0 ≤ n ∧ n ≤ 0x7FF then some (BitVec.allOnes 64)
  else if n = 0x301 ∨ n = 0x306 ∨ n = 0x30A ∨ n = 0x320 ∨ n = 0x344 then some 0
  else if (0x323 ≤ n ∧ n ≤ 0x33F) ∨ (0xB03 ≤ n ∧ n ≤ 0xB1F) ∨ (0xF11 ≤ n ∧ n ≤ 0xF15) then some 0
  else none

/-- Read-only CSRs: bits [11:10] of the number are 3. -/
def csrReadOnly (n : Nat) : Bool := bitsOf n 11 10 == 3

/-- Reads a machine CSR of the focused core. -/
def readMach (s : State) (n : Nat) : DWord :=
  if n = csrMstatus then mapGet 0 s.cur.mcsr n ||| 0x200000000
  else if n = 0x301 then 0x8000000000101104
  else if n = 0x306 then 7
  else if n = 0xB00 then BitVec.ofNat 64 (s.tile s.ft).cycle
  else if n = 0xB02 then s.cur.instret
  else if 0xF11 ≤ n ∧ n ≤ 0xF14 then Config.machineId n s.ft s.fc
  else mapGet 0 s.cur.mcsr n

/-- A previous mode that the core has: machine or user. -/
def legalMpp (x : DWord) : DWord := if bitsOf x.toNat 12 11 = 3 then x else x &&& ~~~(0x1800 : DWord)

/-- Writes a machine CSR of the focused core, its fixed bits as they are. -/
def writeMach (s : State) (n : Nat) (x : DWord) : State :=
  let y := x &&& (csrMachine n).getD 0
  if n = 0xB00 then s.modTile s.ft (fun v => { v with cycle := y.toNat })
  else if n = 0xB02 then s.modCur (fun c => { c with instret := y })
  else s.modCur (fun c => { c with mcsr := mapSet 0 c.mcsr n (if n = csrMstatus then legalMpp y else y) })

/-- `TILE_ID` (R198). -/
def tileIdWord (t c : Nat) : DWord := BitVec.ofNat 64 (t * 4 + c)

/-- `TILE_TASK` of a task in a slot (R198). -/
def tileTaskWord (k : Option Task) (slot : Nat) : DWord :=
  match k with
  | none => 0
  | some k => BitVec.ofNat 64 (k.lidx * 2 ^ 16 + slot * 2 ^ 8 + k.prio)

/-- `TILE_RSV` of a task (R198, R233): its tag-table range and its scratchpad reserve. -/
def rsvWord (k : Option Task) : DWord :=
  match k with
  | none => 0
  | some k => BitVec.ofNat 64 (k.tbase * 2 ^ 43 + k.tsize * 2 ^ 32 + (if k.ssize = 0 then 0 else bitsOf k.sbase 20 6 * 2 ^ 6))

def TrapRec.word (r : TrapRec) (n : Nat) : DWord := if n = 0 then r.w0 else if n = 1 then r.w1 else if n = 2 then r.w2 else r.w3

/-- Reads a device CSR of the focused core (R198). -/
def readCsr (s : State) (n : CsrName) : DWord :=
  let v := s.tile s.ft
  match n with
  | .cycle => BitVec.ofNat 64 v.cycle
  | .time => BitVec.ofNat 64 s.time
  | .instret => s.cur.instret
  | .tvec => v.csr.tvec
  | .tepc => v.csr.tepc
  | .mxpeer k => mapGet 0 v.csr.mxpeer k
  | .tileId => tileIdWord s.ft s.fc
  | .tileTask => tileTaskWord (v.task s.fslot) s.fslot
  | .trec k => v.csr.trec.word k
  | .tstat => v.csr.tstat
  | .rsv => rsvWord (v.task s.fslot)

/-- Writes a writable device CSR, reserved bits staying 0 (R198). -/
def writeCsr (s : State) (n : CsrName) (x : DWord) : State :=
  s.modTile s.ft (fun v =>
    match n with
    | .tvec => { v with csr := { v.csr with tvec := x &&& tvecMask } }
    | .tepc => { v with csr := { v.csr with tepc := x } }
    | .mxpeer k => { v with csr := { v.csr with mxpeer := mapSet 0 v.csr.mxpeer k (x &&& mxpeerMask) } }
    | _ => v)

end Sys2Proof.Machine
end

