-- ==== Sys2Proof/Machine/Base.lean ====
section
/-! DEFINITION. Machine/Base.lean: the base profile of a scalar core (R193 to R198): arithmetic, branches, loads and stores,
the CSR forms, the fences and the privileged forms, and instruction fetch. -/

namespace Sys2Proof.Machine

/-! ## Fetch (R197) -/

/-- Whether a byte of the instruction store lies in an execute region: 256 regions of 256 bytes (R34). -/
def fetchable (k : Core) (off : Nat) : Bool := k.imap.getLsbD (off / 256)

/-- Why a byte cannot be fetched, if it cannot (R195, R197, R432). -/
def fetchByteTrap (k : Core) (a : Nat) : Option Trap :=
  if bitsOf a 63 60 ≠ 2 ∨ bitsOf a 59 17 ≠ 0 then some (trapAperture a kSCALAR .read)
  else
    let off := bitsOf a 16 0
    if 0x14000 ≤ off then some (trapAperture a kSCALAR .read)
    else if 0x10000 ≤ off ∨ !fetchable k off then some ⟨cFETCHDATA, off, 0, false⟩
    else if mapGet false k.ipoison (off / 8) then some ⟨cPOISON, a, 0x02, false⟩
    else none

/-- One byte of the instruction store. -/
def imemByte (k : Core) (a : Nat) : Byte := mapGet 0 k.imem (bitsOf a 16 0)

/-- First trap among the bytes of an instruction, in address order. -/
def fetchTrap (k : Core) (a : Nat) : Nat → Option Trap
  | 0 => none
  | n + 1 => match fetchByteTrap k a with
    | some t => some t
    | none => fetchTrap k (a + 1) n

/-- The instruction at an address of a core, with its bytes as a word and its length, or the trap of its fetch. -/
def fetchInstr (k : Core) (a : Nat) : Except Trap (Word × Nat) :=
  match fetchTrap k a 2 with
  | some t => .error t
  | none =>
    let b0 := imemByte k a
    if instrLen b0 = 2 then .ok ((imemByte k (a + 1) ++ b0 : BitVec 16).setWidth 32, 2)
    else match fetchTrap k (a + 2) 2 with
      | some t => .error t
      | none => .ok (imemByte k (a + 3) ++ imemByte k (a + 2) ++ imemByte k (a + 1) ++ b0, 4)

/-- The instruction of a fetched word. -/
def decodeFetched (w : Word) (len : Nat) : Instr := if len = 2 then decodeHalf (w.setWidth 16) else decodeWord w

/-- A fetched instruction stands in the focused core. -/
def latch (s : State) (w : Word) (len : Nat) : State := s.modCur (fun k => { k with iword := w, ilen := len })

/-- INSTRUCTION_FETCH (R197): the core named fetches at its pc; a core that is not running fetches nothing. -/
def execInstructionFetch (t c : Nat) (s : State) : Host.Outcome State Fault Refusal :=
  let s1 := { s with focus := (t, c) }
  if s1.cur.stat != .run then .next s1
  else match fetchInstr s1.cur s1.cur.pc.toNat with
    | .error tr => .next (raiseFetch s1 tr)
    | .ok (w, len) => .next (latch s1 w len)

/-- What the machine does next (log entry 6): the unit step that heads the agenda, on the rest of the agenda; with an empty
agenda, the instruction that the focused core fetches at its pc while time passes; nothing, where that core is not running
or its fetch traps. -/
def nextInstr (s : State) : Option Instr × State :=
  match s.agenda with
  | i :: rest => (some i, { s with agenda := rest })
  | [] =>
    if s.cur.stat != .run then (none, tick s)
    else match fetchInstr s.cur s.cur.pc.toNat with
      | .error tr => (none, raiseFetch (tick s) tr)
      | .ok (w, len) => (some (decodeFetched w len), latch (tick s) w len)

/-- The focused core runs at the first byte of its instruction store, an execute region, on these bytes; no unit step
stands before it (log entry 6). -/
def placeBytes (s : State) (bs : List Byte) : State :=
  { s with agenda := [] }.modCur (fun k =>
    { k with
      imem := putBytes k.imem 0 bs
      imap := k.imap ||| 1
      pc := BitVec.ofNat 64 coreBase
      stat := .run
      blocked := false
      held := none })

/-! ## Arithmetic and control flow (R193) -/

/-- BASE_INSTRUCTION (R193): the base operations; an unassigned encoding raises `ILLEGAL` (R194). -/
def execBaseInstruction (op : BaseOp) (s : State) : Host.Outcome State Fault Refusal :=
  perform <| match op with
  | .reg o rd rs1 rs2 => .ret s rd (regOp o (s.rx rs1) (s.rx rs2))
  | .imm o rd rs1 i => .ret s rd (immOp o (s.rx rs1) i)
  | .shift o rd rs1 sh => .ret s rd (shiftImm o (s.rx rs1) sh)
  | .un o rd rs1 => .ret s rd (unOp o (s.rx rs1))
  | .lui rd i => .ret s rd ((i ++ 0#12).signExtend 64)
  | .auipc rd i => .ret s rd (s.cur.pc + (i ++ 0#12).signExtend 64)
  | .jal rd off =>
    .go ((s.wx rd (s.cur.pc + BitVec.ofNat 64 s.cur.ilen)).modCur (fun k => k.jumpTo (s.cur.pc + off.signExtend 64)))
  | .jalr rd rs1 i =>
    .go ((s.wx rd (s.cur.pc + BitVec.ofNat 64 s.cur.ilen)).modCur
      (fun k => k.jumpTo ((s.rx rs1 + i.signExtend 64) &&& ~~~(1 : DWord))))
  | .branch o rs1 rs2 off =>
    if branchTaken o (s.rx rs1) (s.rx rs2) then .go (s.modCur (fun k => k.jumpTo (s.cur.pc + off.signExtend 64)))
    else .done s
  | .reserved _ => .illegal s

/-! ## Loads and stores (R195, R196) -/

/-- What stands at a core address (R195). -/
inductive CoreMem where
  | imem (off : Nat) | dmem (off : Nat) | bad | generic
deriving DecidableEq, Repr, Inhabited

/-- Decodes a core address of `n` bytes (R195). An aligned access of at most 8 bytes lies within one memory. -/
def coreMem (a : Nat) : CoreMem :=
  if bitsOf a 63 60 ≠ 2 then .generic
  else if bitsOf a 59 17 ≠ 0 then .bad
  else
    let off := bitsOf a 16 0
    if off < 0x10000 then .imem off else if off < 0x14000 then .dmem (off - 0x10000) else .bad

/-- Bytes of a private memory. -/
def privBytes (m : List (Nat × Byte)) (off n : Nat) : List Byte := (List.range n).map (fun i => mapGet 0 m (off + i))

/-- Ends an access by the focused core whose translation failed: held on `NOTPRESENT`, else a trap (R57, R60). -/
def xlateFail (s : State) (tr : Trap) : Act := if tr.cause = cNOTPRESENT then .hold tr s else .trap tr s

/-- SCALAR_LOAD (R195, R196). -/
def execScalarLoad (k : LoadKind) (rd rs1 : Reg) (i : BitVec 12) (s : State) : Host.Outcome State Fault Refusal :=
  let a := effAddr s rs1 i
  perform <|
    if a % (loadSize k) ≠ 0 then .align s a (loadSize k)
    else match coreMem a with
    | .bad => .trap (trapAperture a kSCALAR .read) s
    | .imem off =>
      if mapGet false s.cur.ipoison (off / 8) then .trap ⟨cPOISON, a, 0x02, false⟩ s
      else .ret s rd (loadExtend k (leNat (privBytes s.cur.imem off (loadSize k))))
    | .dmem off =>
      if mapGet false s.cur.dpoison (off / 8) then .trap ⟨cPOISON, a, 0x03, false⟩ s
      else .ret s rd (loadExtend k (leNat (privBytes s.cur.dmem off (loadSize k))))
    | .generic =>
      let x := s.find s.who a (loadSize k) .read
      let s1 := s.cache x
      match x.res with
      | .error tr => xlateFail s1 tr
      | .ok ps =>
        match s1.poisonedPart ps with
        | some p => .trap ⟨cPOISON, a, arrayId p, false⟩ s1
        | none => .ret (ownMoment s1 ps) rd (loadExtend k (leNat (s1.readParts s1.who.obs ps)))

/-- Writes bytes into the data memory of the focused core: a whole protection word clears its poison, a part of a poisoned one leaves it poisoned
and logs the error (R432, R458); an armed injection acts on them (R434). -/
def storeDmem (s : State) (off : Nat) (bs : List Byte) : State :=
  let d := s.ft / 512
  let ctx := s.taskCtx s.ft s.fslot
  let a := dmemPlace s.ft s.fc + off
  let s0 := if bs.length < 8 ∧ mapGet false s.cur.dpoison (off / 8) = true then s.logAt d 0x03 s.ft ctx (a / 8 * 8) 2 else s
  let s1 := s0.modCur (fun k =>
    { k with
      dmem := putBytes k.dmem off bs
      dpoison := if bs.length = 8 then mapSet false k.dpoison (off / 8) false else k.dpoison })
  let r := strike s1 d 0x03 s.ft ctx a bs.length
  if r.1.isSome then r.2.modCur (fun c => { c with dpoison := mapSet false c.dpoison (off / 8) true }) else r.2

/-- SCALAR_STORE (R195, R196): a weak store (R387); the instruction store refuses it. -/
def execScalarStore (k : StoreKind) (rs1 rs2 : Reg) (i : BitVec 12) (s : State) : Host.Outcome State Fault Refusal :=
  let a := effAddr s rs1 i
  let bs := leBytes (storeSize k) (s.rn rs2)
  perform <|
    if a % (storeSize k) ≠ 0 then .align s a (storeSize k)
    else match coreMem a with
    | .bad => .trap (trapAperture a kSCALAR .write) s
    | .imem _ => .trap (trapPermission a kSCALAR .write false) s
    | .dmem off => .done (storeDmem s off bs)
    | .generic =>
      let x := s.find s.who a (storeSize k) .write
      let s1 := s.cache x
      match x.res with
      | .error tr => xlateFail s1 tr
      | .ok ps => .done (s1.store s1.who a ps bs)

/-! ## CSR forms, fences and the privileged forms (R194, R198) -/

/-- The new value that a CSR form writes, if it writes. -/
def csrWrite (k : CsrKind) (src : Reg) (x old : DWord) : Option DWord :=
  let u : DWord := src.setWidth 64
  match k with
  | .rw => some x
  | .rs => if src = 0 then none else some (old ||| x)
  | .rc => if src = 0 then none else some (old &&& ~~~x)
  | .rwi => some u
  | .rsi => if src = 0 then none else some (old ||| u)
  | .rci => if src = 0 then none else some (old &&& ~~~u)

/-- CSR_ACCESS (R198). -/
def execCsrAccess (k : CsrKind) (rd src : Reg) (csr : BitVec 12) (s : State) : Host.Outcome State Fault Refusal :=
  perform <|
    match csrName csr.toNat with
    | some n =>
      let old := readCsr s n
      let new := csrWrite k src (s.rx src) old
      if n.ctlOnly && s.fc != 0 then .illegal s
      else if new.isSome && !n.writable then .illegal s
      else .ret (match new with | some x => writeCsr s n x | none => s) rd old
    | none =>
      if !s.cur.machine || (csrMachine csr.toNat).isNone then .illegal s
      else
        let old := readMach s csr.toNat
        let new := csrWrite k src (s.rx src) old
        if new.isSome && csrReadOnly csr.toNat then .illegal s
        else .ret (match new with | some x => writeMach s csr.toNat x | none => s) rd old

/-- FENCE (R194): `fence`, `fence.tso` and `fence.i` are no operation. -/
def execFence (_k : FenceKind) (s : State) : Host.Outcome State Fault Refusal := perform (.done s)

/-- ECALL (R194): in user mode each of the five raises `ILLEGAL`. In machine mode, which only the tile monitor enters (R193),
`ecall` and `mret` act as the privileged architecture has them and the others, which name modes and units the core lacks, do
nothing or raise `ILLEGAL` (log entry 7). -/
def execEcall (k : PrivKind) (s : State) : Host.Outcome State Fault Refusal :=
  perform <|
    if !s.cur.machine then .illegal s
    else match k with
    | .ecall => .go (s.modCur (fun c => c.machineTrap 11 0))
    | .mret => .go (s.modCur Core.machineReturn)
    | .wfi => .done s
    | .sret | .sfenceVma => .illegal s

/-- The trap of `BREAK` with a code (R289). -/
def tBreak (code : Nat) : Trap := ⟨cBREAK, code % 2 ^ 16, 0, false⟩

/-- EBREAK (R194, R289): as `sys.brk`. -/
def execEbreak (s : State) : Host.Outcome State Fault Refusal := perform (.trap (tBreak 0) s)

end Sys2Proof.Machine
end

