-- ==== Sys2Proof/Machine/Image.lean ====
section
/-! DEFINITION. Machine/Image.lean: region images: their parts, and every check that the load makes of them (R71 to R95,
R125, R146, R174, R185, R186). -/

namespace Sys2Proof.Machine

/-! ## A parsed image (R87 to R91) -/

structure Img where
  hdr : RegionHdr
  decls : List ElemDecl
  /-- each row: its header and its element words in order of e -/
  body : List (Nat × List ElemWord)
  steps : List QWord
deriving DecidableEq, Repr, Inhabited

/-- A failed check, as a `CFGREJECT` record names it (R428): structure, position in the list, row, element, lowest bit of the
failing field. -/
structure Rej where
  st : Nat
  pos : Nat
  row : Nat
  e : Nat
  bit : Nat
deriving DecidableEq, Repr, Inhabited

/-- The trap of a failed check, with the scratchpad address of what was presented (R428). -/
def Rej.trap (r : Rej) (addr : Nat) : Trap :=
  ⟨cCFGREJECT, r.e % 256 + 2 ^ 8 * (r.row % 32) + 2 ^ 16 * r.pos +
    2 ^ 24 * (if r.bit < 128 then r.bit else Config.cfgBit r.bit % 128) + 2 ^ 31 * r.st, addr, false⟩

/-- The fields of an image header. -/
def parseImgHdr (bs : List Byte) : RegionHdr :=
  let f := fieldAt bs
  ⟨f 0 1, f 1 1, f 2 1, f 3 1 == 1, f 4 1, f 5 1, f 6 1, f 7 1, f 8 1, f 9 1, f 0x0A 1⟩

/-- Whether a number is one of four fabric coordinates. -/
def oneOf (x : Nat) (l : List Nat) : Bool := l.contains x

/-- Lowest bit of the first header field outside its values (R85, R87). -/
def imgHdrFail (bs : List Byte) : Option Nat :=
  let f := fieldAt bs
  let h := parseImgHdr bs
  firstFail [
    (8, decide (h.plane ≤ 1)), (16, 1 ≤ h.rows && h.rows ≤ 32), (24, decide (f 3 1 ≤ 1)),
    (32, oneOf h.orow [0, 4, 8, 12]), (40, oneOf h.ocol [0, 4, 8, 12]),
    (48, oneOf h.height [4, 8, 12, 16] && decide (h.orow + h.height ≤ 16) && (!h.matrix || h.height == 16)),
    (56, oneOf h.width [4, 8, 12, 16] && decide (h.ocol + h.width ≤ 16) && (!h.matrix || h.width == 16)),
    (64, 1 ≤ h.lcMask && h.lcMask ≤ 15), (72, decide (h.conf ≤ 254)),
    (80, if h.matrix then 1 ≤ h.stepCount && h.stepCount ≤ 32 else h.stepCount == 0), (88, f 0x0B 1 == 0),
    (96, f 0x0C 4 % 4 == 0), (128, f 0x10 4 % 4 == 0), (192, f 0x18 4 % 8 == 0 && (h.matrix || f 0x18 4 == 0)),
    (224, f 0x1C 4 == 0)]

/-! ## Declarations (R88) -/

/-- Stage counts of the declared delay lines of a record. -/
def declStages (r : List Byte) : List Nat := (List.range (fieldAt r 1 1 % 8)).map (fun k => fieldAt r (2 + k) 1)

/-- Lowest bit of the first field of a declaration record outside its values. -/
def declFail (r : List Byte) : Option Nat :=
  let b0 := fieldAt r 0 1
  let n := fieldAt r 1 1 % 8
  firstFail ([(0, b0 % 16 != 0), (4, (b0 % 16) &&& (b0 / 16) == 0), (8, decide (n ≤ 4)), (11, fieldAt r 1 1 / 8 == 0)] ++
    (List.range 4).map (fun k =>
      let x := fieldAt r (2 + k) 1
      (16 + 8 * k, if k < n then 1 ≤ x && x ≤ 16 else x == 0)) ++ [(48, fieldAt r 6 2 == 0)])

/-- Values of a preload, 5 bytes each. -/
def preloadVal (bs : List Byte) (i : Nat) : TVal :=
  ⟨BitVec.ofNat 32 (fieldAt bs (5 * i) 4), BitVec.ofNat 8 (fieldAt bs (5 * i + 4) 1)⟩

/-- Whether a preload's tag is allowed: a valid code or EMPTY, bit 6 clear. -/
def preloadOk (v : TVal) : Bool := !bitOf v.tag.toNat 6 && (if v.code = 0 then v.tag == 0 else fmtValid v.code)

/-- The lines of one element, taken from its preloads: the lines, and how many values they use. -/
def takeLines (bs : List Byte) : Nat → List Nat → List (List TVal) × Nat
  | i, [] => ([], i)
  | i, n :: ns =>
    let r := takeLines bs (i + n) ns
    ((List.range n).map (fun j => preloadVal bs (i + j)) :: r.1, r.2)

/-- The declarations of all elements, with their preloads in order. -/
def takeDecls (pre : List Byte) : Nat → List (List Byte) → List ElemDecl
  | _, [] => []
  | i, r :: rs =>
    let l := takeLines pre i (declStages r)
    ⟨fieldAt r 0 1 % 16, fieldAt r 0 1 / 16, l.1⟩ :: takeDecls pre l.2 rs

/-! ## The row stream (R90) -/

/-- The element words of a row from its codes and literals: the words, and the rest of the stream; `none` where a code stands
in a forbidden place or a literal is missing, with the element. -/
def takeWords (codes : Nat) (prev : Option (List ElemWord)) :
    Nat → Nat → Option ElemWord → List Byte → Except Nat (List ElemWord × List Byte)
  | 0, _, _, bs => .ok ([], bs)
  | n + 1, e, left, bs =>
    let c := codes / 4 ^ e % 4
    let step (w : ElemWord) (rest : List Byte) : Except Nat (List ElemWord × List Byte) :=
      match takeWords codes prev n (e + 1) (some w) rest with
      | .error x => .error x
      | .ok (ws, r) => .ok (w :: ws, r)
    if c = 0 then step 0 bs
    else if c = 1 then
      (if bs.length < 12 then .error e else step (BitVec.ofNat 96 (leNat (bs.take 12))) (bs.drop 12))
    else if c = 2 then
      (match prev with
        | some p => step (p.getD e 0) bs
        | none => .error e)
    else match left with
      | some w => step w bs
      | none => .error e

/-- Rows of the stream: header, code map when compressed, literals. -/
def takeRows (hw : Nat) (compressed : Bool) :
    Nat → Nat → Option (List ElemWord) → List Byte → Except (Nat × Nat) (List (Nat × List ElemWord))
  | 0, row, _, bs => if bs.isEmpty then .ok [] else .error (row, 0)
  | n + 1, row, prev, bs =>
    let mapLen := if compressed then hw / 4 else 0
    if bs.length < 4 + mapLen then .error (row, 0)
    else
      let codes := if compressed then leNat ((bs.drop 4).take mapLen) else (4 ^ hw - 1) / 3
      match takeWords codes prev hw 0 none (bs.drop (4 + mapLen)) with
      | .error e => .error (row, e)
      | .ok (ws, rest) =>
        match takeRows hw compressed n (row + 1) (some ws) rest with
        | .error x => .error x
        | .ok rows => .ok ((fieldAt bs 0 4, ws) :: rows)

/-- Parses an image whose bytes a reader gives (offset and length; fewer bytes where the image ends). -/
def parseImg (rd : Nat → Nat → List Byte) (compressed : Bool) (pos : Nat) : Except Rej Img :=
  let hb := rd 0 32
  if hb.length < 32 then .error ⟨2, pos, 0, 0, 0⟩
  else match imgHdrFail hb with
  | some b => .error ⟨2, pos, 0, 0, b⟩
  | none =>
    let h := parseImgHdr hb
    let hw := h.height * h.width
    let db := rd (fieldAt hb 0x0C 4) (8 * hw)
    let recs := (List.range hw).map (fun e => (db.drop (8 * e)).take 8)
    if db.length < 8 * hw then .error ⟨2, pos, 0, 0, 96⟩
    else match (recs.zipIdx.findSome? (fun r => (declFail r.1).map (fun b => (r.2, b)))) with
    | some (e, b) => .error ⟨3, pos, 0, e, b⟩
    | none =>
      let total := (recs.map (fun r => (declStages r).foldl (· + ·) 0)).foldl (· + ·) 0
      let pre := rd (fieldAt hb 0x0C 4 + 8 * hw) (5 * total)
      let decls := takeDecls pre 0 recs
      if pre.length < 5 * total then .error ⟨2, pos, 0, 0, 96⟩
      else match decls.zipIdx.find? (fun d => d.1.lines.any (fun l => l.any (fun v => !preloadOk v))) with
      | some (_, e) => .error ⟨3, pos, 0, e, 64⟩
      | none =>
        let rb := rd (fieldAt hb 0x10 4) (fieldAt hb 0x14 4)
        if rb.length < fieldAt hb 0x14 4 then .error ⟨2, pos, 0, 0, 128⟩
        else match takeRows hw compressed h.rows 0 none rb with
        | .error (row, e) => .error (if row < h.rows then ⟨0, pos, row, e, 0⟩ else ⟨2, pos, 0, 0, 160⟩)
        | .ok body =>
          let sb := rd (fieldAt hb 0x18 4) (16 * h.stepCount)
          if sb.length < 16 * h.stepCount then .error ⟨2, pos, 0, 0, 192⟩
          else .ok ⟨h, decls, body, (List.range h.stepCount).map (fun i => BitVec.ofNat 128 (leNat ((sb.drop (16 * i)).take 16)))⟩

/-! ## Which fields an opcode accepts (R125, R142 to R146) -/

def fmtNum (f : Nat) : Bool := fmtIsFloat f || fmtIsInt f || fmtIsB8 f

/-- FMT codes an opcode accepts. -/
def opFmtOk (o f : Nat) : Bool :=
  if o == opNOP then f == 0
  else if o == opMOV then f == 0 || fmtValid f
  else if o == opCONST then fmtNum f
  else if o == opSINK then f == 0 || fmtNum f
  else if o ≤ 0x1B then fmtIsInt f
  else if o ≤ 0x24 then fmtNum f
  else if o ≤ 0x30 then fmtIsInt f
  else if o == 0x31 then fmtIsFloat f || fmtIsB8 f
  else if o == opSEL then fmtValid f
  else if o == 0x33 then fmtNum f
  else if o ≤ 0x45 then fmtIsFloat f
  else if o ≤ 0x48 then fmtIsFloat f || fmtIsB8 f
  else if o == 0x49 then fmtIsFloat f || (fmtIsB8 f && bitOf f 4)
  else if o ≤ 0x55 then fmtIsFloat f
  else if o == 0x60 then fmtNum f
  else if o == 0x61 then f == fmtBF16 || f == fmtFP16 || f == fmtINT16
  else if o == 0x62 then f == fmtINT8 || f == fmtUINT8 || fmtIsB8 f
  else if o == 0x63 then fmtNum f && fmtWidth f != 32
  else if o == 0x64 then fmtIsFloat f
  else if o == 0x65 then fmtNum f
  else if o ≤ 0x71 then f == fmtBF16 || f == fmtFP16 || fmtIsB8 f
  else if o == 0x72 then f == fmtFP32
  else if opMatrix o then f == fmtBF16 || f == fmtFP16 || f == fmtINT8 || f == fmtUINT8 || fmtIsB8 f
  else if o == opSTEEP then fmtIsFloat f || fmtIsB8 f
  else f == fmtFP32

/-- Opcodes that take a rounding mode. -/
def opTakesRnd (o cv : Nat) : Bool :=
  (0x40 ≤ o && o ≤ 0x45) || (0x50 ≤ o && o ≤ 0x55) || o == 0x60 || o == 0x64 || o == 0x65 || (o == 0x72 && cv != 0) ||
    o == opSTEEP

/-- Opcodes that take SAT. -/
def opTakesSat (o cv : Nat) : Bool := opTakesRnd o cv || (0x10 ≤ o && o ≤ 0x12) || (0x15 ≤ o && o ≤ 0x17)

/-- CV values an opcode accepts under a format. -/
def opCvOk (o f cv : Nat) : Bool :=
  if o == opCONST || o == opSINK || opMatrix o then decide (cv ≤ 3)
  else if o == opEXIT || o == 0x70 then decide (cv ≤ 1)
  else if o == 0x30 then decide (cv ≤ 9)
  else if o == 0x31 then decide (cv ≤ 7)
  else if o == 0x60 || o == 0x64 then fmtNum cv
  else if o == 0x65 then fmtIsFloat cv
  else if o == 0x63 then decide (cv < fmtLanes f)
  else if o == 0x72 then decide (cv ≤ 2)
  else if o == opSTEEP || o == opESCL then cv == fmtPW16 || cv == fmtPW32
  else cv == 0

/-! ## Element words (R72 to R83) -/

/-- Where an element stands: the image, its fabric row and column, its declaration, its row's header and the ports bound for
the configuration, inbound and outbound. -/
structure Place where
  h : RegionHdr
  r : Nat
  c : Nat
  d : ElemDecl
  rh : Nat
  ins : List Nat
  outs : List Nat

/-- An element of the control network (R73). -/
def Place.ctlNet (p : Place) : Bool := p.r == 0 || p.r == 15 || p.c == 0 || p.c == 15

/-- Whether a neighbour lies in the same region: 0 north, 1 east, 2 south, 3 west. -/
def Place.inside (p : Place) (dir : Nat) : Bool :=
  if dir = 0 then decide (p.h.orow < p.r)
  else if dir = 1 then decide (p.c + 1 < p.h.ocol + p.h.width)
  else if dir = 2 then decide (p.r + 1 < p.h.orow + p.h.height)
  else decide (p.h.ocol < p.c)

/-- Whether a selector code is valid at an element under a format (R73). -/
def Place.selOk (p : Place) (f code : Nat) : Bool :=
  if code < 16 then bitOf p.d.live (code / 4)
  else if code < 20 then p.inside (code - 16)
  else if code < 24 then true
  else if code < 28 then decide (code - 23 ≤ p.d.lines.length)
  else if code < 32 then p.ctlNet
  else if code < 36 then p.c == 0 && p.ins.contains (code - 32)
  else if code < 40 then p.r == 0 && p.ins.contains (code - 32)
  else if code = 48 then f != 0
  else if code = 49 then true
  else if code = 50 || code = 51 then fmtIsInt f
  else false

/-- The port that a route field targets, if it targets one (R80). -/
def Place.routePort (p : Place) (dir ch : Nat) : Option Nat :=
  if p.inside dir then none
  else if dir = 1 ∧ p.c = 15 then some (8 + ch)
  else if dir = 2 ∧ p.r = 15 then some (12 + ch)
  else none

/-- Whether a route field is valid (R79, R80). -/
def Place.routeOk (p : Place) (rt dir : Nat) : Bool :=
  if rtSRC rt = 0 then rt == 0
  else p.inside dir || (match p.routePort dir (rtCH rt) with | some q => p.outs.contains q | none => false)

/-- Ports and control tokens the word reads, as header bits; ports it drives; the sink it writes (R83). -/
def Place.holdBits (p : Place) (w : ElemWord) : List Nat :=
  ((ewReads w).filterMap (fun c => if 28 ≤ c ∧ c < 32 then some (20 + (c - 28)) else if 32 ≤ c ∧ c < 40 then some (4 + (c - 32)) else none)) ++
    ((List.range 4).filterMap (fun dir =>
      if rtSRC (ewRoute w dir) = 0 then none else (p.routePort dir (rtCH (ewRoute w dir))).map (fun q => 4 + q))) ++
    (if ewOpc w = opSINK then [24 + ewCV w % 4] else [])

/-- Whether the word reads an inbound port (R81). -/
def readsPort (w : ElemWord) : Bool := (ewReads w).any (fun c => 32 ≤ c && c < 40)

/-- Lowest bit of the first field of an element word that the load rejects; a row-header bit is told apart by the first
component (R71 to R84, R125 to R130, R146). -/
def Place.wordFail (p : Place) (w : ElemWord) : Option (Bool × Nat) :=
  let o := ewOpc w
  let f := ewFMT w
  let reads := ewReads w
  let n := if opReads o (ewCV w) = 0 then (if ewRouteReadsA w then 1 else 0) else opReads o (ewCV w)
  let sel (s : Nat) : Bool := if s < n then p.selOk f (ewSel w s) else ewSel w s == 0 || ewSel w s == 49
  let holds := p.holdBits w
  let noRes := !opHasResult o
  match firstFail [
    (88, opValid o && (if p.h.matrix then o == opNOP || opMatrix o else !opMatrix o)),
    (2, ewRsv w == 0), (59, opFmtOk o f), (57, ewRND w == 0 || opTakesRnd o (ewCV w)), (56, !ewSAT w || opTakesSat o (ewCV w)),
    (49, opCvOk o f (ewCV w) && (!opMatrix o || bitOf p.d.live (ewCV w % 4))),
    (82, sel 0 && (o != opCONST || ewSA w == 48)), (76, sel 1), (70, sel 2),
    (65, !(noRes && ewWE w)), (66, if ewWE w then bitOf p.d.live (ewDST w / 4) else ewDST w == 0),
    (33, if reads.contains 48 then o == opCONST || fmtWidth f != 8 || decide (ewIMM w < 256) else ewIMM w == 0),
    (26, p.routeOk (ewRoute w 0) 0 && !(p.h.matrix && ewRoute w 0 != 0)),
    (19, p.routeOk (ewRoute w 1) 1 && !(p.h.matrix && ewRoute w 1 != 0)),
    (12, p.routeOk (ewRoute w 2) 2 && !(p.h.matrix && ewRoute w 2 != 0)),
    (5, p.routeOk (ewRoute w 3) 3 && !(p.h.matrix && ewRoute w 3 != 0)),
    (1, if o = opEXIT then ewXARM w else !ewXARM w || readsPort w),
    (0, if p.h.matrix then !ewHARM w else ewHARM w || holds.isEmpty)] with
  | some b => some (false, b)
  | none =>
    if o = opSINK ∧ !p.ctlNet then some (false, 88)
    else match holds.find? (fun b => !bitOf p.rh b) with
    | some b => some (true, if 24 ≤ b then 24 else if 20 ≤ b then 20 else 4)
    | none => none

/-- Lowest bit of the first field of a row header that the load rejects (R82, R83). -/
def rowHdrFail (h : RegionHdr) (rh : Nat) : Option Nat :=
  firstFail [(30, bitsOf rh 31 30 == 0), (28, bitOf h.lcMask (rhCTX rh)), (24, !h.matrix || bitsOf rh 27 24 == 0),
    (20, !h.matrix || bitsOf rh 23 20 == 0), (4, !h.matrix || bitsOf rh 19 4 == 0), (0, rh % 16 == 0)]

/-! ## Step rows (R174, R177 to R186) -/

/-- Formats of an array operand. -/
def mxFmt (f : Nat) : Bool := f == fmtBF16 || f == fmtFP16 || f == fmtINT8 || f == fmtUINT8 || fmtIsB8 f

/-- Bodies of an inner (level-0) and an outer (level-1) loop, first and last row: they lie apart, the outer one holds the inner
one, or the inner one starts before the outer one and holds it (R185). -/
def loopsNest (inner outer : Nat × Nat) : Bool :=
  decide (inner.2 < outer.1) || decide (outer.2 < inner.1) || (decide (outer.1 ≤ inner.1) && decide (inner.2 ≤ outer.2)) ||
    (decide (inner.1 < outer.1) && decide (outer.2 ≤ inner.2))

/-- Loops of a table: level, first row, last row. -/
def stepLoops (steps : List QWord) : List (Nat × Nat × Nat) :=
  steps.zipIdx.filterMap (fun s => match decodeStepRow s.1 with
    | some (.loop target lvl _ _ _ _ _ _ _) => some (lvl.toNat, target.toNat, s.2)
    | _ => none)

/-- Lowest bit of the first field of a step row that the load rejects. -/
def stepFail (rows : Nat) (steps : List QWord) (i : Nat) (w : QWord) : Option Nat :=
  let isEnd (x : QWord) : Bool := decodeStepRow x == some .fin
  match decodeStepRow w with
  | none => some (if 1 ≤ w.toNat / 2 ^ 124 ∧ w.toNat / 2 ^ 124 ≤ 8 then 0 else 124)
  | some r =>
    firstFail ([(124, i + 1 != steps.length || isEnd w)] ++ (match r with
    | .step wrow _ abase cnt _ _ _ => [(119, decide (wrow.toNat < rows)), (98, decide (abase.toNat + cnt.toNat ≤ 1023))]
    | .load wrow _ wfmt _ => [(119, decide (wrow.toNat < rows)), (100, mxFmt wfmt.toNat)]
    | .steep wrow _ _ tfmt _ _ _ =>
      [(119, decide (wrow.toNat < rows)), (99, tfmt == 2 || tfmt == 3 || fmtIsB8 tfmt.toNat)]
    | .drain dst _ abase cnt daddr dfmt rnd sat pidx limit =>
      [(102, decide (abase.toNat + cnt.toNat ≤ 1023)), (87, dst == 0 || daddr == 0),
        (81, if dst = 0 then 1 ≤ dfmt.toNat && dfmt.toNat ≤ 4 else dfmt == 0), (79, dst == 0 || rnd == 0), (78, dst == 0 || sat == 0),
        (76, dst == 1 || pidx == 0), (43, dst == 1 || limit == 0)]
    | .zero abase cnt _ => [(102, decide (abase.toNat + cnt.toNat ≤ 1023))]
    | .wait kind abase cnt slot pidx limit =>
      let f := kind == 0
      [(122, decide (kind.toNat ≤ 1)), (112, f || abase == 0), (102, if f then decide (abase.toNat + cnt.toNat ≤ 1023) else cnt == 0),
        (100, f || slot == 0), (98, f || pidx == 0), (74, f || limit == 0)]
    | .loop target lvl _ _ _ _ _ _ _ =>
      let me := (target.toNat, i)
      let others := (stepLoops steps).filter (fun l => l.2.2 != i)
      [(119, decide (target.toNat < i) && !((steps.drop target.toNat).take (i - target.toNat)).any isEnd &&
        others.all (fun l =>
          if l.1 = lvl.toNat then decide (l.2.2 < me.1) || decide (me.2 < l.2.1)
          else if lvl = 0 then loopsNest me l.2 else loopsNest l.2 me))]
    | .fin => []))

/-! ## Whole images and configurations (R80, R85, R129) -/

/-- Fabric row and column of element e. -/
def Img.at (m : Img) (e : Nat) : Nat × Nat := (m.hdr.orow + e / m.hdr.width, m.hdr.ocol + e % m.hdr.width)

/-- The place of an element in a row. -/
def Img.place (m : Img) (ins outs : List Nat) (rh e : Nat) : Place :=
  ⟨m.hdr, (m.at e).1, (m.at e).2, m.decls.getD e ⟨0, 0, []⟩, rh, ins, outs⟩

/-- Landing key of a route: an inbound channel of an element, or a port. -/
def landing (p : Place) (dir ch : Nat) : Nat :=
  if p.inside dir then
    let r := if dir = 0 then p.r - 1 else if dir = 2 then p.r + 1 else p.r
    let c := if dir = 1 then p.c + 1 else if dir = 3 then p.c - 1 else p.c
    (r * 16 + c) * 4 + ch
  else 1024 + (if dir = 1 then 8 + ch else 12 + ch)

/-- Every route of an image: landing key, landing row, then the driving row, element and field bit. -/
def Img.routes (m : Img) (ins outs : List Nat) : List (Nat × Nat × Nat × Nat × Nat) :=
  (m.body.zipIdx.map (fun row => (row.1.2.zipIdx.map (fun w =>
    (List.range 4).filterMap (fun dir =>
      let rt := ewRoute w.1 dir
      if rtSRC rt = 0 then none
      else some (landing (m.place ins outs row.1.1 w.2) dir (rtCH rt), (row.2 + 1 + rtDLY rt) % m.hdr.rows, row.2, w.2,
        26 - 7 * dir)))).flatten)).flatten

/-- First pair of routes that land on one key in one row: the later one. -/
def firstClash : List (Nat × Nat × Nat × Nat × Nat) → Option (Nat × Nat × Nat)
  | [] => none
  | x :: r => match r.find? (fun y => y.1 == x.1 && y.2.1 == x.2.1) with
    | some y => some y.2.2
    | none => firstClash r

/-- First element of a row that repeats the sink of an earlier one (R129). -/
def sinkClash : List (ElemWord × Nat) → Option Nat
  | [] => none
  | (w, _) :: r =>
    if ewOpc w = opSINK then
      (match r.find? (fun y => ewOpc y.1 == opSINK && ewCV y.1 % 4 == ewCV w % 4) with
        | some y => some y.2
        | none => sinkClash r)
    else sinkClash r

/-- First `MMAC` of a word row whose FMT differs from an earlier one's (R174). -/
def mmacClash (ws : List (ElemWord × Nat)) : Option Nat :=
  let ms := ws.filter (fun w => ewOpc w.1 == opMMAC)
  (ms.find? (fun w => match ms with | [] => false | x :: _ => ewFMT w.1 != ewFMT x.1)).map (·.2)

/-- The checks of one image. -/
def Img.check (m : Img) (pos : Nat) (ins outs : List Nat) : Option Rej :=
  let rowFail (row : (Nat × List ElemWord) × Nat) : Option Rej :=
    match rowHdrFail m.hdr row.1.1 with
    | some b => some ⟨1, pos, row.2, 0, b⟩
    | none =>
      match row.1.2.zipIdx.findSome? (fun w => ((m.place ins outs row.1.1 w.2).wordFail w.1).map (fun b => (w.2, b))) with
      | some (e, hdr, b) => some ⟨if hdr then 1 else 0, pos, row.2, e, b⟩
      | none =>
        match sinkClash row.1.2.zipIdx with
        | some e => some ⟨0, pos, row.2, e, 49⟩
        | none => (mmacClash row.1.2.zipIdx).map (fun e => ⟨0, pos, row.2, e, 59⟩)
  match m.body.zipIdx.findSome? rowFail with
  | some r => some r
  | none =>
    match firstClash (m.routes ins outs) with
    | some (row, e, bit) => some ⟨0, pos, row, e, bit⟩
    | none =>
      m.steps.zipIdx.findSome? (fun s => (stepFail m.hdr.rows m.steps s.2 s.1).map (fun b => ⟨4, pos, s.2, 0, b⟩))

/-- Whether two rectangles overlap. -/
def rectsOverlap (a b : RegionHdr) : Bool :=
  a.orow < b.orow + b.height && b.orow < a.orow + a.height && a.ocol < b.ocol + b.width && b.ocol < a.ocol + a.width

/-- A rule over the images of a configuration as an image header field: the first image that breaks it, by what stands before
it in the list. -/
def configRule (ms : List Img) (bit : Nat) (breaks : List Img → Img → Bool) : Option Rej :=
  (ms.zipIdx.find? (fun m => breaks (ms.take m.2) m.1)).map (fun m => ⟨2, m.2, 0, 0, bit⟩)

/-- The checks of a configuration, whose images may name either plane (R237): each image, then one to eight images with rectangles apart, a matrix-mode
region alone, and at most 16 loop contexts (R85). -/
def checkConfig (ms : List Img) (ins outs : List Nat) : Option Rej :=
  (ms.zipIdx.findSome? (fun m => m.1.check m.2 ins outs)).or <|
  (configRule ms 72 (fun before _ => decide (8 ≤ before.length))).or <|
  (configRule ms 32 (fun before m => before.any (fun y => rectsOverlap y.hdr m.hdr))).or <|
  (configRule ms 24 (fun _ m => m.hdr.matrix && decide (1 < ms.length))).or <|
  configRule ms 64 (fun before m => decide (16 < ((before ++ [m]).map (fun y => popNat 4 y.hdr.lcMask)).foldl (· + ·) 0))

/-- Parses the images of a configuration in list order. -/
def parseImgs (rds : List ((Nat → Nat → List Byte) × Bool)) : Nat → Except Rej (List Img) :=
  rds.foldr (fun x k pos =>
    match parseImg x.1 x.2 pos with
    | .error r => .error r
    | .ok m => match k (pos + 1) with
      | .error r => .error r
      | .ok ms => .ok (m :: ms)) (fun _ => .ok [])

end Sys2Proof.Machine
end

