-- ==== Sys2Proof/Machine/Nof.lean ====
section
/-! DEFINITION. Machine/Nof.lean: what a resident container says: sections, sequencing entries, graphs, groups, buckets
(R37 to R44). -/

namespace Sys2Proof.Machine

/-! ## Sections -/

def State.container (s : State) (h : Nat) : List NofSection := mapGet [] s.pkg.containers h

/-- Bytes of the first section of a type and link. -/
def sectBytes (c : List NofSection) (typ link : Nat) : Option (List Byte) :=
  (c.find? (fun x => x.typ == typ && x.link == link)).map (·.bytes)
/-- Bytes of the first section of a type. -/
def sectOf (c : List NofSection) (typ : Nat) : Option (List Byte) := (c.find? (fun x => x.typ == typ)).map (·.bytes)

/-- Cuts a byte string into records of `n` bytes. -/
def records (n : Nat) (bs : List Byte) : List (List Byte) :=
  (List.range (if n = 0 then 0 else bs.length / n)).map (fun i => (bs.drop (n * i)).take n)

/-! ## The sequencing program (R40) -/

/-- A sequencing entry. -/
structure SeqEntry where
  actor : Nat
  phase : Nat
  modes : Nat
  region : Nat
  succ : Nat
  /-- entry offsets of the control, loader and storer cores; 0xFFFF: not started -/
  offs : List Nat
deriving DecidableEq, Repr, Inhabited

def parseSeq (bs : List Byte) : SeqEntry :=
  ⟨fieldAt bs 0 2, fieldAt bs 2 1 % 16, fieldAt bs 3 1, fieldAt bs 4 1, fieldAt bs 5 1,
    [fieldAt bs 8 2, fieldAt bs 10 2, fieldAt bs 12 2]⟩

def seqEntries (c : List NofSection) : List SeqEntry := (records 16 ((sectOf c 3).getD [])).map parseSeq

/-- Whether an entry starts a core. -/
def SeqEntry.starts (e : SeqEntry) (core : Nat) : Bool := e.offs.getD core 0xFFFF != 0xFFFF

/-- Index of the entry of (actor, phase, mode), sought from the actor's first entry on (R40, R41): the actors of several graphs
of one container share their indices. -/
def entryFor (c : List NofSection) (first actor phase mode : Nat) : Option Nat :=
  (((seqEntries c).drop first).findIdx? (fun e => e.actor == actor && e.phase == phase && bitOf e.modes mode)).map (· + first)

/-! ## Graphs (R41, R42) -/

structure Actor where
  kind : Nat
  phases : Nat
  entry : Nat
  spad : Nat
  tags : Nat
deriving DecidableEq, Repr, Inhabited

structure Arc where
  prod : Nat
  cons : Nat
  tok : Nat
  cap : Nat
  delay : Nat
  data : Nat
deriving DecidableEq, Repr, Inhabited

structure Graph where
  idx : Nat
  modes : Nat
  actors : List Actor
  arcs : List Arc
  /-- the rate vectors, 64 bytes for each mode and arc -/
  rates : List Byte
deriving DecidableEq, Repr, Inhabited

def parseActor (bs : List Byte) : Actor :=
  ⟨fieldAt bs 0 1, fieldAt bs 1 1, fieldAt bs 2 2, fieldAt bs 4 2 * 64, fieldAt bs 6 2⟩
def parseArc (bs : List Byte) : Arc :=
  ⟨fieldAt bs 0 2, fieldAt bs 2 2, fieldAt bs 4 2 + 1, fieldAt bs 6 2, fieldAt bs 8 2, fieldAt bs 10 4⟩

def parseGraph (bs : List Byte) : Graph :=
  let na := fieldAt bs 2 2
  let nr := fieldAt bs 4 2
  { idx := fieldAt bs 0 2
    modes := fieldAt bs 6 1
    actors := ((records 8 (bs.drop 16)).take na).map parseActor
    arcs := ((records 16 (bs.drop (16 + 8 * na))).take nr).map parseArc
    rates := bs.drop (16 + 8 * na + 16 * nr) }

/-- The graph of an index in a container. -/
def graphOf (c : List NofSection) (g : Nat) : Option Graph :=
  ((c.filter (fun x => x.typ == 7)).map (fun x => parseGraph x.bytes)).find? (fun x => x.idx == g)

/-- Declared counts of an arc in a phase under a rate set (R320). -/
def Graph.prodCount (g : Graph) (mode arc phase : Nat) : Nat := fieldAt g.rates ((mode * g.arcs.length + arc) * 64 + 2 * phase) 2
def Graph.consCount (g : Graph) (mode arc phase : Nat) : Nat :=
  fieldAt g.rates ((mode * g.arcs.length + arc) * 64 + 32 + 2 * phase) 2

/-! ## Components (R321, R322) -/

/-- One pass of label propagation: each arc gives both its ends the lower label. -/
def mergeLabels (ls : List Nat) (as : List Arc) : List Nat :=
  as.foldl (fun ls a =>
    let m := min (ls.getD a.prod 0) (ls.getD a.cons 0)
    (ls.set a.prod m).set a.cons m) ls

/-- The lowest actor of each actor's weakly connected component. -/
def Graph.labels (g : Graph) : List Nat :=
  (List.range g.actors.length).foldl (fun ls _ => mergeLabels ls g.arcs) (List.range g.actors.length)

/-- Actors of the component of an actor. -/
def Graph.component (g : Graph) (x : Nat) : List Nat :=
  let ls := g.labels
  (List.range g.actors.length).filter (fun y => ls.getD y y == ls.getD x x)

def Graph.actor (g : Graph) (x : Nat) : Actor := g.actors.getD x ⟨0, 1, 0, 0, 0⟩
/-- Whether the component of an actor holds a memory actor. -/
def Graph.hasMem (g : Graph) (x : Nat) : Bool := (g.component x).any (fun y => (g.actor y).kind != 0)

/-- Arcs into and out of an actor. -/
def Graph.inArcs (g : Graph) (x : Nat) : List Nat := (List.range g.arcs.length).filter (fun a => (g.arcs[a]?).any (fun y => y.cons == x))
def Graph.outArcs (g : Graph) (x : Nat) : List Nat := (List.range g.arcs.length).filter (fun a => (g.arcs[a]?).any (fun y => y.prod == x))

/-- The graph that a launch runs. -/
def State.graph (s : State) (q : Nat) : Option Graph := (s.launch q).bind (fun l => graphOf (s.container l.container) l.graph)

/-- The rate set of an actor: the one in force, or the starting one in a component with no memory actor (R322). -/
def modeOf (g : Graph) (l : Launch) (x : Nat) : Nat := if g.hasMem x then l.mode else l.startMode

/-- Declared count of the firing in progress of a task at one end of an arc (R313, R329). -/
def declaredCount (s : State) (k : Task) (arc : Nat) (producer : Bool) : Nat :=
  match s.graph k.launch, s.launch k.launch with
  | some g, some l =>
    let ph := match k.firing with | some f => f.phase | none => k.phase
    let m := modeOf g l k.actor
    if producer then g.prodCount m arc ph else g.consCount m arc ph
  | _, _ => 0

/-- Actor at one end of an arc of a task's launch. -/
def arcActor (s : State) (k : Task) (arc : Nat) (producer : Bool) : Option Nat :=
  (s.graph k.launch).bind (fun g => (g.arcs[arc]?).map (fun a => if producer then a.prod else a.cons))

/-! ## Instances (R402) -/

/-- Compute actors in actor order: their positions are their logical indices. -/
def computeActors (g : Graph) : List Nat := (List.range g.actors.length).filter (fun x => (g.actor x).kind == 0)
/-- Arcs that join two memory actors, in arc order: their instances follow the compute actors. -/
def memArcs (g : Graph) : List Nat :=
  (List.range g.arcs.length).filter (fun a => (g.arcs[a]?).any (fun y => (g.actor y.prod).kind != 0 && (g.actor y.cons).kind != 0))
/-- Logical index of an arc's window-holding instance. -/
def lidxOfArc (g : Graph) (a : Nat) : Option Nat := ((memArcs g).findIdx? (fun b => b == a)).map (fun i => (computeActors g).length + i)
/-- Logical index of a compute actor. -/
def lidxOfActor (g : Graph) (x : Nat) : Option Nat := (computeActors g).findIdx? (fun b => b == x)

/-! ## Tasks of a launch -/

/-- Tile and slot of every bound task of a launch, with the task. -/
def State.tasksOf (s : State) (q : Nat) : List (Nat × Nat × Task) :=
  (s.tiles.map (fun v => v.2.tasks.filterMap (fun k => match k.2 with
    | some x => if x.launch = q then some (v.1, k.1, x) else none
    | none => none))).flatten

/-- The bound task of an actor of a launch on this package: tile and slot. -/
def State.taskOfActor (s : State) (q x : Nat) : Option (Nat × Nat) :=
  ((s.tasksOf q).find? (fun k => k.2.2.actor == x && !k.2.2.spawned)).map (fun k => (k.1, k.2.1))

/-! ## Groups and buckets (R44) -/

structure GroupRec where
  id : Nat
  debug : Bool
  members : List Nat
deriving DecidableEq, Repr, Inhabited

def parseGroups : Nat → List Byte → List GroupRec
  | 0, _ => []
  | fuel + 1, bs =>
    if bs.length < 4 then []
    else
      let n := fieldAt bs 2 2
      ⟨fieldAt bs 0 1, bitOf (fieldAt bs 1 1) 0, (List.range n).map (fun i => fieldAt bs (4 + 2 * i) 2)⟩ ::
        parseGroups fuel (bs.drop (4 + 2 * n))

def groupRecs (c : List NofSection) : List GroupRec := let bs := (sectOf c 9).getD []; parseGroups bs.length bs

/-- Bucket entries: bucket id, size index, padded count, target entry. -/
def bucketRecs (c : List NofSection) : List (Nat × Nat × Nat × Nat) :=
  (records 8 ((sectOf c 0x0A).getD [])).map (fun b => (fieldAt b 0 1, fieldAt b 1 1, fieldAt b 2 2, fieldAt b 4 2))

end Sys2Proof.Machine
end

