-- ==== Sys2Proof/Machine/Wire.lean ====
section
/-! DEFINITION. Machine/Wire.lean: the bytes of what goes over links: checks, die-to-die flits and their replay buffer (R336,
R337), transport frames (R347). -/

namespace Sys2Proof.Machine

/-! ## Checks -/

/-- A reflected 32-bit CRC of a byte string with a polynomial. -/
def crc32With (poly : Nat) (bs : List Byte) : Nat :=
  let step (c : Nat) : Nat := if c % 2 = 1 then (c / 2) ^^^ poly else c / 2
  (bs.foldl (fun c b => step (step (step (step (step (step (step (step (c ^^^ b.toNat))))))))) 0xFFFFFFFF) ^^^ 0xFFFFFFFF

/-- CRC-32C: the Castagnoli polynomial (R336, R347, R356). -/
def crc32c (bs : List Byte) : Nat := crc32With 0x82F63B78 bs
/-- The FCS of an Ethernet frame (R347, R352). -/
def fcs (bs : List Byte) : Nat := crc32With 0xEDB88320 bs


/-- Cuts or fills a byte string with zeros to a length. -/
def fitBytes (n : Nat) (bs : List Byte) : List Byte := bs.take n ++ List.replicate (n - bs.length) 0

end Sys2Proof.Machine

namespace Sys2Proof
open Sys2Proof.Machine

/-! ## Die-to-die flits (R336) -/

/-- The header, bytes 0 to 3. -/
def Flit.header (f : Flit) : Nat := leNat (f.bytes.take 4)
def Flit.seq (f : Flit) : Nat := bitsOf f.header 31 20
def Flit.ack (f : Flit) : Nat := bitsOf f.header 19 8
/-- 0 idle, 1 data, 2 nack, 3 retrain. -/
def Flit.kind (f : Flit) : Nat := bitsOf f.header 7 4
def Flit.payload (f : Flit) : List Byte := (f.bytes.drop 4).take 120
/-- The CRC-32C over bytes 0 to 123 holds. -/
def Flit.crcOk (f : Flit) : Bool := f.bytes.length == 128 && leNat (f.bytes.drop 124) == crc32c (f.bytes.take 124)

/-- A flit from its fields. -/
def Flit.make (seq ack kind : Nat) (payload : List Byte) : Flit :=
  let bs := leBytes 4 (seq % 4096 * 2 ^ 20 + ack % 4096 * 2 ^ 8 + kind % 16 * 2 ^ 4) ++ fitBytes 120 payload
  ⟨bs ++ leBytes 4 (crc32c bs)⟩

end Sys2Proof

namespace Sys2Proof.Machine

/-! ## The replay buffer of a link (R337) -/

/-- A data flit as it is sent, or sent again. -/
def D2d.flit (l : D2d) (x : Nat × List Byte) : Flit := Flit.make x.1 (l.rxNext + 4095) 1 x.2

/-- Sends a payload as the next data flit, kept until it is acknowledged; the replay buffer holds 2,048 flits, and what finds no
place waits. -/
def D2d.send (l : D2d) (p : List Byte) : D2d :=
  if l.lost then l
  else if 2048 ≤ l.replay.length then { l with waiting := l.waiting ++ [p] }
  else
    let x := (l.txSeq, p)
    { l with txSeq := (l.txSeq + 1) % 4096, replay := l.replay ++ [x], out := l.out ++ [l.flit x] }

/-- The payloads that wait are sent as far as the replay buffer has room. -/
def D2d.sendWaiting (l : D2d) : D2d := l.waiting.foldl D2d.send { l with waiting := [] }

end Sys2Proof.Machine

namespace Sys2Proof
open Sys2Proof.Machine

/-! ## Transport frames (R347) -/

/-- The bytes of a transport frame up to the end of its payload. -/
def Frame.body (f : Frame) : List Byte :=
  let fwd := f.dst * 2 ^ 40 + f.src * 2 ^ 32 + f.cls * 2 ^ 30 + bit01 f.relay * 2 ^ 29 + bit01 f.sect * 2 ^ 28 + f.rsv * 2 ^ 24 + f.seq
  beBytes 6 fwd ++ beBytes 2 f.ethertype ++ leBytes 1 f.opcode ++ leBytes 15 f.hdr ++ f.payload

/-- The payload of a frame, each byte with its poison. -/
def Frame.data (f : Frame) : List (Byte × Bool) := f.payload.zipIdx.map (fun x => (x.1, f.bad.contains x.2))

end Sys2Proof

namespace Sys2Proof.Machine

/-- A frame on an optical pair: it ends with a CRC-32C. -/
def frameWire (f : Frame) : List Byte := f.body ++ leBytes 4 (crc32c f.body)

/-- A frame on an electrical port, after the preamble: padded to 64 bytes with its FCS (log entry 135). -/
def electricalWire (f : Frame) : List Byte :=
  let bs := f.body ++ List.replicate (60 - f.body.length) 0
  bs ++ leBytes 4 (fcs bs)

/-- The frame of some bytes with their poison, without its check. -/
def parseFrame (bs : List (Byte × Bool)) : Frame :=
  let b := bs.map (·.1)
  let fwd := leNat ((b.take 6).reverse)
  { dst := bitsOf fwd 47 40, src := bitsOf fwd 39 32, cls := bitsOf fwd 31 30, relay := bitOf fwd 29, sect := bitOf fwd 28
    rsv := bitsOf fwd 27 24, seq := bitsOf fwd 23 0, ethertype := leNat (((b.drop 6).take 2).reverse), opcode := leNat ((b.drop 8).take 1)
    hdr := leNat ((b.drop 9).take 15), payload := b.drop 24, crcOk := true
    bad := ((bs.drop 24).zipIdx.filter (·.1.2)).map (·.2) }

/-- Places of the poisoned bytes. -/
def badPlaces (bs : List (Byte × Bool)) : List Nat := (bs.zipIdx.filter (·.1.2)).map (·.2)

end Sys2Proof.Machine
end

