-- ==== Sys2Proof/Machine/Net.lean ====
section
/-! DEFINITION. Machine/Net.lean: sending transport frames: the calendar (R339, R340), the choice of path (R343, R353),
flows (R345) and the operation headers (R348). -/

namespace Sys2Proof.Machine

/-! ## Flows -/

/-- Key of a flow: the other package and the traffic class (R345). -/
def flowKey (pkg cls : Nat) : Nat := pkg * 4 + cls

def State.tx (s : State) (k : Nat) : TxFlow := mapGet TxFlow.zero s.net.tx k
def State.rx' (s : State) (k : Nat) : RxFlow := mapGet RxFlow.zero s.net.rx k
def State.modTx (s : State) (k : Nat) (f : TxFlow → TxFlow) : State :=
  s.modNet (fun n => { n with tx := mapSet TxFlow.zero n.tx k (f (s.tx k)) })
def State.modRx (s : State) (k : Nat) (f : RxFlow → RxFlow) : State :=
  s.modNet (fun n => { n with rx := mapSet RxFlow.zero n.rx k (f (s.rx' k)) })

/-- Operation header bytes 1–15 as a number, from fields (byte offset in the header, width in bytes, value) (R348). -/
def opHdr (fs : List (Nat × Nat × Nat)) : Nat := fs.foldl (fun x f => x + f.2.2 % 256 ^ f.2.1 * 256 ^ (f.1 - 1)) 0

/-- Field of an operation header: bytes `o` to `o + n - 1` (R348). -/
def hdrField (f : Frame) (o n : Nat) : Nat := f.hdr / 256 ^ (o - 1) % 256 ^ n

/-! ## The calendar (R339, R340) -/

/-- The peer of a package in a round. -/
def roundPeer (pkg r : Nat) : Nat := if pkg = 63 then r else if pkg = r then 63 else (2 * r + 63 - pkg) % 63
/-- The round that port k uses in a slot. -/
def portRound (slot k : Nat) : Nat := (slot + 8 * k) % 63

/-- Slots from a slot until one in which a package meets a peer on one of some ports, within 63. -/
def slotsUntil (ports : List Nat) (pkg peer slot : Nat) : Option Nat :=
  (List.range 63).find? (fun d => ports.any (fun k => roundPeer pkg (portRound (slot + d) k) == peer))

/-- Ports of this package in the calendar. -/
def Net.inCalendar (n : Net) : List Nat := (List.range 8).filter (fun k => n.ports.getLsbD k)
/-- Direct-wait limit THRESH (R342). -/
def Net.thresh (n : Net) : Nat := bitsOf n.relay.toNat 3 0
/-- Slots until the next direct slot to a package. -/
def State.direct (s : State) (j : Nat) : Option Nat := slotsUntil s.net.inCalendar s.pkg.num j s.net.slot
/-- A direct slot begins within THRESH slots (step 1 of R343). -/
def State.directSoon (s : State) (j : Nat) : Bool := match s.direct j with | some d => decide (d ≤ s.net.thresh) | none => false

/-- Relay credit units of a frame, of 8 KiB (R344). -/
def creditUnits (payload : Nat) : Nat := ceilDiv (24 + payload + 4) 8192

/-- The peer of the present slot through which a frame to `j` is relayed, with its port (step 2 of R343). -/
def State.relayVia (s : State) (j units : Nat) : Option (Nat × Nat) :=
  let own := (s.direct j).getD 63
  let cands := s.net.inCalendar.filterMap (fun k =>
    let p := roundPeer s.pkg.num (portRound s.net.slot k)
    match slotsUntil (List.range 8) p j s.net.slot with
    | some d => if p != j && units ≤ mapGet 0 s.net.credit p && decide (d < own) then some (d, k, p) else none
    | none => none)
  (cands.foldl (fun (b : Option (Nat × Nat × Nat)) c => match b with
    | none => some c
    | some x => if c.1 < x.1 then some c else b) none).map (fun c => (c.2.2, c.2.1))

/-! ## The choice of path (R352, R353) -/

/-- `PKG_XC_PATH` of a class: 0 optical, 1 electrical, 2 either. -/
def Net.pathOf (n : Net) (cls : Nat) : Nat := bitsOf n.xcPath.toNat (2 * cls + 1) (2 * cls)

/-- A direct slot, or a relay whose own slot to the destination also comes, is there within THRESH slots (R353). -/
def State.slotSoon (s : State) (j units : Nat) : Bool :=
  s.directSoon j || (List.range (s.net.thresh + 1)).any (fun d => s.net.inCalendar.any (fun k =>
    let p := roundPeer s.pkg.num (portRound (s.net.slot + d) k)
    p != j && decide (units ≤ mapGet 0 s.net.credit p) && (match slotsUntil (List.range 8) p j (s.net.slot + d) with
      | some e => decide (d + e ≤ s.net.thresh)
      | none => false)))

/-- The electrical port of a destination: the destination modulo the ports in service (R352). A port that runs as two has the numbers
k and k + 4. -/
def Net.eport (n : Net) (dst : Nat) : Option Nat :=
  let up := (List.range 8).filter (fun k => n.eports.getLsbD k)
  if up.isEmpty then none else up[dst % up.length]?

/-- Whether a frame takes an electrical port now. -/
def State.electrical (s : State) (dst cls payload : Nat) : Bool :=
  let p := s.net.pathOf cls
  let kind := p == 1 || (p == 2 && !(s.net.lock && s.slotSoon dst (creditUnits payload)))
  kind && (match s.net.eport dst with | some k => !(mapGet false s.net.paused (k * 4 + cls)) | none => false)

/-- Hands frames to their ports; on an electrical port they go as Ethernet frames (R347, R352). -/
def Net.emit (n : Net) (fs : List Frame) : Net :=
  { n with sent := n.sent ++ fs, wire := n.wire ++ fs.filterMap (fun f => (n.eport f.dst).map (fun k => (k, electricalWire f))) }

/-- Whether what a frame belongs to is available: remote sections only from stage 6 on (R452). -/
def State.carries (s : State) (f : Frame) : Bool := !f.sect || decide (6 ≤ s.regs.stage)

/-- Sends every frame that an electrical port can take, acknowledgements first; at most 4,096 of a flow are unacknowledged (R345). -/
def State.pump (s : State) : State :=
  let go (e : Nat × TxFlow) : TxFlow × List Frame :=
    let out (x : TxFrame × Nat) : Bool := !x.1.sent && decide (x.2 < 4096) && s.carries x.1.frame && s.electrical (e.1 / 4) (e.1 % 4) x.1.frame.payload.length
    (⟨e.2.next, e.2.unacked.zipIdx.map (fun x => if out x then { x.1 with sent := true, once := true } else x.1)⟩,
      (e.2.unacked.zipIdx.filter out).map (fun x => x.1.frame))
  let now (f : Frame) : Bool := s.electrical f.dst f.cls 0
  s.modNet (fun n => ({ n with tx := n.tx.map (fun e => (e.1, (go e).1)), acks := n.acks.filter (fun f => !now f) } : Net).emit
    (n.acks.filter now ++ (n.tx.map (fun e => (go e).2)).flatten))

/-! ## Sending -/

/-- Queues one transport frame to a package: it takes the flow's next sequence and stays unacknowledged (R345, R354). -/
def State.sendFrame (s : State) (dst cls opcode hdr : Nat) (payload : List Byte) (sect : Bool)
    (cmds : List (Nat × Nat × Nat)) (launch : Option Nat) (bad : List Nat := []) : State :=
  let k := flowKey dst cls
  let fl := s.tx k
  let fr : Frame :=
    { dst := dst, src := s.pkg.num, cls := cls, relay := false, sect := sect, rsv := 0, seq := fl.next, ethertype := 0x88B5
      opcode := opcode, hdr := hdr, payload := payload, crcOk := true, bad := bad }
  (s.modTx k (fun fl => ⟨(fl.next + 1) % 2 ^ 24, fl.unacked ++ [⟨fr, false, false, cmds, launch, false⟩]⟩)).pump

/-- The packages of a launch's map other than this one (R309). -/
def State.otherPkgs (s : State) (q : Nat) : List Nat :=
  match s.launch q with
  | none => []
  | some l => (l.map.filter (fun p => p != s.pkg.num)).eraseDups

/-- Sends a control frame of a launch to one package (R348). Its traffic class is 0 (log entry 8). -/
def State.sendControlTo (s : State) (q kind arg dst : Nat) : State :=
  let home := ((s.launch q).map (·.home)).getD 0
  s.sendFrame dst 0 0x0C (opHdr [(2, 1, kind), (4, 8, home), (12, 4, arg)]) [] false [] (some q)

/-- Sends a control frame of a launch to every other package of its map. -/
def State.sendControl (s : State) (q kind arg : Nat) : State :=
  (s.otherPkgs q).foldl (fun s p => s.sendControlTo q kind arg p) s

/-- Cuts the bytes of a command into frames of at most 8,192 bytes (R348). -/
def frameChunks {α : Type} (bs : List α) : List (List α) :=
  if bs.isEmpty then [[]] else (List.range (ceilDiv bs.length 8192)).map (fun i => (bs.drop (8192 * i)).take 8192)

/-- Cuts bytes with their poison into frames of one flow, the last marked in bit 3 of byte 1 (R348); `hdr`: the other header fields. -/
def State.sendData (s : State) (dst cls opcode : Nat) (hdr : List (Nat × Nat × Nat)) (bs : List (Byte × Bool)) (launch : Option Nat) : State :=
  let cs := frameChunks bs
  (List.range cs.length).foldl (fun s i =>
    let c := cs.getD i []
    s.sendFrame dst cls opcode (opHdr ((1, 1, 8 * bit01 (i + 1 == cs.length)) :: hdr)) (c.map (·.1)) false [] launch (badPlaces c)) s

/-- Sends a staged command (opcodes 0x01 to 0x03) or a get request as consecutive frames of one flow, the last marked
(R348). Each frame carries the byte offset of its own bytes. -/
def State.sendCommand (s : State) (dst cls opcode op ctx tensor off key : Nat) (bs : List Byte) (sect : Bool)
    (cmd : Nat × Nat × Nat) : State :=
  let cs := frameChunks bs
  ((List.range cs.length).foldl (fun s i =>
    s.sendFrame dst cls opcode
      (opHdr [(1, 1, op + 8 * bit01 (i + 1 == cs.length)), (2, 2, ctx), (4, 2, tensor), (6, 6, off + 8192 * i), (12, 4, key)])
      (cs.getD i []) sect [cmd] none) s)

end Sys2Proof.Machine
end

