-- ==== Sys2Proof/Machine/Order.lean ====
section
/-! DEFINITION. Machine/Order.lean: synchronisation objects, releases and acquires (R266, R267, R389), fences (R269, R270,
R392), and strong stores (R387). -/

namespace Sys2Proof.Machine

/-! ## Objects and bound regions -/

/-- Keys of the four kinds of object. -/
def lockKey (pa : Nat) : Nat := 4 * pa
def futKey (handle : Nat) : Nat := 4 * handle + 1
def grpKey (launch gid : Nat) : Nat := 4 * (launch * 256 + gid) + 2
def winKey (tile w : Nat) : Nat := 4 * winNo tile w + 3

/-- The object of a binding slot; none where the slot is clear or its address names nothing (R266). -/
def bindKey (s : State) (t slot : Nat) (b : Binding) : Option Nat :=
  let o := b.obj.toNat
  if b.len = 0 then none
  else if b.kind = 0 then
    match (resolve s t (s.taskCtx t slot) o 8 .atomic kSCALAR 0).res with
    | .ok [p] => some (lockKey p.addr)
    | _ => none
  else if b.kind = 1 then some (futKey (o % 2 ^ 32))
  else if b.kind = 2 then some (grpKey (s.taskLaunch t slot) (o % 256))
  else let r := winRef (s.taskLaunch t slot) t o; some (winKey r.tile r.w)

/-- The bytes that a binding names, as addresses and lengths (R266). -/
def regionRanges (s : State) (t slot : Nat) (b : Binding) : List (Nat × Nat) :=
  match gaddr b.base.toNat with
  | none => []
  | some (.loc off) => [(spadBase t + off, b.len)]
  | some (.cluster c off) => [(spadBase (t / 32 * 32 + c) + off, b.len)]
  | some (.shared id off) =>
    match descOf s (s.taskCtx t slot) id with
    | none => []
    | some d =>
      let ps := pageBytes d.pg
      let n := min b.len (d.span - off)
      (List.range ((off + n - 1) / ps + 1 - off / ps)).filterMap (fun i =>
        let page := off / ps + i
        let lo := max off (page * ps)
        let hi := min (off + n) ((page + 1) * ps)
        let e := pteOf s (s.taskCtx t slot) d page
        if bitOf e 63 ∧ lo < hi then some (frameByte e lo ps, hi - lo) else none)

/-- The task's bindings to an object. -/
def bindingsTo (s : State) (t slot key : Nat) : List Binding :=
  ((s.ext t slot).binds.map (·.2)).filter (fun b => bindKey s t slot b == some key)

/-- Whether a write is visible to the SCALAR path of a tile's task: it is performed with respect to one of its three cores (R383, R389). -/
def scalarHas (t : Nat) (w : PWrite) : Bool := w.performedFor (.tile t 0) || w.performedFor (.tile t 1) || w.performedFor (.tile t 2)

/-- A release of an object by a task, `num` in the object's order. Of the writes to bound bytes that pass a test, the task's own SCALAR writes are
performed at the binding's scope, and all are carried (R267, R389). -/
def releaseIf (s : State) (t slot key num : Nat) (p : PWrite → Bool) : State :=
  (bindingsTo s t slot key).foldl (fun s b =>
    let rs := regionRanges s t slot b
    let s1 := (s.cutAt rs).perform (fun w => p w && w.within rs && w.task == some (t, slot) && w.cls == kSCALAR) (.scope t b.scope)
    { s1 with writes := s1.writes.map (fun w =>
        if p w && w.within rs then { w with carried := ⟨key, t, b.scope, num⟩ :: w.carried } else w) }) s

/-- A release by a task of every bound write visible to its SCALAR path (R389). -/
def release (s : State) (t slot key : Nat) (num : Nat := 0) : State := releaseIf s t slot key num (scalarHas t)

/-- Whether an acquire by a tile's task through one of its bindings gets a write: a release that comes before number `below` of the object's order
carries it, releaser and acquirer lie within each other's binding scopes, and it has bytes bound here (R267, R389, R390). -/
def gets (s : State) (t slot key below : Nat) (b : Binding) (w : PWrite) : Bool :=
  w.within (regionRanges s t slot b) && w.carried.any (fun c =>
    c.key == key && decide (c.num < below) && inScope c.tile c.scope (.tile t 0) && inScope t b.scope (.tile c.tile 0))

/-- Whether an acquire by a tile's task gets a write. -/
def acquires (s : State) (t slot key : Nat) (w : PWrite) (below : Nat := 1) : Bool :=
  (bindingsTo s t slot key).any (fun b => gets s t slot key below b w)

/-- An acquire of an object by a task: the bytes that it gets become visible to its three cores (R267). -/
def acquire (s : State) (t slot key : Nat) (below : Nat := 1) : State :=
  let s1 := (bindingsTo s t slot key).foldl (fun s b => s.cutAt (regionRanges s t slot b)) s
  let got := acquires s1 t slot key (below := below)
  let s2 : State := { s1 with writes := s1.writes.map (fun w => if got w then { w with acquired := (t, slot) :: w.acquired } else w) }
  [0, 1, 2].foldl (fun s c => s.perform got (.one (.tile t c))) s2

/-! ## Fences -/

/-- `sy.fence.s`: the focused core's SCALAR writes are performed within the scope, and its later loads come after the writes of the scope's
observers that are performed with respect to it (R269, R385). -/
def fenceScalar (s : State) (scope : Nat) : State :=
  ((s.strike (ownScalar s)).perform (ownScalar s) (.scope s.ft scope)).perform
    (fun w => w.performedFor (.tile s.ft s.fc) && inScope s.ft scope w.writer) (.one (.tile s.ft s.fc))

/-- `pf.fence`: the seen-complete writes of both classes are performed for every observer (R270, R392). Where SCALAR is named with another class,
the writes that the task has acquired become visible to that class's units; and the later loads of its cores come after every access seen
complete, so that they return what is performed with respect to them (R383, R392). -/
def fencePaths (s : State) (a b : Nat) : State :=
  let t := s.ft
  let s1 := s.perform (fun w => w.task == some (t, s.fslot) && w.done && (w.cls == a || w.cls == b)) (.scope t 3)
  if a = kSCALAR ∨ b = kSCALAR then
    let s2 := if a = b then s1 else s1.perform (fun w => w.acquired.contains (t, s.fslot)) (.scope t (if 4 ≤ max a b then 3 else 0))
    [0, 1, 2].foldl (fun s c => s.perform (fun w => w.performedFor (.tile t c)) (.one (.tile t c))) s2
  else s1

/-! ## Atomic accesses (R263 to R265) -/

/-- Why a word cannot be reached by an atomic, or the address of the word (R264, R265). -/
def atomicFind (s : State) (a : Nat) : State × Except Trap Nat :=
  if a % 8 ≠ 0 then (s, .error (tAlign a 8))
  else
    let x := s.find s.who a 8 .atomic
    let s1 := s.cache x
    let host := match gaddr a with
      | some (.shared id off) => match descOf s (s.taskCtx s.ft s.fslot) id with
        | some d => d.host && decide (off + 8 ≤ d.span)
        | none => false
      | _ => false
    if host then (s1, .error (trapPermission a kSCALAR .atomic true))
    else match x.res with
    | .error tr => (s1, .error tr)
    | .ok ps =>
      match ps with
      | [p] =>
        if s1.poisonIn p.addr 8 then (s1, .error ⟨cPOISON, a, arrayId p.addr, false⟩) else (s1, .ok p.addr)
      | _ => (s1, .error (trapAperture a kSCALAR .atomic))

/-- A strong store of the focused core, whose moment for every observer within the scope is to come (R387, R388). -/
def strongStore (s : State) (pa scope v : Nat) : State :=
  s.addWrite ⟨pa, leBytes 8 v, .tile s.ft s.fc, kSCALAR, some (s.ft, s.fslot), 0, true, [.strong s.ft scope], [], 0, none, []⟩ false

/-- A strong store that is performed before the form retires (R268, R387). -/
def strongStoreNow (s : State) (pa scope v : Nat) : State :=
  s.addWrite ⟨pa, leBytes 8 v, .tile s.ft s.fc, kSCALAR, some (s.ft, s.fslot), 0, true, [.scope s.ft scope], [], 0, none, []⟩ false

/-- Folds an atomic on a SHARED word into the store digest: V the operand, k 0 (R440). -/
def foldAtomic (s : State) (a operand : Nat) : State :=
  if a < 2 ^ 63 then s
  else
    let q := s.taskLaunch s.ft s.fslot
    (s.addDigest s.ft s.fslot (digestTerm (s.seed q) (bitsOf a 62 47) (bitsOf a 46 0) operand 0)).touchUnits q
      (s.taskCtx s.ft s.fslot) (bitsOf a 62 47) (bitsOf a 46 0) 8

/-- Ends an atomic access that could not be made. -/
def atomicFail (s : State) (tr : Trap) : Act := if tr.cause = cNOTPRESENT then .hold tr s else .trap tr s

end Sys2Proof.Machine
end

