-- ==== Sys2Proof/Machine/WinOps.lean ====
section
/-! DEFINITION. Machine/WinOps.lean: what the window forms, the window-mode ports and the memory actors share: opening,
consuming and producing tokens, the messages between the ends of a window, rate monitors and laps (R325 to R333). -/

namespace Sys2Proof.Machine

/-! ## Reading windows -/

def State.win (s : State) (t w : Nat) : Option Window := (s.tile t).win w
def State.modWin (s : State) (t w : Nat) (f : Window → Window) : State :=
  s.modTile t (fun v => v.setWin w ((v.win w).map f))

/-- The producer's copy of the window of key `w` of tile `t`, as tile `p` holds it (R327). -/
def State.prod (s : State) (p t w : Nat) : ProdCopy := mapGet ProdCopy.zero (s.tile p).prods (winNo t w)
def State.modProd (s : State) (p t w : Nat) (f : ProdCopy → ProdCopy) : State :=
  s.modTile p (fun v => { v with prods := mapSet ProdCopy.zero v.prods (winNo t w) (f (mapGet ProdCopy.zero v.prods (winNo t w))) })

/-- Whether a tile of this package is the window's producer tile. -/
def Window.producedAt (x : Window) (s : State) (t : Nat) : Bool := x.pTile == t && x.pPkg == s.pkg.num

/-- Free slots as the producer knows them (R222, R311). -/
def freeCount (x : Window) (p : ProdCopy) : Nat := x.cap - p.occ

/-- Offset of a slot in the scratchpad of the window's tile (R226). -/
def Window.slotOff (x : Window) (i : Nat) : Nat := x.base + i % x.cap * x.tok

/-! ## Window descriptors (R325, R326) -/

/-- A tile field of a descriptor: as `TILE_ID`, its low two bits 0. -/
def tileFieldOk (x : Nat) : Bool := x % 4 == 0 && x / 2048 < 24 && x / 4 % 32 < 24

/-- The window that a descriptor's 32 bytes describe, with no token. -/
def parseWindow (bs : List Byte) (owner : Nat) (launch : Option Nat) : Window :=
  let fl := fieldAt bs 0x0B 1
  let cap := fieldAt bs 6 2
  { base := fieldAt bs 0 4, tok := fieldAt bs 4 2 + 1, cap := cap
    pTile := fieldAt bs 8 2 / 4, pPkg := fieldAt bs 0x0A 1, cTile := fieldAt bs 0x0C 2 / 4, cPkg := fieldAt bs 0x0E 1
    proxy := bitOf fl 0, mon := bitOf fl 1, pace := bitOf fl 2, initial := fieldAt bs 0x10 2, arc := fieldAt bs 0x12 2
    wr := 0, rd := 0, occ := 0, lap := 0, laps := 0, cCount := 0, marks := [], inWord := 0, outWord := 0
    tags := [], next := 0, launch := launch, owner := owner }

/-- Whether two ranges of slots overlap. -/
def slotsOverlap (x y : Window) : Bool := x.base < y.base + y.cap * y.tok && y.base < x.base + x.cap * x.tok

/-- Lowest bit of the first field of a descriptor that `rw.open` rejects (R325, R326). -/
def windowFail (s : State) (t : Nat) (bs : List Byte) : Option Nat :=
  let x := parseWindow bs 0 none
  let b := fieldAt bs 0 4
  firstFail [
    (0, b % 8 == 0 && decide (b + x.cap * x.tok ≤ 2 ^ 21) &&
      (s.tile t).wins.all (fun w => match w.2 with | some y => !slotsOverlap x y | none => true)),
    (21, decide (b < 2 ^ 21)), (32, x.tok % 8 == 0), (48, 1 ≤ x.cap),
    (64, tileFieldOk (fieldAt bs 8 2)), (80, x.pPkg < 64 && x.pPkg == s.pkg.num),
    (88, fieldAt bs 0x0B 1 == 0), (96, tileFieldOk (fieldAt bs 0x0C 2) && x.cTile == t), (112, x.cPkg < 64 && x.cPkg == s.pkg.num),
    (120, fieldAt bs 0x0F 1 == 0), (128, x.initial == 0), (144, x.arc == 0), (160, fieldAt bs 0x14 12 == 0)]

/-- Opens a window on a tile with its initial tokens counted, and its producer's copy; a proxy holds no token in its own slots, and its
first goes into slot `d` (R327). -/
def openWindow (s : State) (t w : Nat) (x : Window) : State :=
  let d := x.initial
  let wr := if x.cap = 0 then 0 else d % x.cap
  let full := { x with wr := wr, rd := if x.proxy then wr else x.rd, occ := if x.proxy then 0 else d }
  let s1 := s.modTile t (fun v => v.setWin w (some full))
  let pt := if x.proxy then t else x.pTile
  if x.pPkg = s.pkg.num then s1.modProd pt t w (fun _ => ⟨full.wr, 0, d, 0, 0, d⟩) else s1

/-- Closes a window and drops its producer's copy and messages (R221). -/
def closeWindow (s : State) (t w : Nat) : State :=
  match s.win t w with
  | none => s
  | some x =>
    let s0 := s.modTile t (fun v => v.setWin w none)
    let s1 := if x.pPkg = s.pkg.num then s0.modProd (if x.proxy then t else x.pTile) t w (fun _ => ProdCopy.zero) else s0
    { s1 with msgs := mapSet [] s1.msgs (winNo t w) [] }

/-! ## Rate monitors (R313, R329 to R331) -/

/-- A `RATE` trap (R331). -/
def tRate (s : State) (k : Task) (w : Nat) (producer atEnd : Bool) (declared actual : Nat) : Trap :=
  let mode := ((s.launch k.launch).map (·.mode)).getD 0
  let ph := match k.firing with | some f => f.phase | none => k.phase
  ⟨cRATE, w % 64 + 2 ^ 7 * bit01 atEnd + 2 ^ 8 * bit01 (!producer) + 2 ^ 9 * (mode % 8) + 2 ^ 12 * (ph % 16) +
    2 ^ 16 * (k.actor % 2 ^ 16) + 2 ^ 32 * min actual 65535 + 2 ^ 48 * (declared % 2 ^ 16), k.firings % 2 ^ 64, false⟩

/-- The check of one end of a monitored window before `n` tokens move: `PERMISSION` for a task that is not the end's
instance, then `RATE` (R313, R329). -/
def monitorCheck (s : State) (t slot w ref : Nat) (x : Window) (producer : Bool) (count n : Nat) (cls : Nat := kSCALAR) : Option Trap :=
  if !x.mon then none
  else match s.task t slot with
  | none => some (tPermission ref cls producer)
  | some k =>
    if some k.actor != arcActor s k x.arc producer || x.launch != some k.launch then some (tPermission ref cls producer)
    else
      let d := declaredCount s k x.arc producer
      if d < count + n then some (tRate s k w producer false d (count + n)) else none

/-! ## Checkpoints due (R333) -/

/-- A checkpoint of a launch falls due: announced to every die of the module and to the other packages of the map. -/
def announceDue (s : State) (q n : Nat) : State :=
  (s.modLext q (fun e => { e with due := max e.due n })).sendControl q 3 n

/-! ## Moving tokens -/

/-- Sends a message between the ends of a window (R328); one to another die leaves its own over the die-to-die link (R337). What its
packet holds, and which other traffic makes packets, the manual does not lay out (log entry 102). -/
def sendMsg (s : State) (t w : Nat) (m : WinMsg) : State :=
  let p := ((s.win t w).map (·.pTile)).getD t
  let src := if m.advance then p else t
  let s1 : State := { s with msgs := mapSet [] s.msgs (winNo t w) (mapGet [] s.msgs (winNo t w) ++ [m]) }
  if p / 512 = t / 512 then s1 else s1.modDie (src / 512) (fun d => { d with link := d.link.send (Config.d2dPacket t w m.n m.advance) })

/-- The consumer's release reaches the producer's copy (R327, R328). -/
def applyRelease (s : State) (p t w n rd lap : Nat) : State :=
  s.modProd p t w (fun c => { c with rdMirror := rd, occ := c.occ - n, lapMirror := lap })

/-- Tokens that have been consumed from a window since it opened. -/
def Window.consumed (x : Window) : Nat := x.laps * x.cap + x.rd

/-- Tokens that have come to a window since it opened, initial ones among them. -/
def Window.arrived (x : Window) : Nat := x.consumed + x.occ

/-- The newest recorded part of a logical index. -/
def State.newestPart (s : State) (q lidx : Nat) : Option CkPart := (mapGet [] (s.lext q).parts lidx).head?

/-- The recorded part of a number. -/
def State.partNo (s : State) (q lidx n : Nat) : Option CkPart := (mapGet [] (s.lext q).parts lidx).find? (fun p => p.number == n)

/-- The bytes of tokens of a window, from a slot on, each with its poison. -/
def tokenBytes (s : State) (t : Nat) (x : Window) (slot n : Nat) : List (Byte × Bool) :=
  ((List.range n).map (fun i => (List.range x.tok).map (fun j =>
    let a := spadBase t + x.slotOff (slot + i) + j
    (s.byteAt (.tile t 4) a, s.poisonAt a)))).flatten

/-- The newest recorded part of the task that consumes a window of a launch, fed by a task, where that part holds the window: the launch, the arc, the
consumer's logical index, and the part. -/
def Window.recorded (s : State) (x : Window) : Option (Nat × Arc × Nat × CkPart) :=
  x.launch.bind (fun q => (s.graph q).bind (fun g => (g.arcs[x.arc]?).bind (fun a =>
    if (g.actor a.prod).kind ≠ 0 then none
    else (lidxOfActor g a.cons).bind (fun c => (s.newestPart q c).bind (fun p =>
      if p.wins.any (fun e => e.1 == x.arc && e.2.1.launch.isSome) then some (q, a, c, p) else none)))))

/-- The producer's recorded part of a number, where the producer of an arc is a task of this package. -/
def producerPart (s : State) (q : Nat) (a : Arc) (n : Nat) : Option CkPart :=
  (s.graph q).bind (fun g => (lidxOfActor g a.prod).bind (fun i => s.partNo q i n))

/-- Changes a window as the newest part of a logical index records it. -/
def editRecord (s : State) (q c arc : Nat) (f : Window × List (Byte × Bool) → Window × List (Byte × Bool)) : State :=
  s.modLext q (fun l => { l with parts := mapInsert l.parts c ((mapGet [] l.parts c).modify 0 (fun p =>
    { p with wins := p.wins.map (fun e => if e.1 = arc ∧ e.2.1.launch.isSome then (e.1, f e.2) else e) })) })

/-- A token that comes to a window after its consumer has recorded a part, and that the producer had pushed before recording
its own, belongs to the recorded window (R334); from another package, every token until the checkpoint is complete. The recorded window counts it as
come, so that it is not taken again after a restore (R311). -/
def logArrival (s : State) (t w n : Nat) : State :=
  match s.win t w with
  | none => s
  | some x => match x.recorded s with
    | none => s
    | some (q, a, c, p) =>
      let pushed : Bool :=
        if x.pPkg = s.pkg.num then
          match producerPart s q a p.number with
          | some r => decide (x.arrived ≤ (mapGet ProdCopy.zero r.prods x.arc).total)
          | none => true
        else decide ((s.lext q).complete < p.number)
      if pushed then
        let bs := tokenBytes s t x (x.wr + x.cap * n - n) n
        editRecord s q c x.arc (fun e => ({ e.1 with wr := x.wr, occ := e.1.occ + n, next := (e.1.next + n) % 2 ^ 32 }, e.2 ++ bs))
      else s

/-- An eclipse marker that is placed behind `m` tokens of a window of this package after its consumer has recorded a part, and before its producer has
recorded its own, belongs to the recorded window (R334, R335). -/
def logMark (s : State) (x : Window) (m : Nat) : State :=
  match x.recorded s with
  | none => s
  | some (q, a, c, p) =>
    if x.pPkg = s.pkg.num ∧ (producerPart s q a p.number).isNone = true then
      editRecord s q c x.arc (fun e => ({ e.1 with marks := e.1.marks ++ [x.consumed + m - e.1.consumed] }, e.2))
    else s

/-- The next slots arrive at a window: its write index and occupancy (R222, R327). -/
def applyAdvance (s : State) (t w n idx : Nat) : State :=
  logArrival (s.modWin t w (fun x => { x with wr := idx, occ := x.occ + n })) t w n

/-- A consumption of `n` tokens of a window (R223, R328, R332): the read index, occupancy and lap counters advance, the
release goes to the producer, and a checkpoint that falls due is announced (R333). -/
def consume (s : State) (t w n : Nat) : State :=
  match s.win t w with
  | none => s
  | some x =>
    if n = 0 then s
    else
      let wraps := (x.rd + n) / x.cap
      let rd := (x.rd + n) % x.cap
      let lap := (x.lap + wraps) % 2 ^ 16
      let laps := x.laps + wraps
      let s1 := s.modWin t w (fun x => { x with rd := rd, occ := x.occ - n, lap := lap, laps := laps, cCount := x.cCount + n
                                                marks := x.marks.map (fun m => m - n) })
      let s2 :=
        if x.pPkg = s.pkg.num then
          (if x.pTile = t then applyRelease s1 t t w n rd lap else sendMsg s1 t w ⟨false, n, rd, lap, none⟩)
        else s1
      match x.launch with
      | some q =>
        let iv := ((s.launch q).map (·.interval)).getD 0
        if x.pace ∧ 0 < iv ∧ 0 < wraps ∧ x.laps / iv < laps / iv then announceDue s2 q (laps / iv) else s2
      | none => s2

/-- A producer takes `n` slots of a window (R222, R329): its copy's write index, occupancy and count advance. -/
def takeSlots (s : State) (p t w n : Nat) : State :=
  match s.win t w with
  | none => s
  | some x => s.modProd p t w (fun c => { c with wr := (c.wr + n) % x.cap, occ := c.occ + n, pCount := c.pCount + n, total := c.total + n })

/-- The write index of a window advances after its slots are written: at once on the producer's own tile, else by an
advance message (R222, R328). `ev`: the class-5 record that is due (R224). -/
def advance (s : State) (p t w n : Nat) (ev : Option (Nat × Nat × Nat)) : State × Bool :=
  match s.win t w with
  | none => (s, false)
  | some x =>
    if p = t then (applyAdvance s t w n ((x.wr + n) % x.cap), true)
    else (sendMsg s t w ⟨true, n, 0, 0, ev⟩, false)

/-- The class-5 record of a push or pop (R224, R247). -/
def winRecord (slot core w n : Nat) (pop : Bool) (idx lap : Nat) : EvRec :=
  ⟨5, slot, core, BitVec.ofNat 32 (w % 64 + 64 * bit01 pop), BitVec.ofNat 64 (n % 2 ^ 16 + 2 ^ 16 * idx + 2 ^ 32 * lap)⟩

def State.event (s : State) (t : Nat) (r : EvRec) : State := s.modTile t (fun v => v.event r)

end Sys2Proof.Machine
end

