-- ==== Sys2Proof/Machine/FabricOps.lean ====
section
/-! DEFINITION. Machine/FabricOps.lean: staging a configuration in the idle plane and installing it (R85 to R93, R216, R237 to
R239), the configuration of ports (R39, R213), and freezing and quiescence (R238, R241, R299). -/

namespace Sys2Proof.Machine

/-! ## Binding entries and port configurations (R39, R213) -/

/-- A 48-byte edge-port binding entry. -/
structure BindEnt where
  port : Nat
  region : Nat
  dir : Nat
  pageCode : Nat
  dims : Nat
  tensor : Nat
  counts : List Nat
  strides : List Int
  base : Int
deriving DecidableEq, Repr, Inhabited

def parseBind (bs : List Byte) : BindEnt :=
  let f := fieldAt bs
  ⟨f 0 1, f 1 1, f 2 1 % 2, f 2 1 / 2 % 4, f 3 1, f 4 2, (List.range 4).map (fun i => f (8 + 2 * i) 2),
    (List.range 4).map (fun i => sext 32 (f (16 + 4 * i) 4)), sext 64 (f 32 8)⟩

/-- The binding entries of a container (section type 2). -/
def bindEnts (c : List NofSection) : List BindEnt := (records 48 ((sectOf c 2).getD [])).map parseBind

/-- A tensor-mode configuration from a binding entry; `exd` and `sc` from the control word. -/
def BindEnt.cfg (b : BindEnt) (exd : Nat) (sc : Bool) : PortCfg :=
  ⟨false, 0, exd, sc, b.tensor, b.pageCode, b.dims, b.counts.take b.dims, b.strides.take b.dims, b.base⟩

/-- Tokens of a tensor-mode walk. -/
def PortCfg.total (c : PortCfg) : Nat := c.counts.foldl (· * ·) 1

/-- A port configured and READY, at the first token of its walk (R213). -/
def Port.ready (c : PortCfg) : Port := { Port.reset with stat := .ready, cfg := c }

/-! ## Images of a configuration -/

/-- Region image sections of a configuration number, in the container's order (R86). -/
def confSections (c : List NofSection) (n : Nat) : List NofSection :=
  c.filter (fun x => x.typ == 1 && (parseImgHdr x.bytes).conf == n)

def sectReader (x : NofSection) : (Nat → Nat → List Byte) × Bool := (fun o n => (x.bytes.drop o).take n, x.flags % 2 == 1)

/-- The images of a configuration of a container. -/
def contImgs (c : List NofSection) (n : Nat) : List Img :=
  match parseImgs ((confSections c n).map sectReader) 0 with
  | .ok ms => ms
  | .error _ => []

/-- Ports bound for the regions of a configuration, of one direction (R73, R80). -/
def boundPorts (c : List NofSection) (regions : List Nat) (dir : Nat) : List Nat :=
  ((bindEnts c).filter (fun b => regions.contains b.region && b.dir == dir)).map (·.port)

/-- Configuration number of a region of a container. -/
def regionConf (c : List NofSection) (r : Nat) : Option Nat :=
  (c.find? (fun x => x.typ == 1 && x.link == r)).map (fun x => (parseImgHdr x.bytes).conf)

/-! ## Staging (R92, R237) -/

/-- Index of the idle plane; with no configuration resident both are idle, and plane 0 is filled first (log entry 156). -/
def Fabric.idle (f : Fabric) : Nat := if f.active = some 0 then 1 else 0
def Fabric.plane (f : Fabric) (i : Nat) : Plane := if i = 0 then f.plane0 else f.plane1
def Fabric.setPlane (f : Fabric) (i : Nat) (p : Plane) : Fabric := if i = 0 then { f with plane0 := p } else { f with plane1 := p }
/-- The active plane. -/
def Fabric.act (f : Fabric) : Plane := f.plane (f.active.getD 0)

/-- Key of an element word in a plane: row, then fabric row and column. -/
def wordKey (row r c : Nat) : Nat := row * 256 + r * 16 + c

/-- The element words of an image by key. -/
def Img.words (m : Img) : List (Nat × ElemWord) :=
  (m.body.zipIdx.map (fun row => row.1.2.zipIdx.map (fun w => (wordKey row.2 (m.at w.2).1 (m.at w.2).2, w.1)))).flatten

/-- The first poisoned word of a row of the active plane. -/
def Fabric.badWord (f : Fabric) (row : Nat) : Option Nat :=
  (f.act.poison.find? (fun w => w.2 && w.1 / 256 == row)).map (fun w => f.active.getD 0 * 8192 + w.1)

/-- Whether an image covers a word key. -/
def Img.covers (m : Img) (k : Nat) : Bool :=
  let row := k / 256
  let r := k / 16 % 16
  let c := k % 16
  decide (row < m.hdr.rows) && decide (m.hdr.orow ≤ r) && decide (r < m.hdr.orow + m.hdr.height) && decide (m.hdr.ocol ≤ c) &&
    decide (c < m.hdr.ocol + m.hdr.width)

/-- The declaration records of an image by element. -/
def Img.elemDecls (m : Img) : List (Nat × ElemDecl) := m.decls.zipIdx.map (fun d => ((m.at d.2).1 * 16 + (m.at d.2).2, d.1))

/-- The plane that an expansion leaves: rows and elements outside the configuration keep their words (R92). -/
def expand (p : Plane) (ms : List Img) (conf : Nat) : Plane :=
  { poison := p.poison.filter (fun w => !ms.any (fun m => m.covers w.1))
    words := (ms.map Img.words).flatten.foldl (fun m w => mapSet 0 m w.1 w.2) (p.words.filter (fun w => !ms.any (fun m => m.covers w.1)))
    hdrs := (ms.zipIdx.map (fun m => m.1.body.zipIdx.map (fun row => (m.2 * 32 + row.2, BitVec.ofNat 32 row.1.1)))).flatten.foldl
      (fun h x => mapSet 0 h x.1 x.2) []
    regions := ms.map (·.hdr)
    decls := (ms.map Img.elemDecls).flatten.foldl
      (fun h x => mapInsert h x.1 x.2) []
    steps := match ms with | m :: _ => m.steps | [] => []
    conf := conf }

/-- Starts expanding a configuration into the idle plane (R237). -/
def Fabric.stage (f : Fabric) (ms : List Img) (conf : Nat) : Fabric :=
  { f.setPlane f.idle (expand (f.plane f.idle) ms conf) with staged := true, expanding := true }

/-! ## Running state -/

def LoopCtx.active (x : LoopCtx) : Bool := x.stat == .running || x.stat == .draining
/-- Quiescent in the sense of step 3 of R238 (R299). -/
def LoopCtx.quiescent (x : LoopCtx) : Bool := !x.active && !x.starting && !x.resuming
def Region.active (g : Region) : Bool := g.ctxs.any LoopCtx.active
/-- Whether a region has anything to run: an active context, or one that `fb.run` has selected. -/
def Region.pending (g : Region) : Bool := g.ctxs.any (fun x => !x.quiescent)
/-- Something is to run in some region. -/
def Fabric.running (f : Fabric) : Bool := f.regions.any Region.pending

/-- The resident configuration is matrix mode. -/
def Fabric.matrix (f : Fabric) : Bool := f.active.isSome && f.act.regions.any (·.matrix)

/-- The resident configuration is quiescent (R238). -/
def quiescent (v : Tile) : Bool :=
  v.fabric.active.isNone || (if v.fabric.matrix then !v.mx.busy else v.fabric.regions.all (fun g => g.ctxs.all LoopCtx.quiescent))

/-- Marks the contexts that a trap of the fabric freezes (R429); what a fault freezes, no `sys.eret` resumes. -/
def Fabric.markFrozen (f : Fabric) (fault : Bool) : Fabric :=
  { f with
    trapFroze := if fault then [] else (f.regions.zipIdx.map (fun g => (g.1.ctxs.zipIdx.filter (fun x => !x.1.quiescent)).map (fun x => g.2 * 4 + x.2))).flatten.foldl
      (fun m k => mapSet false m k true) f.trapFroze }

/-! ## Installation (R89, R216, R239, R306) -/

/-- Rotating entries that keep their contents: those in a bank that the new configuration has live or retained, and the old
one had too (R89). -/
def keptEntries (f : Fabric) (p : Plane) : List (Nat × TVal) :=
  f.rot.filter (fun x =>
    let e := x.1 / 16
    let b := x.1 % 16 / 4
    let d := mapGet ⟨0, 0, []⟩ p.decls e
    (bitOf d.live b || bitOf d.keep b) && (bitOf (mapGet 0 f.live e) b || bitOf (mapGet 0 f.keep e) b))

/-- The port bindings of a plane's configuration (R216); one presented from scratchpad has none. -/
def Plane.binds (p : Plane) (binds : List BindEnt) : List BindEnt :=
  if p.conf = 255 then [] else binds.filter (fun b => p.regions.any (fun r => r.index == b.region))

/-- Starts expanding a configuration into the idle plane of a tile, an armed injection of the row store acting on what it writes (R237, R434). -/
def stageOn (s : State) (t : Nat) (ms : List Img) (conf : Nat) : State :=
  strikeRows (s.modTile t (fun v => { v with fabric := v.fabric.stage ms conf })) t (s.taskCtx t (s.slot t)) (s.tile t).fabric.idle
    (fun k => ms.any (fun m => m.covers k))

/-- Installs the staged configuration of a tile with the port bindings of its container (R239); routes in flight go, with the entries
that they had reserved (R295, R304). -/
def Fabric.install (f : Fabric) (binds : List BindEnt) : Fabric :=
  let i := f.idle
  let p := f.plane i
  let mine := p.binds binds
  { f with
    active := some i
    staged := false
    expanding := false
    rot := keptEntries f p
    live := p.decls.filterMap (fun d => if d.2.live = 0 then none else some (d.1, d.2.live))
    keep := p.decls.filterMap (fun d => if d.2.keep = 0 then none else some (d.1, d.2.keep))
    res := []
    chan := []
    dl := (p.decls.map (fun d => d.2.lines.zipIdx.map (fun l => (d.1 * 4 + l.2, l.1)))).flatten.foldl (fun m x => mapSet [] m x.1 x.2) []
    flight := []
    ports := mine.foldl (fun m b => mapSet Port.reset m b.port (Port.ready (b.cfg (b.dims - 1) false)))
      (f.ports.map (fun p => (p.1, { p.2 with reserved := 0 })))
    regions := if p.regions.any (·.matrix) then [] else p.regions.map (fun _ => Region.reset)
    trapFroze := []
    beat := [] }

/-- Port bindings of the container of a tile's task. -/
def taskBinds (s : State) (t slot : Nat) : List BindEnt :=
  match s.task t slot with
  | some k => bindEnts (s.container k.container)
  | none => []

/-- A sequencer with no block. -/
def Mx.idle (m : Mx) : Mx := { m with busy := false, wind := none }

/-- The installation on a tile. -/
def installOn (s : State) (t : Nat) : State :=
  s.modTile t (fun v => { v with fabric := v.fabric.install (taskBinds s t (v.resident.getD 0)), mx := v.mx.idle })

end Sys2Proof.Machine
end

