-- ==== Sys2Proof/Machine/Frame.lean ====
section
/-! DEFINITION. Machine/Frame.lean: the 1 MiB context frame that a swap-out or a switch writes, and that a restore reads (R62, R63, R405, R439). The
table of R439 gives the areas; the places of the values within an area are the model's (log entry 19). -/

namespace Sys2Proof.Machine

/-- Bytes of a frame ahead of its reserved area (R439). -/
def frameSpan : Nat := 0x94000

/-- A part of a frame: its offset and its bytes. -/
abbrev FramePart := Nat × List Byte

/-- A register value with its tag, in five bytes. -/
def tvalBytes (x : TVal) : List Byte := leBytes 4 x.bits.toNat ++ leBytes 1 x.tag.toNat

/-- The header: valid, logical index, journal sequence, the resident and the staged configuration number. -/
def headerPart (k : Task) (f : Fabric) : FramePart :=
  (0, leBytes 4 1 ++ leBytes 4 k.lidx ++ leBytes 8 k.launch ++ leBytes 2 (if f.active.isSome then f.act.conf else 0xFFFF) ++
    leBytes 2 (if f.staged then (f.plane f.idle).conf else 0xFFFF))

/-- Numbers of the machine CSRs that a core holds outside the monitor's block 0x7C0–0x7FF. -/
def machNums : List Nat := [0x300, 0x304, 0x305, 0x340, 0x341, 0x342, 0x343, 0xB00, 0xB02]

/-- x1–x31, pc, `instret`, what the core is doing, its region map and CSRs, the access it is held at, with the core's own memories. -/
def coreParts (k : Core) (i : Nat) : List FramePart :=
  let a := 0x1000 + 0x400 * i
  (a, (List.range 31).flatMap (fun r => leBytes 8 (mapGet 0 k.x (r + 1)).toNat) ++ leBytes 8 k.pc.toNat ++
    leBytes 8 k.instret.toNat ++ leBytes 1 k.stat.ctorIdx ++ leBytes 1 (bit01 k.machine + 2 * bit01 k.blocked) ++ leBytes 2 k.ilen ++
    leBytes 4 k.iword.toNat ++ leBytes 8 k.waited ++ leBytes 32 k.imap.toNat ++ machNums.flatMap (fun n => leBytes 8 (mapGet 0 k.mcsr n).toNat)) ::
    (a + 472, match k.held with
      | some h => leBytes 1 (1 + 2 * bit01 h.swapped + 4 * bit01 h.ready) ++ leBytes 3 h.ctx ++ leBytes 4 h.tensor ++ leBytes 8 h.page
      | none => leBytes 16 0) ::
    (a + 496, (List.range 64).flatMap (fun n => leBytes 8 (mapGet 0 k.mcsr (0x7C0 + n)).toNat)) ::
    (a + 1008, match k.out with | some x => leBytes 8 x.toNat ++ leBytes 1 1 | none => leBytes 9 0) ::
    (k.dmem.map (fun b => (0x58000 + 0x4000 * i + b.1, [b.2])) ++ k.imem.map (fun b => (0x64000 + 0x10000 * i + b.1, [b.2])))

/-- The control core's CSRs, behind its registers. -/
def csrPart (c : CtlCsr) : FramePart :=
  (0x1180, leBytes 8 c.tvec.toNat ++ leBytes 8 c.tepc.toNat ++ (List.range 4).flatMap (fun i => leBytes 8 (mapGet 0 c.mxpeer i).toNat) ++
    leBytes 8 c.trec.w0.toNat ++ leBytes 8 c.trec.w1.toNat ++ leBytes 8 c.trec.w2.toNat ++ leBytes 8 c.trec.w3.toNat ++ leBytes 8 c.tstat.toNat)

/-- A loop context in 14 bytes. -/
def LoopCtx.frameBytes (x : LoopCtx) : List Byte :=
  leBytes 1 x.stat.ctorIdx ++ leBytes 2 x.sv.toNat ++ leBytes 4 x.iter.toNat ++
    leBytes 1 (bit01 x.exitRaised + 2 * bit01 x.quiet + 4 * bit01 x.starting + 8 * bit01 x.wasDraining + 16 * bit01 x.resuming) ++
    leBytes 1 x.drained ++ leBytes 5 x.frozenRow

/-- Row counter and loop contexts of a region, in 64 bytes. -/
def regionPart (r : Nat) (g : Region) : FramePart :=
  (0x2000 + 64 * r, leBytes 1 g.row ++ leBytes 7 (bit01 g.ready + 2 * bit01 g.passEnd + 4 * bit01 g.holding) ++ g.ctxs.flatMap LoopCtx.frameBytes)

/-- A port's state, configuration, walk, held access and queue, in 192 bytes. -/
def portPart (p : Nat) (q : Port) : FramePart :=
  let c := q.cfg
  (0x2200 + 192 * p,
    leBytes 1 (q.stat.ctorIdx + 8 * bit01 q.ev + 16 * bit01 q.held.isSome + 32 * bit01 c.wm + 64 * bit01 c.sc) ++ leBytes 1 (c.win % 64 + 64 * c.exd) ++
      leBytes 2 c.tensor ++ leBytes 1 (c.pageCode + 4 * c.dims) ++ leBytes 1 q.queue.length ++ leBytes 2 q.reserved ++
      (List.range 4).flatMap (fun i => leBytes 2 (c.counts.getD i 0)) ++ (List.range 4).flatMap (fun i => leBytes 4 (wrapInt 32 (c.strides.getD i 0))) ++
      leBytes 8 (wrapInt 64 c.base) ++ leBytes 8 q.nextStep ++ leBytes 8 q.written ++ leBytes 4 q.moved.toNat ++ leBytes 4 ((q.held.map (·.page)).getD 0) ++
      q.queue.flatMap (fun k => tvalBytes k.val ++ leBytes 3 (k.flags + 16 * bit01 k.poison)))

/-- A control token or a sink in six bytes: full, value, tag. -/
def tokPart (base k : Nat) (x : Option TVal) : FramePart := (base + 6 * k, match x with | some v => leBytes 1 1 ++ tvalBytes v | none => leBytes 6 0)

/-- A route in flight in 8 bytes, bit 63 set. -/
def flightPart (i : Nat) (x : InFlight) : FramePart :=
  (0xF000 + 8 * i, leBytes 8 (x.val.bits.toNat + 2 ^ 32 * x.val.tag.toNat + 2 ^ 40 * (x.region + 2 ^ 3 * (x.left + 2 ^ 5 * (x.chan + 2 ^ 2 * (x.ctx + 2 ^ 2 *
    (match x.port with | some p => 256 + p | none => x.elem % 256)))) + 2 ^ 23)))

/-- A row store: its words, row headers, declarations, region headers and step table. -/
def planeParts (i : Nat) (p : Plane) : List FramePart :=
  p.words.map (fun w => (0x24000 + 0x18000 * i + 12 * w.1, leBytes 12 w.2.toNat)) ++
    p.hdrs.map (fun h => (0x54000 + 0x400 * i + 4 * h.1, leBytes 4 h.2.toNat)) ++
    p.decls.map (fun d => (0x54800 + 0x600 * i + 6 * d.1, leBytes 1 d.2.live ++ leBytes 1 d.2.keep ++ (List.range 4).flatMap (fun l =>
      leBytes 1 (((d.2.lines[l]?).map (·.length)).getD 0)))) ++
    [(0x55400 + 0x200 * i, p.steps.flatMap (fun w => leBytes 16 w.toNat)),
      (0x55800 + 0x80 * i, p.regions.flatMap (fun h => [h.index, h.plane, h.rows, bit01 h.matrix, h.orow, h.ocol, h.height, h.width, h.lcMask, h.conf,
        h.stepCount].flatMap (leBytes 1)))]

/-- The fabric. -/
def fabricParts (f : Fabric) : List FramePart :=
  f.regions.zipIdx.map (fun g => regionPart g.2 g.1) ++ f.ports.map (fun p => portPart p.1 p.2) ++ f.ct.map (fun k => tokPart 0x2E00 k.1 k.2) ++
    f.sk.map (fun k => tokPart 0x2E40 k.1 k.2) ++ f.rot.map (fun x => (0x4000 + 5 * x.1, tvalBytes x.2)) ++
    f.res.map (fun x => (0x9000 + 5 * x.1, tvalBytes x.2)) ++ f.chan.map (fun x => (0xA000 + 5 * x.1, tvalBytes x.2)) ++
    f.flight.zipIdx.map (fun x => flightPart x.2 x.1) ++ f.dl.map (fun l => (0x10000 + 80 * l.1, l.2.flatMap tvalBytes)) ++
    planeParts 0 f.plane0 ++ planeParts 1 f.plane1

/-- Steeping state and binding slots. -/
def extParts (e : TaskExt) : List FramePart :=
  (0x2E80, leBytes 8 e.steep.key.toNat ++ leBytes 4 e.steep.stream.toNat ++ leBytes 2 e.steep.member.toNat ++ leBytes 6 e.steep.base.toNat) ::
    e.binds.map (fun b => (0x2F00 + 40 * b.1, leBytes 8 b.2.base.toNat ++ leBytes 8 b.2.len ++ leBytes 4 b.2.kind ++ leBytes 4 b.2.scope ++ leBytes 8 b.2.obj.toNat))

/-- Every part of the frame of a task's context (R62, R439). -/
def frameParts (k : Task) (e : TaskExt) (c : Context) : List FramePart :=
  headerPart k c.fabric :: csrPart c.csr :: ((c.cores.zipIdx.flatMap (fun x => coreParts x.1 x.2)) ++ fabricParts c.fabric ++ extParts e)

/-- Address of a context frame of a die: frames are 1 MiB each, consecutive, from BASE of `DIE_CTXF_POOL` (R62). -/
def ctxFrameAddr (s : State) (d n : Nat) : Nat := (bitsOf (s.die d).ctxfPool.toNat 51 20 + n) * 2 ^ 20

/-- The bytes of a frame at an address: every part that lies within its areas, and 0 elsewhere. -/
def frameImage (a : Nat) (ps : List FramePart) : List (Nat × Byte) :=
  (ps.filter (fun p => decide (p.1 + p.2.length ≤ frameSpan))).foldl (fun m p => putBytes m (a + p.1) p.2) []

/-- The protection words of an area of HBM. -/
def areaWords (a span : Nat) : List Nat := (List.range (ceilDiv span 32)).map (fun i => a + 32 * i)

/-- Writes an area of HBM, whose words are all rewritten whole: every part that lies within it, and 0 elsewhere. No earlier write of them is still to
come, and no error is left in them, but for an injection that acts on this write (R434, R458). -/
def State.putArea (s : State) (a span : Nat) (ps : List FramePart) : State :=
  let out (x : Nat) : Bool := decide (x < a) || decide (a + span ≤ x)
  let k := s.stack (stackOf a)
  ({ s with
    mem := (ps.filter (fun p => decide (p.1 + p.2.length ≤ span))).foldl (fun m p => putBytes m (a + p.1) p.2) (mapKeep s.mem out)
    writes := (s.cutAt [(a, span)]).writes.filter (fun w => !w.touches a span)
    poison := mapKeep s.poison out
    flips := mapKeep s.flips out
    hbm := if k.poisoned then mapSet Stack.reset s.hbm (stackOf a) { k with clean := (areaWords a span).foldl (fun m w => mapSet false m w true) k.clean }
      else s.hbm } : State).inject a span noCtx

/-- Writes a context frame. -/
def State.putFrame (s : State) (a : Nat) (ps : List FramePart) : State := s.putArea a frameSpan ps

/-! ## Reading a frame back -/

/-- The bytes of a frame that are not 0, as they stand at their home. -/
def frameCells (s : State) (a : Nat) : List (Nat × Byte) :=
  mapKeep ((s.writes.filter (fun w => w.touches a frameSpan)).foldl (fun m w => putBytes m w.addr w.bytes) s.mem)
    (fun x => decide (a ≤ x) && decide (x < a + frameSpan))

/-- The first uncorrectable word of an area of HBM. -/
def areaPoison (s : State) (a span : Nat) : Option Nat :=
  let k := s.stack (stackOf a)
  ((s.poison.find? (fun p => p.2 && decide (a ≤ p.1) && decide (p.1 < a + span))).map (·.1)).or
    (if k.poisoned then (areaWords a span).find? (fun w => !mapGet false k.clean w) else none)

/-- The first uncorrectable word of a frame. -/
def framePoison (s : State) (a : Nat) : Option Nat := areaPoison s a frameSpan

/-- A sparse map of the first keys, from the value at each. -/
def tableOf {α : Type} [DecidableEq α] (d : α) (n : Nat) (f : Nat → α) : List (Nat × α) :=
  (List.range n).filterMap (fun i => if f i = d then none else some (i, f i))

/-- What reads a number of some bytes at an offset of a frame. -/
abbrev Rd := Nat → Nat → Nat

def Rd.tval (f : Rd) (o : Nat) : TVal := ⟨BitVec.ofNat 32 (f o 4), BitVec.ofNat 8 (f (o + 4) 1)⟩

def CoreStat.ofIdx : Nat → CoreStat
  | 0 => .off | 1 => .run | 2 => .ended | 3 => .trapped | 4 => .faulted | _ => .held
def LcStat.ofIdx : Nat → LcStat
  | 0 => .unstarted | 1 => .running | 2 => .draining | 3 => .frozen | _ => .exited
def PortStat.ofIdx : Nat → PortStat
  | 0 => .idle | 1 => .ready | 2 => .streaming | 3 => .done | _ => .halted

/-- A core out of a frame. -/
def Rd.core (f : Rd) (i : Nat) (k : Core) : Core :=
  let a := 0x1000 + 0x400 * i
  let nums := machNums.zipIdx.map (fun n => (n.1, a + 312 + 8 * n.2)) ++ (List.range 64).map (fun n => (0x7C0 + n, a + 496 + 8 * n))
  { k with
    x := (tableOf 0 31 (fun r => BitVec.ofNat 64 (f (a + 8 * r) 8))).map (fun x => (x.1 + 1, x.2))
    pc := BitVec.ofNat 64 (f (a + 248) 8), instret := BitVec.ofNat 64 (f (a + 256) 8), stat := .ofIdx (f (a + 264) 1)
    machine := bitOf (f (a + 265) 1) 0, blocked := bitOf (f (a + 265) 1) 1, ilen := f (a + 266) 2, iword := BitVec.ofNat 32 (f (a + 268) 4)
    waited := f (a + 272) 8, imap := BitVec.ofNat 256 (f (a + 280) 32)
    mcsr := nums.foldl (fun m n => mapSet 0 m n.1 (BitVec.ofNat 64 (f n.2 8))) k.mcsr
    held := if bitOf (f (a + 472) 1) 0 then
        some ⟨f (a + 473) 3, f (a + 476) 4, f (a + 480) 8, bitOf (f (a + 472) 1) 1, bitOf (f (a + 472) 1) 2 || k.held.any (·.ready)⟩ else none
    out := if f (a + 1016) 1 = 0 then none else some (BitVec.ofNat 64 (f (a + 1008) 8))
    dmem := tableOf 0 (2 ^ 14) (fun j => BitVec.ofNat 8 (f (0x58000 + 0x4000 * i + j) 1))
    imem := tableOf 0 (2 ^ 16) (fun j => BitVec.ofNat 8 (f (0x64000 + 0x10000 * i + j) 1)) }

/-- The control core's CSRs out of a frame. -/
def Rd.csr (f : Rd) : CtlCsr :=
  let w (i : Nat) : DWord := BitVec.ofNat 64 (f (0x1180 + 8 * i) 8)
  ⟨w 0, w 1, tableOf 0 4 (fun i => w (2 + i)), ⟨w 6, w 7, w 8, w 9⟩, w 10⟩

/-- A loop context out of a frame. -/
def Rd.ctx (f : Rd) (o : Nat) : LoopCtx :=
  let b := f (o + 7) 1
  ⟨.ofIdx (f o 1), BitVec.ofNat 16 (f (o + 1) 2), BitVec.ofNat 32 (f (o + 3) 4), bitOf b 0, f (o + 8) 1, bitOf b 1, bitOf b 2, bitOf b 3,
    f (o + 9) 5, bitOf b 4⟩

/-- A region out of a frame. -/
def Rd.region (f : Rd) (r : Nat) : Region :=
  let o := 0x2000 + 64 * r
  let b := f (o + 1) 7
  ⟨f o 1, (List.range 4).map (fun c => f.ctx (o + 8 + 14 * c)), bitOf b 0, bitOf b 1, bitOf b 2⟩

/-- A port out of a frame: the key of its window and the access it is held at are the manager's. -/
def Rd.port (f : Rd) (p : Nat) (q : Port) : Port :=
  let o := 0x2200 + 192 * p
  let b := f o 1
  let d := f (o + 4) 1 / 4 % 8
  { q with
    stat := .ofIdx (b % 8), ev := bitOf b 3, reserved := f (o + 6) 2, nextStep := f (o + 40) 8, written := f (o + 48) 8
    moved := BitVec.ofNat 32 (f (o + 56) 4)
    cfg := { q.cfg with
      wm := bitOf b 5, sc := bitOf b 6, exd := f (o + 1) 1 / 64, tensor := f (o + 2) 2, pageCode := f (o + 4) 1 % 4, dims := d
      counts := (List.range d).map (fun i => f (o + 8 + 2 * i) 2), strides := (List.range d).map (fun i => sext 32 (f (o + 16 + 4 * i) 4))
      base := sext 64 (f (o + 32) 8) }
    queue := (List.range (f (o + 5) 1)).map (fun i =>
      let w := o + 64 + 8 * i
      ⟨f.tval w, f (w + 5) 3 % 16, bitOf (f (w + 5) 3) 4, ((q.queue[i]?).map (·.step)).getD 0⟩) }

/-- A control token or a sink out of a frame. -/
def Rd.tok (f : Rd) (o : Nat) : Option TVal := if f o 1 = 0 then none else some (f.tval (o + 1))

/-- A route in flight out of a frame. -/
def Rd.flight (f : Rd) (i : Nat) : Option InFlight :=
  let x := f (0xF000 + 8 * i) 8
  if !bitOf x 63 then none
  else
    let g := bitsOf x 60 52
    some ⟨bitsOf x 42 40, bitsOf x 47 43, if 256 ≤ g then some (g - 256) else none, g % 256, bitsOf x 49 48,
      ⟨BitVec.ofNat 32 (bitsOf x 31 0), BitVec.ofNat 8 (bitsOf x 39 32)⟩, bitsOf x 51 50⟩

/-- A row store out of a frame: its words, row headers, LIVE and KEEP of its declarations, and its step table. -/
def Rd.plane (f : Rd) (i : Nat) (p : Plane) : Plane :=
  { p with
    words := tableOf 0 8192 (fun k => BitVec.ofNat 96 (f (0x24000 + 0x18000 * i + 12 * k) 12))
    hdrs := tableOf 0 256 (fun k => BitVec.ofNat 32 (f (0x54000 + 0x400 * i + 4 * k) 4))
    decls := p.decls.map (fun d => (d.1, { d.2 with live := f (0x54800 + 0x600 * i + 6 * d.1) 1, keep := f (0x54801 + 0x600 * i + 6 * d.1) 1 }))
    steps := p.steps.mapIdx (fun k _ => BitVec.ofNat 128 (f (0x55400 + 0x200 * i + 16 * k) 16)) }

/-- The fabric out of a frame; its bank states, and what of it counts no further than a row, are the manager's. -/
def Rd.fabric (f : Rd) (x : Fabric) : Fabric :=
  { x with
    plane0 := f.plane 0 x.plane0, plane1 := f.plane 1 x.plane1
    rot := tableOf TVal.empty 4096 (fun k => f.tval (0x4000 + 5 * k)), res := tableOf TVal.empty 256 (fun k => f.tval (0x9000 + 5 * k))
    chan := tableOf TVal.empty 1024 (fun k => f.tval (0xA000 + 5 * k))
    dl := x.dl.map (fun l => (l.1, l.2.mapIdx (fun i _ => f.tval (0x10000 + 80 * l.1 + 5 * i))))
    flight := (List.range 512).filterMap f.flight
    ct := tableOf none 4 (fun k => f.tok (0x2E00 + 6 * k)), sk := tableOf none 4 (fun k => f.tok (0x2E40 + 6 * k))
    ports := x.ports.map (fun p => (p.1, f.port p.1 p.2))
    regions := x.regions.mapIdx (fun r _ => f.region r) }

/-- The steeping state out of a frame. -/
def Rd.steep (f : Rd) : SteepKeys :=
  ⟨BitVec.ofNat 64 (f 0x2E80 8), BitVec.ofNat 32 (f 0x2E88 4), BitVec.ofNat 16 (f 0x2E8C 2), BitVec.ofNat 48 (f 0x2E8E 6)⟩

/-- The binding slots out of a frame. -/
def Rd.binds (f : Rd) : List (Nat × Binding) :=
  tableOf Binding.zero 16 (fun i =>
    let o := 0x2F00 + 40 * i
    ⟨BitVec.ofNat 64 (f o 8), f (o + 8) 8, f (o + 16) 4, f (o + 20) 4, BitVec.ofNat 64 (f (o + 24) 8)⟩)

/-- What a frame gives back, for the context as it was saved: the context, the steeping state and the binding slots. A frame whose bytes stand as they
were written gives back what they were written from; one that has changed gives what its bytes say (R63, R439; log entry 19). -/
def readFrame (s : State) (a : Nat) (k : Task) (e : TaskExt) (c : Context) : Context × SteepKeys × List (Nat × Binding) :=
  let cells := frameCells s a
  if cells = frameImage a (frameParts k e c) then (c, e.steep, e.binds)
  else
    let f : Rd := fun o n => leNat ((List.range n).map (fun i => mapGet 0 cells (a + o + i)))
    ({ c with cores := c.cores.mapIdx (fun i x => f.core i x), csr := f.csr, fabric := f.fabric c.fabric }, f.steep, f.binds)

end Sys2Proof.Machine
end

