-- ==== Sys2Proof/Machine/Graphs.lean ====
section
/-! DEFINITION. Machine/Graphs.lean: the checks of a graph at launch (R320 to R324, R461). -/

namespace Sys2Proof.Machine

/-- Sums over a period (R321). -/
def Graph.prodSum (g : Graph) (m a : Nat) : Nat :=
  ((List.range ((g.actor ((g.arcs[a]?.map (·.prod)).getD 0)).phases)).map (g.prodCount m a)).foldl (· + ·) 0
def Graph.consSum (g : Graph) (m a : Nat) : Nat :=
  ((List.range ((g.actor ((g.arcs[a]?.map (·.cons)).getD 0)).phases)).map (g.consCount m a)).foldl (· + ·) 0

/-! ## Balance (R461) -/

/-- A ratio in lowest terms. -/
def mkRatio (n d : Nat) : Nat × Nat := let k := Nat.gcd n d; if k = 0 then (n, d) else (n / k, d / k)

abbrev Ratios := List (Option (Nat × Nat))

/-- One arc of the procedure: the ratios, or the arc that fails. -/
def balanceArc (g : Graph) (m : Nat) (r : Except Nat Ratios) (a : Nat) : Except Nat Ratios :=
  match r, g.arcs[a]? with
  | .ok rs, some arc =>
    let p := g.prodSum m a
    let c := g.consSum m a
    if (p == 0) != (c == 0) then .error a
    else if p == 0 then .ok rs
    else match (rs[arc.prod]?).join, (rs[arc.cons]?).join with
    | some x, some y => if x.1 * p * y.2 = y.1 * c * x.2 then .ok rs else .error a
    | some x, none => .ok (rs.set arc.cons (some (mkRatio (x.1 * p) (x.2 * c))))
    | none, some y => .ok (rs.set arc.prod (some (mkRatio (y.1 * c) (y.2 * p))))
    | none, none => .ok rs
  | r, _ => r

/-- The lowest actor of the part of a component that each actor's arcs join under a rate set: an arc with both sums 0 takes no
part in the balance (R321). -/
def Graph.labelsIn (g : Graph) (m : Nat) : List Nat :=
  let as := g.arcs.zipIdx.filterMap (fun a => if g.prodSum m a.2 = 0 then none else some a.1)
  (List.range g.actors.length).foldl (fun ls _ => mergeLabels ls as) (List.range g.actors.length)

/-- The ratios of a balanced rate set, or the first failing arc; one round of the arcs per actor settles them. -/
def balance (g : Graph) (m : Nat) : Except Nat Ratios :=
  let ls := g.labelsIn m
  let start : Ratios := (List.range g.actors.length).map (fun x => if ls.getD x x = x then some (1, 1) else none)
  (List.range (g.actors.length + 1)).foldl (fun r _ => (List.range g.arcs.length).foldl (balanceArc g m) r) (.ok start)

/-- Firings per iteration of an actor (R321); an actor with no arc fires once (R290). -/
def Graph.firings (g : Graph) (m x : Nat) : Nat :=
  if (g.inArcs x ++ g.outArcs x).isEmpty then 1
  else match balance g m with
  | .error _ => 0
  | .ok rs =>
    let ratio (y : Nat) : Nat × Nat := ((rs[y]?).join).getD (1, 1)
    let ls := g.labelsIn m
    let comp := (List.range g.actors.length).filter (fun y => ls.getD y y == ls.getD x x)
    let den := comp.foldl (fun l y => Nat.lcm l (ratio y).2) 1
    let scaled (y : Nat) : Nat := (ratio y).1 * (den / (ratio y).2)
    let k := comp.foldl (fun d y => Nat.gcd d (scaled y)) 0
    (if k = 0 then 1 else scaled x / k) * (g.actor x).phases

/-! ## Iteration (R324) -/

structure IterSt where
  tok : List Nat
  left : List Nat
  ph : List Nat
deriving DecidableEq, Repr, Inhabited

def iterEnabled (g : Graph) (m : Nat) (s : IterSt) (x : Nat) : Bool :=
  s.left.getD x 0 != 0 &&
    (g.inArcs x).all (fun a => decide (g.consCount m a (s.ph.getD x 0) ≤ s.tok.getD a 0)) &&
    (g.outArcs x).all (fun a => decide (g.prodCount m a (s.ph.getD x 0) + s.tok.getD a 0 ≤ ((g.arcs[a]?).map (·.cap)).getD 0))

def iterFire (g : Graph) (m : Nat) (s : IterSt) (x : Nat) : IterSt :=
  let p := s.ph.getD x 0
  let t1 := (g.inArcs x).foldl (fun t a => t.modify a (fun n => n - g.consCount m a p)) s.tok
  let t2 := (g.outArcs x).foldl (fun t a => t.modify a (fun n => n + g.prodCount m a p)) t1
  ⟨t2, s.left.modify x (fun n => n - 1), s.ph.modify x (fun n => (n + 1) % (g.actor x).phases)⟩

/-- Fires until nothing is enabled; an actor left with firings fails the check. -/
def iterate (g : Graph) (m : Nat) : Nat → IterSt → Option Nat
  | 0, _ => none
  | fuel + 1, s =>
    match (List.range g.actors.length).find? (iterEnabled g m s) with
    | some x => iterate g m fuel (iterFire g m s x)
    | none => (List.range g.actors.length).find? (fun x => s.left.getD x 0 != 0)

def iterationCheck (g : Graph) (m : Nat) : Option Nat :=
  let left := (List.range g.actors.length).map (g.firings m)
  iterate g m (left.foldl (· + ·) 0 + 1) ⟨g.arcs.map (·.delay), left, g.actors.map (fun _ => 0)⟩

/-! ## The checks in order (R315, R323) -/

/-- A failed check: field code, index, and the offending value where the manual states one. -/
structure GraphFail where
  field : Nat
  idx : Nat
  val : Option Nat
deriving DecidableEq, Repr, Inhabited

/-- What the checks need beside the graph: rows and package of each actor, the pacing arc, the starting set, and the mode
requests validated with the launch (new set, switch count), by rising switch count. -/
structure GraphCtx where
  rows : Nat → Nat
  pkg : Nat → Nat
  pace : Option Nat
  start : Nat
  reqs : List (Nat × Nat)

def memActors (g : Graph) : List Nat := (List.range g.actors.length).filter (fun x => (g.actor x).kind != 0)

/-- Order 3: counts of 1, and one quotient of rows by firings in each component, whole when no request stands. -/
def memFail (g : Graph) (c : GraphCtx) (m : Nat) : Option Nat :=
  (memActors g).find? (fun x =>
    let arcs := g.inArcs x ++ g.outArcs x
    let fx := g.firings m x
    let first := ((memActors g).find? (fun y => g.labels.getD y y == g.labels.getD x x)).getD x
    arcs.length != 1 ||
    arcs.any (fun a => (List.range (g.actor x).phases).any (fun p => (List.range g.modes).any (fun n =>
      (if (g.actor x).kind = 1 then g.prodCount n a p else g.consCount n a p) != 1))) ||
    c.rows x * g.firings m first != c.rows first * fx || (c.reqs.isEmpty && (fx == 0 || c.rows x % fx != 0)))

/-- The checks of one rate set (R323), but for order 7. -/
def graphSetFail (g : Graph) (c : GraphCtx) (m : Nat) : Option GraphFail :=
  let cross (a : Arc) : Bool := c.pkg a.prod != c.pkg a.cons
  if 64 < g.arcs.length then some ⟨0x14, 64, none⟩
  else match balance g m with
  | .error a => some ⟨0x10, a, none⟩
  | .ok _ =>
    match memFail g c m with
    | some x => some ⟨0x12, x, none⟩
    | none =>
      match g.arcs.findIdx? (fun a => cross a && (a.delay == 0 || (g.actor a.prod).kind != 0 || (g.actor a.cons).kind != 0)) with
      | some a => some ⟨0x13, a, none⟩
      | none =>
        match c.pace with
        | some a =>
          if (match g.arcs[a]? with | some y => cross y || g.prodSum c.start a == 0 | none => true) then some ⟨0x15, a, none⟩
          else (iterationCheck g m).map (fun x => ⟨0x11, x, none⟩)
        | none => (iterationCheck g m).map (fun x => ⟨0x11, x, none⟩)

/-- The conditions on a switch count for a source (R315). -/
def switchOk (g : Graph) (rows old new x f : Nat) : Bool :=
  let fo := g.firings old x
  let fn := g.firings new x
  fo != 0 && fn != 0 && f % fo == 0 && decide (f ≤ rows) && (rows - f) % fn == 0

/-- The source memory actor at which a mode request fails. -/
def requestFail (g : Graph) (rows : Nat → Nat) (old new f : Nat) : Option Nat :=
  (memActors g).find? (fun x => (g.actor x).kind == 1 && !switchOk g (rows x) old new x f)

/-- The first mode request of a chain that fails order 7, each taken from the set that the one before selects (R315): the source memory
actor, and the switch count. -/
def switchChain (g : Graph) (rows : Nat → Nat) : Nat → List (Nat × Nat) → Option (Nat × Nat)
  | _, [] => none
  | old, (new, f) :: r =>
    if g.modes ≤ new then some (0, f)
    else match requestFail g rows old new f with
    | some x => some (x, f)
    | none => switchChain g rows new r

/-- A failure of a launch that mode requests are validated with: for the conditions of R315 it names a switch count. -/
def GraphFail.named (e : GraphFail) (f : Option Nat) : GraphFail := if e.field = 0x10 || e.field = 0x16 then { e with val := f } else e

/-- The switch count that a failure of set `m` names: that of the request that selects it, else the first. -/
def countFor (reqs : List (Nat × Nat)) (m : Nat) : Option Nat :=
  ((reqs.find? (fun r => r.1 == m)).orElse (fun _ => reqs.head?)).map (·.2)

/-- The checks of R323 for each rate set that a launch can use, in index order; then those of the mode requests. -/
def graphFail (g : Graph) (c : GraphCtx) : Option GraphFail :=
  let sets := (List.range (max g.modes (c.start + 1))).filter (fun m => m == c.start || c.reqs.any (fun r => r.1 == m))
  match sets.findSome? (fun m => (graphSetFail g c m).map (fun e => e.named (countFor c.reqs m))) with
  | some e => some e
  | none => (switchChain g c.rows c.start c.reqs).map (fun x => ⟨0x16, x.1, some x.2⟩)

end Sys2Proof.Machine
end

