-- ==== Sys2Proof/Machine/CopyOps.lean ====
section
/-! DEFINITION. Machine/CopyOps.lean: the tile-copy unit: how a copy moves its bytes, stops at a fault or is held (R228 to
R231), and what its completion does (R222 to R224, R232, R262). -/

namespace Sys2Proof.Machine

/-! ## Endpoints -/

/-- One end of a row of a copy: a generic address, or the bytes of a slot or of a member's scratchpad. -/
inductive End where
  | gen (a : Nat)
  | phys (a : Nat)
deriving DecidableEq, Repr, Inhabited

/-- A copy's unit: its tile, its task, path TCOPY (R229). -/
def copyWho (t : Nat) (c : Copy) : Who := ⟨t, c.slot, .tile t 4, kTCOPY, c.ticket * 4 + c.core, false, none⟩

/-- The unit of a memory actor of a launch: the tile-copy unit of the tile that holds its window; no task slot (R14). -/
def memWho (u q : Nat) : Who := ⟨u, 8, .tile u 4, kTCOPY, 0, true, some q⟩

/-- The bytes of one end of a row. -/
def findEnd (s : State) (w : Who) (e : End) (n : Nat) (acc : Acc) : XOut :=
  match e with
  | .gen a => s.find w a n acc
  | .phys a => ⟨.ok [⟨a, n⟩], none, []⟩

/-- The longest reachable prefix of an end, of at most `n` bytes, and the trap of the byte after it (R230). -/
def reachable (s : State) (w : Who) (e : End) (acc : Acc) : Nat → Nat × Option Trap
  | 0 => (0, none)
  | n + 1 =>
    match (findEnd s w e (n + 1) acc).res with
    | .ok _ => (n + 1, none)
    | .error tr =>
      let r := reachable s w e acc n
      (r.1, match r.2 with | some t => some t | none => some tr)

/-- Signed displacement of an address, modulo 2^64. -/
def addOff (a : Nat) (d : Int) : Nat := ((a + d) % 2 ^ 64).toNat

/-- The rows of a copy as pairs of ends; a push and a pop go by the slots of their window. -/
def copyRows (s : State) (t : Nat) (c : Copy) : List (End × End) :=
  (List.range c.rows).map (fun (r : Nat) =>
    let g (a : DWord) (p : Int) : End := .gen (addOff a.toNat (p * r))
    match c.kind with
    | .copy | .cast _ => (g c.src c.srcPitch, g c.dst c.dstPitch)
    | .push w _ tile =>
      (g c.src c.srcPitch, match s.win tile w with
        | some x => .phys (spadBase tile + x.slotOff (c.dst.toNat + r))
        | none => .gen 0x7000000000000000)
    | .pop w =>
      (match s.win t w with
        | some x => .phys (spadBase t + x.slotOff (c.src.toNat + r))
        | none => .gen 0x7000000000000000, g c.dst c.dstPitch))

/-- A row ready to move: its source parts, its destination parts, the destination's generic address if it has one. -/
structure RowMove where
  src : List Part
  dst : List Part
  gaddr : Option Nat
  n : Nat
deriving DecidableEq, Repr, Inhabited

def partsOf (x : XOut) : List Part := match x.res with | .ok ps => ps | .error _ => []

/-- Walks the rows of a copy until one meets a trap: the rows to move, the page entries used, and the trap (R230). -/
def planRows (s : State) (w : Who) (n : Nat) : List (End × End) → List RowMove × List XOut × Option Trap
  | [] => ([], [], none)
  | (a, b) :: rest =>
    let ra := reachable s w a .read n
    let rb := reachable s w b .write n
    let k := min ra.1 rb.1
    let xa := findEnd s w a k .read
    let xb := findEnd s w b k .write
    let row : RowMove := ⟨partsOf xa, partsOf xb, match b with | .gen g => some g | .phys _ => none, k⟩
    let trap := if ra.1 ≤ rb.1 then (match ra.2 with | some t => some t | none => rb.2)
      else (match rb.2 with | some t => some t | none => ra.2)
    match trap with
    | some t => ([row], [xa, xb], some t)
    | none => let r := planRows s w n rest; (row :: r.1, xa :: xb :: r.2.1, r.2.2)

/-- The bytes of a row as the copy reads them, each with whether it is poisoned (R229). -/
def rowData (s : State) (o : Obs) (r : RowMove) : List (Byte × Bool) :=
  (r.src.map (fun p => s.dataAt o p.addr p.len)).flatten

/-- Whether a byte's address lies in one of some ranges. -/
def maskedAt (mask : List (Nat × Nat)) (a : Nat) : Bool := mask.any (fun m => decide (m.1 ≤ a) && decide (a < m.1 + m.2))

/-- Writes one part in runs of equal poison, but for the bytes of a mask. -/
def writeRuns (s : State) (w : Who) (reach : List Reach) (mask : List (Nat × Nat)) : Nat → Nat → List (Byte × Bool) → State
  | 0, _, _ => s
  | _, _, [] => s
  | fuel + 1, a, (b, p) :: rest =>
    let off := maskedAt mask a
    let run := (b, p) :: (rest.zipIdx.takeWhile (fun x => x.1.2 == p && maskedAt mask (a + 1 + x.2) == off)).map (·.1)
    let s1 := if off then s
      else s.addWrite ⟨a, run.map (·.1), w.obs, w.cls, some (w.tile, w.slot), w.op, w.done, reach, [], 0, w.launch, []⟩ p
    writeRuns s1 w reach mask fuel (a + run.length) ((b, p) :: rest |>.drop run.length)

/-- Writes the parts of a row, but for the bytes of a mask. -/
def writeRow (s : State) (w : Who) (reach : List Reach) (mask : List (Nat × Nat)) : List Part → List (Byte × Bool) → State
  | [], _ => s
  | p :: ps, ds => writeRow (writeRuns s w reach mask p.len p.addr (ds.take p.len)) w reach mask ps (ds.drop p.len)

/-- How running a copy ended. -/
structure CopyEnd where
  s : State
  /-- held by `NOTPRESENT` (R60, R63): nothing written yet -/
  held : Option Trap
  /-- stopped by another trap (R230) -/
  fault : Option Trap
  poison : Bool
  moved : Nat
  /-- where it wrote: addresses and lengths -/
  dst : List (Nat × Nat)

/-- Moves the bytes of a copy as if every source byte were read before any destination byte is written; the bytes of the mask stay
as they are (R229). -/
def moveRows (s : State) (w : Who) (reach : List Reach) (mask : List (Nat × Nat)) (n : Nat) (rows : List (End × End)) : CopyEnd :=
  let p := planRows s w n rows
  let s1 := p.2.1.foldl (fun s x => s.cache x) s
  if p.2.2.any (fun tr => tr.cause == cNOTPRESENT) then ⟨s1, p.2.2, none, false, 0, []⟩
  else
    let ds := p.1.map (fun r => (r, rowData s w.obs r))
    ⟨ds.foldl (fun s d => (writeRow s w reach mask d.1.dst d.2).foldShared w (d.1.gaddr.getD 0) (d.2.map (·.1))) s1, none, p.2.2,
      ds.any (fun d => d.2.any (·.2)), (ds.map (fun d => d.2.length)).foldl (· + ·) 0, ds.flatMap (fun d => d.1.dst.map (fun q => (q.addr, q.len)))⟩

/-! ## Slots and order (R229, R231) -/

/-- Copy slots in use: a held copy of a task that does not hold the tile has given up its slot (R63), and a memory actor's held
copy keeps one (R231). -/
def Tile.slotsUsed (v : Tile) : Nat := (v.copies.filter (fun c => c.held.isNone || v.resident == some c.slot)).length + v.memHeld.length
/-- A slot is free (R231). -/
def Tile.slotFree (v : Tile) : Bool := v.slotsUsed < 96

/-- Whether copy `b`, issued after copy `a` on the same tile, must complete after it: both push into one window, or both pop from
one, so that an index never passes a slot before its data (R227, R328). Other copies complete in any order (R232). -/
def mustFollow (a b : Copy) : Bool :=
  match a.kind, b.kind with
  | .push w _ u, .push w' _ u' => w == w' && u == u'
  | .pop w, .pop w' => w == w'
  | _, _ => false

/-- A copy that completes before earlier ones of its core keeps its bytes: they leave what it wrote alone (R229). -/
def maskEarlier (v : Tile) (i : Nat) (c : Copy) (dst : List (Nat × Nat)) : Tile :=
  { v with copies := v.copies.zipIdx.map (fun x =>
      if x.2 < i ∧ x.1.slot = c.slot ∧ x.1.core = c.core then { x.1 with mask := dst ++ x.1.mask } else x.1) }

/-! ## Completion -/

/-- Records the status of a ticket: the 256 most recent are kept (R232). -/
def recordStatus (s : State) (t : Nat) (c : Copy) (st : Nat) : State :=
  s.modExt t c.slot (fun e =>
    { e with
      tcStat := if (e.tcNext + 2 ^ 31 - 1 - c.ticket) % 2 ^ 31 < 256 then mapSet 0 e.tcStat (c.ticket % 256) st else e.tcStat
      tcAll := mapSet 0 e.tcAll c.core (mapGet 0 e.tcAll c.core ||| st) })

/-- The class-0 record of a copy (R247). -/
def copyRecord (c : Copy) (st moved : Nat) : EvRec :=
  ⟨0, c.slot, c.core, BitVec.ofNat 32 c.ticket, BitVec.ofNat 64 (st + 2 ^ 32 * min moved (2 ^ 32 - 1))⟩

/-- Carries the tokens of a proxy to the consumer's package, exactly once and in push order, and frees its slots (R311).
The traffic class is 0 (log entry 8). -/
def drainProxy (s : State) (t w : Nat) : State :=
  match s.win t w with
  | none => s
  | some x =>
    if !x.proxy then s
    else
      let home := ((x.launch.bind s.launch).map (·.home)).getD 0
      let s1 := (List.range x.occ).foldl (fun s i =>
        let a := spadBase t + x.slotOff (x.rd + i)
        let bs := (List.range x.tok).map (fun j => (s.homeByte (a + j), s.poisonAt (a + j)))
        s.sendData x.cPkg 0 0x0B [(2, 1, x.arc), (4, 8, home), (12, 4, x.cCount + i)] bs x.launch) s
      s1.modWin t w (fun y => { y with rd := (y.rd + x.occ) % y.cap, occ := 0, cCount := (y.cCount + x.occ) % 2 ^ 32 })

/-- A push's slots are written: the write index advances, its record follows, a proxy passes its tokens on (R222, R224). -/
def finishPush (s : State) (t : Nat) (c : Copy) (w n tile : Nat) : State :=
  let a := advance s t tile w n (if c.ev then some (t, c.slot, c.core) else none)
  let s1 := if a.2 && c.ev then
      (match a.1.win tile w with
        | some x => a.1.event t (winRecord c.slot c.core w n false x.wr x.lap)
        | none => a.1)
    else a.1
  drainProxy s1 tile w

/-- Whether a copy is that of an `rw.pop` of a core of a task. -/
def Copy.pops (c : Copy) (slot core : Nat) : Bool := (match c.kind with | .pop _ => true | _ => false) && c.slot == slot && c.core == core

/-- Whether the copy of an `rw.pop` of a task's control core has begun and is not complete (R223). -/
def Tile.popping (v : Tile) (slot : Nat) : Bool := v.copies.any (fun c => c.pops slot 0)

/-- The trap CSRs of a task: on the tile, or in its saved context. -/
def taskCsr (s : State) (t slot : Nat) : CtlCsr :=
  if s.slot t = slot ∧ (s.tile t).resident.isSome then (s.tile t).csr
  else match (s.task t slot).bind (·.saved) with
    | some c => c.csr
    | none => CtlCsr.reset

/-- Takes the control core of a task back to its `xc.begin`, on the tile or in its saved context, and counts the rollback in the section log of the
die (R276). -/
def rollBack (s : State) (t slot : Nat) (x : Sect) (code : Nat) : State :=
  let f (k : Core) : Core := if k.stat = .faulted then k else rollbackCore { k with held := none } x.savedX x.savedPc x.beginRd code
  let s1 := s.modDie (t / 512) (fun d => { d with rollbacks := mapSet 0 d.rollbacks code (mapGet 0 d.rollbacks code + 1) })
  if s.slot t = slot ∧ (s.tile t).resident.isSome then s1.modTile t (fun v => { v with ctl := f v.ctl })
  else s1.modTask t slot (fun k => { k with saved := k.saved.map (fun c => { c with cores := c.cores.modify 0 f }) })

/-- The rollback that has waited for the control core's next instruction boundary is made (R276). -/
def takeRollback (s : State) (t slot : Nat) : State :=
  match (s.ext t slot).rollback, (s.ext t slot).sect with
  | some code, some x => rollBack (s.modExt t slot (fun e => { e with sect := none, rollback := none })) t slot x code
  | _, _ => s

/-- A pop's tokens are copied out: the read index advances, its record follows, and the form retires (R223, R224); a rollback that
waited for it is made (R276). -/
def finishPop (s : State) (t : Nat) (c : Copy) (w n : Nat) : State :=
  let s1 := consume s t w n
  let s2 := if c.ev then
      (match s1.win t w with
        | some x => s1.event t (winRecord c.slot c.core w n true x.rd x.lap)
        | none => s1)
    else s1
  let s3 := (s2.modTile t (fun v => v.modCore c.core Core.advance)).markSeen (t, c.slot) kTCOPY (fun o => o == c.ticket * 4 + c.core)
  if c.core = 0 && !(taskCsr s t c.slot).busy then takeRollback s3 t c.slot else s3

/-- The tokens that a port has taken while a pop was reading are consumed behind it (R328). -/
def consumeAfter (s : State) (t w : Nat) (c : Copy) : State := if c.after = 0 then s else consume s t w c.after

/-- Tiles that a cast writes: those of the group's members, but for the caster's own (R262). -/
def castTiles (s : State) (t gid : Nat) (launch : Nat) : List Nat :=
  match s.pkg.groups.find? (fun g => match g.2 with | some x => x.launch == launch && x.gid == gid | none => false) with
  | some (_, some g) =>
    let pl := ((s.launch launch).map (·.place)).getD []
    ((g.members.map (fun m => (pl.find? (fun p => p.1 == m)).map (·.2))).reduceOption.filter (fun x => x != t)).eraseDups
  | _ => []

/-- Runs one copy of a tile (R229, R230); a cast writes each member's scratchpad by that tile's own unit (R262). -/
def runCopy (s : State) (t : Nat) (c : Copy) : CopyEnd :=
  let w := copyWho t c
  match c.kind with
  | .copy | .pop _ => moveRows s w [] c.mask c.rowBytes (copyRows s t c)
  | .push _ _ _ => moveRows s w [.all] c.mask c.rowBytes (copyRows s t c)
  | .cast gid =>
    (castTiles s t gid (s.taskLaunch t c.slot)).foldl
      (fun e u =>
        if e.held.isSome || e.fault.isSome then e
        else
          let r := moveRows e.s { w with obs := .tile u 4 } [] c.mask c.rowBytes [(.gen c.src.toNat, .phys (spadBase u + c.dst.toNat))]
          ⟨r.s, r.held, r.fault, e.poison || r.poison, e.moved + r.moved, e.dst ++ r.dst⟩)
      ⟨s, none, none, false, 0, []⟩

/-- What follows a copy's completion, by what it was for. -/
def finishCopy (s : State) (t : Nat) (c : Copy) (fault poison : Bool) (moved : Nat) : State :=
  let st := bit01 poison + 2 * bit01 fault
  match c.kind with
  | .copy =>
    let s1 := recordStatus s t c st
    if c.ev then s1.event t (copyRecord c st moved) else s1
  | .push w n tile => if fault then s else finishPush s t c w n tile
  | .pop w => consumeAfter (if fault then s.modTile t (fun v => v.modCore c.core (fun k => { k with stat := .faulted })) else finishPop s t c w c.rows) t w c
  | .cast _ => s

/-- The i-th copy in flight of a tile moves its bytes and completes, stops at a fault, or is held by `NOTPRESENT`; a copy that must follow an
earlier one waits for it. A held copy is tried again once a `READY` has covered it and its task holds the tile, with a slot (R63, R64). -/
def copyComplete (s : State) (t i : Nat) : State :=
  let v := s.tile t
  match v.copies[i]? with
  | none => s
  | some c =>
    if c.held.any (fun h => !h.ready || v.resident != some c.slot || decide (96 < v.slotsUsed)) ||
        (v.copies.take i).any (fun a => mustFollow a c) then s
    else
      let r := runCopy s t c
      match r.held with
      | some tr =>
        let h : Held := { tr.hold with swapped := c.held.any (·.swapped) }
        deliverFault (r.s.modTile t (fun v => { v with copies := v.copies.modify i (fun c => { c with held := some h }) }))
          t (s.taskLaunch t c.slot) (mkRec s t c.slot 3 (w1Unit kTCOPY) tr true)
      | none =>
        let s1 := r.s.modTile t (fun v => let u := maskEarlier v i c r.dst; { u with copies := u.copies.eraseIdx i })
        let s2 := match r.fault with
          | some tr => deliverFault s1 t (s.taskLaunch t c.slot) (mkRec s t c.slot 3 (w1Unit kTCOPY) tr true)
          | none => s1
        finishCopy s2 t c r.fault.isSome r.poison r.moved

/-- TILE_COPY_COMPLETE (R229 to R231). -/
def execTileCopyComplete (t i : Nat) (s : State) : Host.Outcome State Fault Refusal := .next (copyComplete s t i)

/-- Whether a copy of a tile reads bytes of another tile's scratchpad. -/
def readsTile (s : State) (u t : Nat) (c : Copy) : Bool :=
  (planRows s (copyWho u c) c.rowBytes (copyRows s u c)).1.any (fun m =>
    m.src.any (fun p => decide (spadBase t ≤ p.addr) && decide (p.addr < spadBase t + 2 ^ 21)))

/-- The first copy of another tile that must complete so that every read in flight of a tile's scratchpad does: one that reads it, or an earlier
one that such a copy must follow. -/
def nextRead (s : State) (t : Nat) : Option (Nat × Nat) :=
  s.tiles.findSome? (fun v =>
    if v.1 = t then none
    else
      let cs := v.2.copies
      (List.range cs.length).findSome? (fun i =>
        let at' (j : Nat) (f : Copy → Bool) : Bool := (cs[j]?).any f
        if at' i (fun c => c.held.isNone && !(cs.take i).any (fun a => mustFollow a c) && (readsTile s v.1 t c ||
            (List.range cs.length).any (fun j => decide (i < j) && at' j (fun d => d.held.isNone && mustFollow c d && readsTile s v.1 t d))))
        then some (v.1, i) else none))

/-- The reads in flight of a tile's scratchpad complete (R435). -/
def finishReads (t : Nat) : Nat → State → State
  | 0, s => s
  | fuel + 1, s => match nextRead s t with
    | some x => finishReads t fuel (copyComplete s x.1 x.2)
    | none => s

/-- A copy enters a slot of the unit (R231). -/
def startCopy (s : State) (t : Nat) (c : Copy) : State := s.modTile t (fun v => { v with copies := v.copies ++ [c] })

end Sys2Proof.Machine
end

