-- ==== Sys2Proof/Machine/Windows.lean ====
section
/-! DEFINITION. Machine/Windows.lean: ring windows (R220 to R226), tile copies (R228, R232), and the messages and expiries of
windows (R225, R328). -/

namespace Sys2Proof.Machine

/-! ## Checks that the window forms share -/

/-- What the first three checks of a window form give: the trap, or the open window (R220, R313). `unused`: whether a field
that the form does not use is set; `here`: the form is restricted to this tile. -/
def winCheck (s : State) (r : WinRef) (x : Nat) (unused here : Bool) : Except Trap Window :=
  if r.reserved || unused then .error (tIllegal s)
  else if r.badTile || (here && r.rmt) then .error (trapAperture x kSCALAR .read)
  else match s.win r.tile r.w with
  | none => .error (tResource s)
  | some w => .ok w

/-- The window reference of a register. -/
def State.wref (s : State) (r : Reg) : WinRef := winRef (s.taskLaunch s.ft s.fslot) s.ft (s.rn r)

/-! ## Opening (R221) -/

/-- RW_OPEN (R221). -/
def execRwOpen (d a b : Reg) (s : State) : Host.Outcome State Fault Refusal :=
  let r := s.wref a
  perform <|
    if r.reserved || r.n != 0 || r.ev || r.rel || r.space then .illegal s
    else if r.badTile || r.rmt then .trap (trapAperture (s.rn a) kSCALAR .read) s
    else if (spadOperand (s.rn b)).isSome && s.rn b % 8 == 0 && (s.win s.ft r.w).isSome then .ret s d 1
    else match readSpad s (s.rn b) 32 8 with
    | .error tr => .trap tr s
    | .ok bs =>
      match windowFail s s.ft bs with
      | some bit => .trap (tCfgDesc bit (s.rn b)) s
      | none => .ret (openWindow s s.ft r.w (parseWindow bs s.fslot none)) d 0

/-! ## Pushing and popping (R222, R223) -/

/-- The copy of a push of `n` tokens (R222). -/
def pushCopy (s : State) (r : WinRef) (x : Window) (src : DWord) : Copy :=
  ⟨.push r.w r.n r.tile, s.fslot, s.fc, 2 ^ 40 + 2 * winNo r.tile r.w, r.ev, src, BitVec.ofNat 64 (s.prod s.ft r.tile r.w).wr,
    x.tok, r.n, x.tok, x.tok, 0, false, none, [], 0⟩

/-- RW_PUSH (R222, R313, R329): the producer's instance appends N tokens through the tile-copy unit. -/
def execRwPush (a b : Reg) (s : State) : Host.Outcome State Fault Refusal :=
  let r := s.wref a
  perform <| match winCheck s r (s.rn a) (r.rel || r.space) false with
  | .error tr => .trap tr s
  | .ok x =>
    if !x.producedAt s s.ft then .trap (tPermission (s.rn a) kSCALAR true) s
    else
      let p := s.prod s.ft r.tile r.w
      match monitorCheck s s.ft s.fslot r.w (s.rn a) x true p.pCount r.n with
      | some tr => .trap tr s
      | none =>
        if freeCount x p < r.n then .resource s
        else if r.n = 0 then .done s
        else if !(s.tile s.ft).slotFree then .wait s
        else
          let s1 := startCopy (release s s.ft s.fslot (winKey r.tile r.w) p.total) s.ft (pushCopy s r x (s.rx b))
          .done (takeSlots s1 s.ft r.tile r.w r.n)

/-- Whether a pop's copy from a window is in flight, and whether it is the focused core's own. -/
def popInFlight (s : State) (w : Nat) : Bool := (s.tile s.ft).copies.any (fun c => c.kind == .pop w)

/-- RW_POP (R223, R313, R329): consumes N tokens of a window on this tile, copying them out unless REL is set. With REL = 0
the form holds a copy slot and retires when its copy has completed. -/
def execRwPop (a b : Reg) (s : State) : Host.Outcome State Fault Refusal :=
  let r := s.wref a
  perform <| match winCheck s r (s.rn a) (r.space || (r.rel && s.rn b != 0)) true with
  | .error tr => .trap tr s
  | .ok x =>
    if popInFlight s r.w then .wait s
    else if x.proxy then .trap (tPermission (s.rn a)) s
    else match monitorCheck s s.ft s.fslot r.w (s.rn a) x false x.cCount r.n with
    | some tr => .trap tr s
    | none =>
      if x.occ < r.n then .resource s
      else if r.n = 0 then .done s
      else
        let s1 := acquire s s.ft s.fslot (winKey s.ft r.w) (below := x.consumed + r.n)
        if r.rel then
          let s2 := consume s1 s.ft r.w r.n
          match r.ev, s2.win s.ft r.w with
          | true, some y => .done (s2.event s.ft (winRecord s.fslot s.fc r.w r.n true y.rd y.lap))
          | _, _ => .done s2
        else if !(s.tile s.ft).slotFree then .wait s
        else .wait (startCopy s1 s.ft
          ⟨.pop r.w, s.fslot, s.fc, 2 ^ 40 + 2 * winNo s.ft r.w + 1, r.ev, BitVec.ofNat 64 x.rd, s.rx b, x.tok, r.n, x.tok, x.tok, 0, false,
            none, [], 0⟩)

/-! ## Waiting and reading (R225, R226) -/

/-- The count that `rw.wait` tests: occupancy, or free slots as this tile knows them (R225). -/
def waitCount (s : State) (r : WinRef) (x : Window) : Nat :=
  if r.space then (if x.producedAt s s.ft then freeCount x (s.prod s.ft r.tile r.w) else x.cap - x.occ) else x.occ

/-- RW_WAIT (R225): completes at the count, or at once as a test with limit 0; otherwise waits. -/
def execRwWait (d a b : Reg) (s : State) : Host.Outcome State Fault Refusal :=
  let r := s.wref a
  perform <|
    if 2 ^ 32 ≤ s.rn b then .illegal s
    else match winCheck s r (s.rn a) (r.ev || r.rel) (!r.space) with
    | .error tr => .trap tr s
    | .ok x =>
      let n := waitCount s r x
      if r.n ≤ n ∨ s.rn b = 0 then .retN (if r.space ∨ n < r.n then s else acquire s s.ft s.fslot (winKey r.tile r.w) (below := x.consumed + n)) d n
      else .wait s

/-- Pointers as `rw.stat` and `rw.lap` read them: write index, read index, occupancy, lap (R226, R327). -/
def winView (s : State) (r : WinRef) (x : Window) : Nat × Nat × Nat × Nat :=
  if x.producedAt s s.ft && (r.rmt || x.proxy) then
    let p := s.prod s.ft r.tile r.w
    (p.wr, p.rdMirror, p.occ, p.lapMirror)
  else (x.wr, x.rd, x.occ, x.lap)

/-- RW_STAT (R226). -/
def execRwStat (d a : Reg) (s : State) : Host.Outcome State Fault Refusal :=
  let r := s.wref a
  perform <| match winCheck s r (s.rn a) (r.n != 0 || r.ev || r.rel || r.space) false with
  | .error tr => .trap tr s
  | .ok x => let v := winView s r x; .retN s d (v.2.1 + 2 ^ 16 * v.1 + 2 ^ 32 * v.2.2.1 + 2 ^ 48 * v.2.2.2)

/-- RW_LAP (R226). -/
def execRwLap (d a : Reg) (s : State) : Host.Outcome State Fault Refusal :=
  let r := s.wref a
  perform <| match winCheck s r (s.rn a) (r.n != 0 || r.ev || r.rel || r.space) false with
  | .error tr => .trap tr s
  | .ok x => .retN s d ((winView s r x).2.2.2 + 2 ^ 16 * bit01 x.pace + 2 ^ 32 * x.base)

/-! ## Messages (R328) -/

/-- Takes the oldest message of a window that goes one way. -/
def takeMsg (s : State) (t w : Nat) (adv : Bool) : Option WinMsg × State :=
  let q := mapGet [] s.msgs (winNo t w)
  (q.find? (fun m => m.advance == adv), { s with msgs := mapSet [] s.msgs (winNo t w) (q.eraseP (fun m => m.advance == adv)) })

/-- ADVANCE_MESSAGE (R328): the oldest advance message of a window moves its write index; the class-5 record of its push
follows (R224). -/
def execAdvanceMessage (t w : Nat) (s : State) : Host.Outcome State Fault Refusal :=
  let m := takeMsg s t w true
  .next <| match m.1, s.win t w with
  | some g, some x =>
    let idx := (x.wr + g.n) % x.cap
    let s1 := applyAdvance m.2 t w g.n idx
    match g.ev with
    | some (p, slot, core) => s1.event p (winRecord slot core w g.n false idx x.lap)
    | none => s1
  | _, _ => m.2

/-- Tokens of a proxy's arc in frames that its peer has not acknowledged, and so not consumed (R311). -/
def State.arcInFlight (s : State) (x : Window) : Nat :=
  let home := ((x.launch.bind s.launch).map (·.home)).getD 0
  ((s.tx (flowKey x.cPkg 0)).unacked.filter (fun y => y.frame.opcode == 0x0B && hdrField y.frame 2 1 % 64 == x.arc &&
    hdrField y.frame 4 8 == home && bitOf (hdrField y.frame 1 1) 3)).length

/-- RELEASE_MESSAGE (R328): the oldest release message of a window reaches its producer's copy. For a proxy the release is
the remote consumer's (R311): how many tokens it covers is free, within what the consumer can have taken. -/
def execReleaseMessage (t w : Nat) (s : State) : Host.Outcome State Fault Refusal :=
  let m := takeMsg s t w false
  .next <| match s.win t w with
  | none => m.2
  | some x =>
    if x.proxy then
      let p := s.prod t t w
      let dr := s.draw
      let n := dr.1 % (p.occ - x.occ - s.arcInFlight x + 1)
      applyRelease dr.2 t t w n ((p.rdMirror + n) % x.cap) ((p.lapMirror + (p.rdMirror + n) / x.cap) % 2 ^ 16)
    else match m.1 with
    | some g => applyRelease m.2 x.pTile t w g.n g.index g.lap
    | none => m.2

/-! ## Expiry of a bounded wait (R225, R65) -/

/-- The instruction at which a core of a tile is blocked, if it is. -/
def blockedAt (s : State) (t c : Nat) : Option Instr :=
  let k := (s.tile t).core c
  if k.blocked && k.stat == .run then some (decodeFetched k.iword k.ilen) else none

/-- Runs an operation on a core of a tile as the focused one. -/
def onCore (s : State) (t c : Nat) (f : State → State) : State := { f { s with focus := (t, c) } with focus := s.focus }

/-- Whether the limit of a blocked form, in cycles, is used up; a limit of 0 never is (R65). -/
def limitOver (s : State) (limit : Nat) : Bool := limit != 0 && decide (limit ≤ s.cur.waited)

/-- RW_WAIT_EXPIRY (R225): rd takes the count, and `WAITEXP` is raised with the window, SPACE, N and both indices; the record's window
field holds W and SPACE as the window reference does (R428; log entry 24). -/
def execRwWaitExpiry (t c : Nat) (s : State) : Host.Outcome State Fault Refusal :=
  .next <| match blockedAt s t c with
  | some (.rwWait d a b) => onCore s t c (fun s =>
      let r := s.wref a
      match s.win r.tile r.w with
      | none => s
      | some x =>
        let n := waitCount s r x
        if limitOver s (s.rn b) ∧ n < r.n then
          let v := winView s r x
          raiseCore (s.wx d (BitVec.ofNat 64 n)) ⟨cWAITEXP, 1 + 2 ^ 8 * (r.w % 64) + 2 ^ 14 * bit01 r.space + 2 ^ 16 * r.n + 2 ^ 32 * v.2.1 + 2 ^ 48 * v.1, 0, false⟩
        else s)
  | _ => s

/-! ## Tile copies (R228, R232) -/

/-- Issues a copy: a ticket, and a slot unless it moves nothing (R228, R229, R232). -/
def issueCopy (s : State) (c : Copy) : State × Nat :=
  let n := (s.ext s.ft s.fslot).tcNext
  let c1 := { c with ticket := n }
  let s1 := s.modExt s.ft s.fslot (fun e => { e with tcNext := (n + 1) % 2 ^ 31, tcStat := mapSet 0 e.tcStat (n % 256) 0 })
  if c.rowBytes = 0 ∨ c.rows = 0 then
    (let s2 := recordStatus s1 s.ft c1 0; if c.ev then s2.event s.ft (copyRecord c1 0 0) else s2, n)
  else (startCopy s1 s.ft c1, n)

/-- TC_COPY (R228). -/
def execTcCopy (d a b : Reg) (s : State) : Host.Outcome State Fault Refusal :=
  let x := s.rn d
  perform <|
    if bitsOf x 62 24 ≠ 0 then .illegal s
    else if bitsOf x 23 0 ≠ 0 ∧ !(s.tile s.ft).slotFree then .wait s
    else
      let r := issueCopy s ⟨.copy, s.fslot, s.fc, 0, bitOf x 63, s.rx b, s.rx a, bitsOf x 23 0, 1, 0, 0, 0, false, none, [], 0⟩
      .retN r.1 d r.2

/-- The copy of a `tc.copy2` descriptor. -/
def parseCopy2 (s : State) (bs : List Byte) (dst : DWord) (ev : Bool) : Copy :=
  ⟨.copy, s.fslot, s.fc, 0, ev, BitVec.ofNat 64 (fieldAt bs 0 8), dst, fieldAt bs 8 4, fieldAt bs 0x0C 4,
    sext 64 (fieldAt bs 0x10 8), sext 64 (fieldAt bs 0x18 8), 0, false, none, [], 0⟩

/-- TC_COPY2 (R228). -/
def execTcCopy2 (d a b : Reg) (s : State) : Host.Outcome State Fault Refusal :=
  let x := s.rn d
  perform <|
    if bitsOf x 62 0 ≠ 0 then .illegal s
    else match readSpad s (s.rn b) 32 8 with
    | .error tr => .trap tr s
    | .ok bs =>
      let c := parseCopy2 s bs (s.rx a) (bitOf x 63)
      match firstFail [(64, 1 ≤ c.rowBytes && c.rowBytes ≤ 16777215), (96, 1 ≤ c.rows && c.rows ≤ 65535)] with
      | some bit => .trap (tCfgDesc bit (s.rn b)) s
      | none =>
        if !(s.tile s.ft).slotFree then .wait s
        else let r := issueCopy s c; .retN r.1 d r.2

/-- Where a ticket stands (R232). -/
inductive Ticket where
  | unissued | inFlight | known (st : Nat) | dropped
deriving DecidableEq, Repr, Inhabited

def ticketOf (s : State) (n : Nat) : Ticket :=
  let e := s.ext s.ft s.fslot
  if (n + 2 ^ 31 - e.tcNext) % 2 ^ 31 < 2 ^ 30 then .unissued
  else if (s.tile s.ft).copies.any (fun c => c.kind == .copy && c.slot == s.fslot && c.ticket == n) then .inFlight
  else if (e.tcNext + 2 ^ 31 - 1 - n) % 2 ^ 31 < 256 then .known (mapGet 0 e.tcStat (n % 256)) else .dropped

/-- The task has seen the completion of a copy (R270). -/
def seeCopy (s : State) (n : Nat) : State := s.markSeen (s.ft, s.fslot) kTCOPY (fun o => o / 4 == n)

/-- TC_WAIT (R232). -/
def execTcWait (d a : Reg) (s : State) : Host.Outcome State Fault Refusal :=
  let x := s.rn a
  perform <|
    if bitOf x 63 then
      if (s.tile s.ft).copies.any (fun c => c.kind == .copy && c.slot == s.fslot && c.core == s.fc) then .wait s
      else
        let st := mapGet 0 (s.ext s.ft s.fslot).tcAll s.fc
        .retN ((s.modExt s.ft s.fslot (fun e => { e with tcAll := mapSet 0 e.tcAll s.fc 0 })).markSeen (s.ft, s.fslot) kTCOPY
          (fun o => o % 4 == s.fc && decide (o < 2 ^ 42))) d st
    else if bitsOf x 62 31 ≠ 0 then .illegal s
    else match ticketOf s (bitsOf x 30 0) with
    | .unissued => .retN s d 8
    | .inFlight => .wait s
    | .known st => .retN (seeCopy s (bitsOf x 30 0)) d st
    | .dropped => .retN (seeCopy s (bitsOf x 30 0)) d 4

/-- TC_STAT (R232). -/
def execTcStat (d a : Reg) (s : State) : Host.Outcome State Fault Refusal :=
  let x := s.rn a
  perform <|
    if bitsOf x 63 31 ≠ 0 then .illegal s
    else match ticketOf s x with
    | .unissued => .retN s d 8
    | .inFlight => .retN s d 16
    | .known st => .retN (seeCopy s x) d st
    | .dropped => .retN (seeCopy s x) d 4

end Sys2Proof.Machine
end

