-- ==== Sys2Proof/Machine/Futures.lean ====
section
/-! DEFINITION. Machine/Futures.lean: the future tables (R253 to R258): creation, resolution with its continuations, waiting,
dropping, and the expiry of a wait. -/

namespace Sys2Proof.Machine

/-! ## Tables -/

def State.fut (s : State) (k : Nat) : Fut := mapGet Fut.reset s.pkg.futures k

/-- An entry is written whole (R458), with an armed injection of it acting (R434). -/
def State.setFut (s : State) (k : Nat) (f : Fut) : State :=
  let s1 := s.modPkg (fun p => { p with futures := mapSet Fut.reset p.futures k f, futPoison := mapSet false p.futPoison k false })
  let r := Sys2Proof.Machine.strike s1 (k / 65536) 0x06 (k / 4096) (((s.launch f.launch).map (·.ctx)).getD noCtx) (k % 65536) 1
  if r.1.isSome then r.2.modPkg (fun p => { p with futPoison := mapSet false p.futPoison k true }) else r.2

/-- Whether an entry is uncorrectable. -/
def State.badFut (s : State) (k : Nat) : Bool := mapGet false s.pkg.futPoison k

/-- A task is about to change an entry: where it has passed its part of a checkpoint whose package record is not made, the record takes the
entry as it stands now (R258, R437). -/
def noteFuture (s : State) (who : Nat × Nat) (k : Nat) : State :=
  let q := s.taskLaunch who.1 who.2
  let e := s.lext q
  if (s.ext who.1 who.2).part ≤ e.complete ∨ e.pkgParts.any (fun p => p.number == e.complete + 1) ∨ e.futs.any (fun f => f.1 == k) then s
  else s.modLext q (fun e => { e with futs := e.futs ++ [(k, s.fut k)] })

/-- Continuation nodes in use of a cluster (R254). -/
def State.nodesUsed (s : State) (cl : Nat) : Nat := mapGet 0 s.pkg.nodes cl
def State.setNodes (s : State) (cl n : Nat) : State := s.modPkg (fun p => { p with nodes := mapSet 0 p.nodes cl n })

/-- Lowest number from `i` on, among `fuel` numbers, that passes a test. -/
def searchUp (p : Nat → Bool) : Nat → Nat → Option Nat
  | 0, _ => none
  | fuel + 1, i => if p i then some i else searchUp p fuel (i + 1)

/-- `CL` of a tile: die·16 + cluster (R253). -/
def clusterNo (t : Nat) : Nat := t / 32

/-- Takes the lowest EMPTY entry of a tile's cluster for a launch, PENDING with value 0 (R255). -/
def newFuture (s : State) (t launch : Nat) : Option (Handle × State) :=
  let cl := clusterNo t
  (searchUp (fun i => (s.fut (cl * 4096 + i)).stat == .empty) 4096 0).map (fun i =>
    let g := (s.fut (cl * 4096 + i)).gen
    (⟨g, cl, i⟩, s.setFut (cl * 4096 + i) ⟨0, .pending, g, [], launch⟩))

/-- Whether a handle names a live entry (R253). -/
def Handle.live (h : Handle) (s : State) : Bool :=
  decide (h.cl < 384) && (s.fut h.key).stat != .empty && (s.fut h.key).gen == h.gen

/-- The handle of a handle word, where its entry is live; `poisonBit`: bit 63 is used (R253). A live entry that is uncorrectable raises `POISON` of the
array (R431, R458). -/
def handleCheck (s : State) (x : Nat) (poisonBit : Bool) (acc : Acc) : Except Trap Handle :=
  let h := handleOf x
  if bitsOf x 62 32 ≠ 0 ∨ (!poisonBit ∧ bitOf x 63) then .error (tIllegal s)
  else if 384 ≤ h.cl then .error (trapAperture x kSCALAR acc)
  else if !h.live s then .error (tStale h.word (s.fut h.key).gen)
  else if s.badFut h.key then .error ⟨cPOISON, h.key % 65536, 0x06, false⟩
  else .ok h

/-! ## Resolution (R255, R256) -/

/-- Whether the task that registered a continuation is still bound. -/
def contAlive (s : State) (c : Cont) : Bool :=
  match s.task c.tile c.slot with
  | some k => k.lidx == c.lidx && k.launch == c.launch && k.stat != .ended
  | none => false

/-- The class-3 record of a continuation (R257). -/
def futRecord (c : Cont) (h : Handle) (v : DWord) : EvRec := ⟨3, c.slot, c.core, BitVec.ofNat 32 h.word, v⟩

/-- A KIND 0 continuation (R256): the record, or `POISON` as a fault of the registering task. -/
def runRecord (s : State) (c : Cont) (h : Handle) (v : DWord) (poisoned : Bool) : State :=
  if !contAlive s c then s
  else if poisoned then
    deliverFault s c.tile c.launch
      (mkRec s c.tile c.slot 3 (w1Unit 15) ⟨cPOISON, h.word, v.toNat, true⟩ true)
  else s.event c.tile (futRecord c h v)

/-- The release of a target future that a KIND 1 continuation makes for its task (R256): it acquires the watched future, then carries the
SCALAR writes issued before its `fu.then`, and those it acquires so. -/
def releaseTarget (s : State) (c : Cont) (watched target : Handle) : State :=
  if !contAlive s c then s
  else releaseIf (acquire s c.tile c.slot (futKey watched.word)) c.tile c.slot (futKey target.word) 0 (fun w =>
    (w.task == some (c.tile, c.slot) && w.cls == kSCALAR && decide (w.seq < c.mark)) ||
      acquires s c.tile c.slot (futKey watched.word) w)

/-- The acquire of a future by a task (R258); where a query set it, the result block becomes visible to the task's SCALAR path, with no binding
(R364). -/
def seeFuture (s : State) (t slot word : Nat) : State :=
  [0, 1, 2].foldl (fun s c => s.perform (fun w => w.cls == kINFUSER && w.op == 2 ^ 32 + word) (.one (.tile t c))) (acquire s t slot (futKey word))

/-- What a task that sees a future READY has thereby seen: its acquire, and the completion of the infuser command that the future stands for
(R270). -/
def seeReady (s : State) (h : Handle) : State :=
  (seeFuture s s.ft s.fslot h.word).markSeen (s.ft, s.fslot) kINFUSER (fun o => o == 2 ^ 32 + h.word)

/-- What a `fu.wait` on a live entry does (R255). -/
def waitAct (d : Reg) (h : Handle) (s : State) : Act :=
  match (s.fut h.key).stat with
  | .ready => .ret (seeReady s h) d (s.fut h.key).val
  | .poisoned => .trap ⟨cPOISON, h.word, (s.fut h.key).val.toNat, true⟩ s
  | _ => .wait s

/-- The destination of the `fu.wait` on an entry at which a core is blocked. -/
def Core.waitsFor (k : Core) (h : Handle) : Option Reg :=
  if k.blocked && k.stat == .run then
    match decodeFetched k.iword k.ilen with
    | .fuWait d a _ => if (handleOf (k.rx a).toNat).word = h.word then some d else none
    | _ => none
  else none

/-- A blocked core of a saved task completes its `fu.wait` with a value. -/
def Core.finishWait (h : Handle) (v : DWord) (k : Core) : Core :=
  match k.waitsFor h with
  | some d => (k.wx d v).advance
  | none => k

/-- Each blocked `fu.wait` on an entry that has been set completes (R255); that of a task which does not hold its tile, in its saved
context. -/
def completeWaits (s : State) (h : Handle) : State :=
  let f := s.fut h.key
  s.tiles.foldl (fun s e =>
    let t := e.1
    let s1 := (List.range 3).foldl (fun s c => match ((s.tile t).core c).waitsFor h with
      | some d => onCore s t c (fun s => (waitAct d h s).state)
      | none => s) s
    if f.stat != .ready then s1
    else (List.range 8).foldl (fun s sl => match (s.task t sl).bind (·.saved) with
      | some x => if x.cores.any (fun k => (k.waitsFor h).isSome)
          then (seeFuture s t sl h.word).modTask t sl (fun k => { k with saved := some { x with cores := x.cores.map (Core.finishWait h f.val) } })
          else s
      | none => s) s1) s

/-- Sets a PENDING entry, runs its continuations in order, and completes the waits on it (R255, R256). Each setting resolves one more
PENDING entry, so their number bounds the depth. -/
def setFuture (who : Nat × Nat) (v : DWord) (poisoned : Bool) : Nat → State → Handle → State
  | 0, s, _ => s
  | fuel + 1, s, h =>
    let f := s.fut h.key
    if !h.live s || f.stat != .pending then s
    else
      let s1 := ((noteFuture s who h.key).setFut h.key { f with val := v, stat := if poisoned then .poisoned else .ready, conts := [] }).setNodes h.cl
        (s.nodesUsed h.cl - f.conts.length)
      completeWaits (f.conts.foldl (fun s c =>
        if c.kind = 0 then runRecord s c h v poisoned
        else setFuture who v poisoned fuel (releaseTarget s c h (handleOf c.target)) (handleOf c.target)) s1) h

/-- Resolves an entry with all that follows from it, for a task. -/
def resolveFuture (s : State) (who : Nat × Nat) (h : Handle) (v : DWord) (poisoned : Bool) : State :=
  setFuture who v poisoned (s.pkg.futures.length + 1) s h

/-- Drops an entry: EMPTY at the next generation, its nodes back in the pool (R255). -/
def dropFuture (s : State) (h : Handle) : State :=
  let f := s.fut h.key
  (s.setFut h.key ⟨0, .empty, if f.gen = 2047 then 1 else f.gen + 1, [], 0⟩).setNodes h.cl (s.nodesUsed h.cl - f.conts.length)

/-- A core of a saved task stops with the fault of its `fu.wait`. -/
def faultSaved (s : State) (t slot c : Nat) (k : Core) (tr : Trap) : State :=
  deliverFault (s.modTask t slot (fun x => { x with saved := x.saved.map (fun y =>
      { y with cores := y.cores.modify c (fun k => { k with stat := .faulted, blocked := false, waited := 0 }) }) }))
    t (s.taskLaunch t slot) (mkRec s t slot c (w1Core k.pc) tr true)

/-- The drop of an entry leaves every `fu.wait` that is blocked on its handle stale: each raises `STALE` with the entry's new generation, that of a
task which does not hold its tile in its saved context (R255). -/
def dropWaits (s : State) (h : Handle) : State :=
  let tr := tStale h.word (s.fut h.key).gen
  s.tiles.foldl (fun s e =>
    let t := e.1
    let s1 := (List.range 3).foldl (fun s c =>
      if (((s.tile t).core c).waitsFor h).isSome then onCore s t c (fun s => raiseCore s tr) else s) s
    (List.range 8).foldl (fun s sl => match (s.task t sl).bind (·.saved) with
      | some x => x.cores.zipIdx.foldl (fun s y => if (y.1.waitsFor h).isSome then faultSaved s t sl y.2 y.1 tr else s) s
      | none => s) s1) s

/-! ## The forms (R255, R256) -/

/-- Makes an EMPTY entry PENDING with value 0 for the focused task (R255). -/
def takeFuture (s : State) (h : Handle) : State :=
  (noteFuture s (s.ft, s.fslot) h.key).setFut h.key ⟨0, .pending, h.gen, [], s.taskLaunch s.ft s.fslot⟩

/-- FU_NEW (R255). -/
def execFuNew (d : Reg) (s : State) : Host.Outcome State Fault Refusal :=
  perform <| match newFuture s s.ft (s.taskLaunch s.ft s.fslot) with
  | some (h, _) => .retN (takeFuture s h) d h.word
  | none => .ret s d 0

/-- FU_SET (R255): a release of the future (R258). -/
def execFuSet (a b : Reg) (s : State) : Host.Outcome State Fault Refusal :=
  perform <| match handleCheck s (s.rn a) true .write with
  | .error tr => .trap tr s
  | .ok h =>
    if (s.fut h.key).stat != .pending then .resource s
    else .done (resolveFuture (release s s.ft s.fslot (futKey h.word)) (s.ft, s.fslot) h (s.rx b) (bitOf (s.rn a) 63))

/-- State codes (R254). -/
def FuStat.code : FuStat → Nat
  | .empty => 0 | .pending => 1 | .ready => 2 | .poisoned => 3

/-- FU_GET (R255): returning 2 is an acquire (R258). -/
def execFuGet (d a : Reg) (s : State) : Host.Outcome State Fault Refusal :=
  perform <| match handleCheck s (s.rn a) false .read with
  | .error tr => .trap tr s
  | .ok h => .retN (if (s.fut h.key).stat = .ready then seeReady s h else s) d (s.fut h.key).stat.code

/-- FU_WAIT (R255). -/
def execFuWait (d a b : Reg) (s : State) : Host.Outcome State Fault Refusal :=
  perform <|
    if 2 ^ 32 ≤ s.rn b then .illegal s
    else match handleCheck s (s.rn a) false .read with
    | .error tr => .trap tr s
    | .ok h => waitAct d h s

/-- The continuation that the focused core registers by an action word (R256). -/
def contOf (s : State) (act : Nat) : Cont :=
  ⟨bitsOf act 63 62, bitsOf act 31 0, s.ft, s.fslot, s.taskLidx s.ft s.fslot, s.taskLaunch s.ft s.fslot, s.fc, s.stamp⟩

/-- FU_THEN (R256): on a resolved entry the action runs at once and takes no node. -/
def execFuThen (a b : Reg) (s : State) : Host.Outcome State Fault Refusal :=
  let c := contOf s (s.rn b)
  perform <|
    if 2 ≤ c.kind ∨ bitsOf (s.rn b) 61 32 ≠ 0 ∨ (c.kind = 0 ∧ c.target ≠ 0) then .illegal s
    else match handleCheck s (s.rn a) false .read with
    | .error tr => .trap tr s
    | .ok h =>
      let f := s.fut h.key
      if f.stat = .pending then
        if 8192 ≤ s.nodesUsed h.cl then .resource s
        else .done (((noteFuture s (s.ft, s.fslot) h.key).setFut h.key { f with conts := f.conts ++ [c] }).setNodes h.cl (s.nodesUsed h.cl + 1))
      else if c.kind = 0 then .done (runRecord s c h f.val (f.stat == .poisoned))
      else .done (resolveFuture (releaseTarget s c h (handleOf c.target)) (s.ft, s.fslot) (handleOf c.target) f.val (f.stat == .poisoned))

/-- FU_DROP (R255): what waits on the handle finds it stale. -/
def execFuDrop (a : Reg) (s : State) : Host.Outcome State Fault Refusal :=
  perform <| match handleCheck s (s.rn a) false .write with
  | .error tr => .trap tr s
  | .ok h => .done (dropWaits (dropFuture (noteFuture s (s.ft, s.fslot) h.key) h) h)

/-- FU_WAIT_EXPIRY (R255): a `fu.wait` whose limit has run out raises `WAITEXP` with its handle. -/
def execFuWaitExpiry (t c : Nat) (s : State) : Host.Outcome State Fault Refusal :=
  .next <| match blockedAt s t c with
  | some (.fuWait _ a b) => onCore s t c (fun s =>
      let h := handleOf (s.rn a)
      if limitOver s (s.rn b) && h.live s && (s.fut h.key).stat == .pending then raiseCore s ⟨cWAITEXP, 3, h.word, false⟩ else s)
  | _ => s

end Sys2Proof.Machine
end

