-- ==== Sys2Proof/Machine/Groups.lean ====
section
/-! DEFINITION. Machine/Groups.lean: group barriers and casts (R259 to R262). -/

namespace Sys2Proof.Machine

/-! ## Group entries (R259, R410) -/

/-- The module's entry of a launch's group. -/
def groupOf (s : State) (q gid : Nat) : Option (Nat × Grp) :=
  s.pkg.groups.findSome? (fun p => match p.2 with
    | some g => if g.launch = q ∧ g.gid = gid then some (p.1, g) else none
    | none => none)

def State.setGroup (s : State) (i : Nat) (g : Grp) : State :=
  s.modPkg (fun p => { p with groups := mapSet none p.groups i (some g) })

/-- Members that count as arrived at the present phase: those that arrived, and those that have ended. -/
def Grp.count (g : Grp) : Nat := (g.members.filter (fun m => g.arrived.contains m || g.ended.contains m)).length

/-- The phase completes when every member counts as arrived (R259); the arrivals until then, by the order stamp, are what its waits acquire (R389). -/
def Grp.settle (g : Grp) (stamp : Nat) : Grp :=
  if g.count = g.members.length then { g with phase := (g.phase + 1) % 2 ^ 16, arrived := [], doneAt := stamp } else g

/-- A member ends: it counts as arrived from now on (R259). -/
def Grp.memberEnds (g : Grp) (lidx stamp : Nat) : Grp :=
  if g.members.contains lidx && !g.ended.contains lidx then { g with ended := lidx :: g.ended }.settle stamp else g

/-- A task of a launch ends, in each of the launch's groups. -/
def endInGroups (s : State) (q lidx : Nat) : State :=
  s.modPkg (fun p => { p with groups := p.groups.map (fun e =>
    (e.1, e.2.map (fun g => if g.launch = q then g.memberEnds lidx s.stamp else g))) })

/-! ## What the forms share -/

/-- The group entry that a group id names for the focused task, or the trap (R259). -/
def groupCheck (s : State) (gid word : Nat) : Except Trap (Nat × Grp) :=
  match groupOf s (s.taskLaunch s.ft s.fslot) gid with
  | some (i, g) => if g.members.contains (s.taskLidx s.ft s.fslot) then .ok (i, g) else .error (tPermission word)
  | none => .error (tPermission word)

/-- The phase at which the focused task arrived at a group, if it has (R259). -/
def arrivedAt (s : State) (gid : Nat) : Option Nat := mapGet none (s.ext s.ft s.fslot).arrived gid

/-- Casts that the focused task has issued to a group and that are not yet written everywhere (R260, R262). -/
def castsOut (s : State) (gid : Nat) : Bool :=
  (s.tile s.ft).copies.any (fun c => c.kind == .cast gid && c.slot == s.fslot)

/-- The focused task arrives: a release of the barrier, then the arrival is counted (R260). -/
def arrive (s : State) (i : Nat) (g : Grp) : State :=
  let s1 := { release s s.ft s.fslot (grpKey g.launch g.gid) s.stamp with stamp := s.stamp + 1 }
  (s1.modExt s.ft s.fslot (fun e => { e with arrived := mapSet none e.arrived g.gid (some g.phase) })).setGroup i
    ({ g with arrived := s.taskLidx s.ft s.fslot :: g.arrived }.settle s1.stamp)

/-- Whether a tile's task is stopped at `BREAK` or runs its trap handler (R261). -/
def inBreak (csr : CtlCsr) (traps : List (TrapRec × Nat)) : Bool := csr.busy || traps.any (fun x => x.1.cause == cBREAK)

/-- Whether a task is stopped at a `BREAK` that went to its die's manager as a fault (R199, R261). -/
def brokeOff (s : State) (q t slot : Nat) : Bool :=
  (s.die (t / 512)).faults.any (fun f => f.1.cause == cBREAK && f.2.1 == q && f.1.tile == t && f.1.slot == slot)

/-- Whether any member of a debug-held group is so stopped: the limit cycles of its waits pause (R261). -/
def groupPaused (s : State) (g : Grp) : Bool :=
  g.debugHeld && s.tiles.any (fun e =>
    e.2.tasks.any (fun k => match k.2 with
      | some k' => k'.launch == g.launch && g.members.contains k'.lidx &&
        (brokeOff s g.launch e.1 k.1 || if e.2.resident == some k.1 then inBreak e.2.csr e.2.traps
         else match k'.saved with | some c => inBreak c.csr c.traps | none => false)
      | none => false))

/-- The bytes that members have cast to this tile are there for its cores (R262). -/
def seeCasts (s : State) (g : Grp) : State :=
  [0, 1, 2].foldl (fun s c => s.perform (fun w => w.cls == kTCOPY && w.op / 4 == 2 ^ 39 + g.gid && w.touches (spadBase s.ft) (2 ^ 21) &&
    w.task.any (fun k => s.taskLaunch k.1 k.2 == g.launch)) (.one (.tile s.ft c))) s

/-- A wait at a group for the phase at which the task arrived (R260): its completion is the barrier's acquire, and shows what was cast (R262). -/
def groupWait (s : State) (d : Reg) (g : Grp) (cur : Nat) (at' : Nat) : Act :=
  if cur ≠ at' then
    .retN ((acquire (seeCasts s g) s.ft s.fslot (grpKey g.launch g.gid) (below := g.doneAt)).modExt s.ft s.fslot
      (fun e => { e with arrived := mapSet none e.arrived g.gid none })) d at'
  else if groupPaused s g then .go (blockPaused s)
  else .wait s

/-! ## The forms (R260, R262) -/

/-- GR_ARRIVE (R260). -/
def execGrArrive (a : Reg) (s : State) : Host.Outcome State Fault Refusal :=
  let x := s.rn a
  perform <| ctlOnly s <|
    if 256 ≤ x then .illegal s
    else match groupCheck s x x with
    | .error tr => .trap tr s
    | .ok (i, g) =>
      if (arrivedAt s x).isSome then .resource s
      else if castsOut s x then .wait s
      else .done (arrive s i g)

/-- GR_WAIT (R260). -/
def execGrWait (d a _b : Reg) (s : State) : Host.Outcome State Fault Refusal :=
  let x := s.rn a
  perform <| ctlOnly s <|
    if 256 ≤ x then .illegal s
    else match groupCheck s x x with
    | .error tr => .trap tr s
    | .ok (_, g) =>
      match arrivedAt s x with
      | none => .resource s
      | some p => groupWait s d g g.phase p

/-- GR_BAR (R260): arrives unless the task has arrived, then waits. -/
def execGrBar (d a _b : Reg) (s : State) : Host.Outcome State Fault Refusal :=
  let x := s.rn a
  perform <| ctlOnly s <|
    if 256 ≤ x then .illegal s
    else match groupCheck s x x with
    | .error tr => .trap tr s
    | .ok (i, g) =>
      match arrivedAt s x with
      | some p => groupWait s d g g.phase p
      | none =>
        if castsOut s x then .wait s
        else
          let s1 := arrive s i g
          let g1 := ((groupOf s1 g.launch x).map (·.2)).getD g
          groupWait s1 d g1 g1.phase g.phase

/-- GR_CAST (R262): one copy slot carries the bytes to every member's tile; the form retires when it is accepted. -/
def execGrCast (a b : Reg) (s : State) : Host.Outcome State Fault Refusal :=
  let x := s.rn a
  let len := bitsOf x 56 40
  let off := bitsOf x 28 8
  let gid := bitsOf x 7 0
  perform <| ctlOnly s <|
    if bitsOf x 63 57 ≠ 0 ∨ bitsOf x 39 29 ≠ 0 then .illegal s
    else match groupCheck s gid x with
    | .error tr => .trap tr s
    | .ok _ =>
      if len = 0 ∨ 65536 < len then .trap (tCfgDesc 40 0) s
      else if 2 ^ 21 < off + len then .trap (trapAperture off kTCOPY .write) s
      else if !(s.tile s.ft).slotFree then .wait s
      else .done (startCopy s s.ft
        ⟨.cast gid, s.fslot, s.fc, 2 ^ 39 + gid, false, s.rx b, BitVec.ofNat 64 off, len, 1, 0, 0, 0, false, none, [], 0⟩)

/-- GR_WAIT_EXPIRY (R260, R261): a `gr.wait` or `gr.bar` whose limit has run out raises `WAITEXP`; the task stays arrived. -/
def execGrWaitExpiry (t : Nat) (s : State) : Host.Outcome State Fault Refusal :=
  let expire (a b : Reg) : State := onCore s t 0 (fun s =>
    let gid := bitsOf (s.rn a) 7 0
    match groupOf s (s.taskLaunch t s.fslot) gid, arrivedAt s gid with
    | some (_, g), some p =>
      if limitOver s (s.rn b) && g.phase == p && !groupPaused s g then
        raiseCore s ⟨cWAITEXP, 4 + 2 ^ 8 * gid + 2 ^ 16 * g.count + 2 ^ 32 * p, 0, false⟩
      else s
    | _, _ => s)
  .next <| match blockedAt s t 0 with
  | some (.grWait _ a b) => expire a b
  | some (.grBar _ a b) => expire a b
  | _ => s

end Sys2Proof.Machine
end

