-- ==== Sys2Proof/Machine/Events.lean ====
section
/-! DEFINITION. Machine/Events.lean: the event forms (R246 to R250), the writing of held records, and trap entry (R200). -/

namespace Sys2Proof.Machine

/-- The 16 bytes of a record (R247). -/
def EvRec.bytes (r : EvRec) : List Byte :=
  leBytes 8 (r.cls + 2 ^ 8 * (r.slot % 8) + 2 ^ 11 * r.core + 2 ^ 32 * r.tag.toNat) ++ leBytes 8 r.payload.toNat

/-- The records of a task in the order of the queue, each with its place in it (R246). -/
def taskRecords (v : Tile) (slot : Nat) : List (EvRec × Nat) := v.events.zipIdx.filter (fun e => e.1.slot == slot)

/-- The completions that a record of the focused task shows it (R270), and the acquire of a popped class-3 record's future
(R258). -/
def seeRecord (s : State) (r : EvRec) (popped : Bool) : State :=
  let task := (s.ft, s.fslot)
  let tag := r.tag.toNat
  if r.cls = 0 then s.markSeen task kTCOPY (fun o => o == tag * 4 + r.core)
  else if r.cls = 1 then s.markSeen task kXCOPY (fun o => o == tag)
  else if r.cls = 2 then s.markSeen task kINFUSER (fun o => o == tag)
  else if r.cls = 3 then
    let s1 := s.markSeen task kINFUSER (fun o => o == 2 ^ 32 + tag)
    if popped then seeFuture s1 s.ft s.fslot tag else s1
  else if r.cls = 4 then s.markSeen task kMATRIX (fun o => o == tag)
  else if r.cls = 6 then s.markSeen task kSTREAM (fun o => o == tag)
  else s

/-- Removes the record at a place of the queue. -/
def dropRecord (s : State) (i : Nat) : State := s.modTile s.ft (fun v => { v with events := v.events.eraseIdx i })

def allOnes64 : DWord := BitVec.allOnes 64

/-- EV_POP (R249). -/
def execEvPop (d a : Reg) (s : State) : Host.Outcome State Fault Refusal :=
  let x := s.rn a
  let dst := bitsOf x 20 0
  let rs := taskRecords (s.tile s.ft) s.fslot
  perform <| ctlOnly s <|
    if bitsOf x 63 32 ≠ 0 ∨ bitsOf x 23 21 ≠ 0 then .illegal s
    else if dst % 16 ≠ 0 then .align s dst 16
    else match rs[bitsOf x 31 24]? with
    | none => .ret s d allOnes64
    | some (r, i) =>
      .retN ((seeRecord (dropRecord s i) r true).store s.who dst [⟨spadBase s.ft + dst, 16⟩] r.bytes) d (rs.length - 1)

/-- EV_PEEK (R249). -/
def execEvPeek (d a : Reg) (s : State) : Host.Outcome State Fault Refusal :=
  let x := s.rn a
  perform <| ctlOnly s <|
    if 256 ≤ x then .illegal s
    else match (taskRecords (s.tile s.ft) s.fslot)[x]? with
    | none => .ret s d allOnes64
    | some (r, _) => .retN (seeRecord s r false) d (leNat (r.bytes.take 8))

/-- Position of the oldest record of a class in a mask, with the record (R250). -/
def oldestOf (v : Tile) (slot mask : Nat) : Option (EvRec × Nat) :=
  ((taskRecords v slot).map (·.1)).zipIdx.find? (fun e => bitOf mask e.1.cls)

/-- EV_WAIT (R250). -/
def execEvWait (d a b : Reg) (s : State) : Host.Outcome State Fault Refusal :=
  perform <| ctlOnly s <|
    if 128 ≤ s.rn a ∨ 2 ^ 32 ≤ s.rn b then .illegal s
    else match oldestOf (s.tile s.ft) s.fslot (s.rn a) with
    | some (r, i) => .retN (seeRecord s r false) d i
    | none => if s.rn b = 0 then .ret s d allOnes64 else .wait s

/-- EV_WAIT_EXPIRY (R250): rd takes all ones, and `WAITEXP` is raised with the mask and the number of records. -/
def execEvWaitExpiry (t : Nat) (s : State) : Host.Outcome State Fault Refusal :=
  .next <| match blockedAt s t 0 with
  | some (.evWait d a b) => onCore s t 0 (fun s =>
      if limitOver s (s.rn b) && (oldestOf (s.tile s.ft) s.fslot (s.rn a)).isNone then
        raiseCore (s.wx d allOnes64)
          ⟨cWAITEXP, 2 + 2 ^ 8 * s.rn a, (taskRecords (s.tile s.ft) s.fslot).length, false⟩
      else s)
  | _ => s

/-- Whether two records come from one source (R248); the records of one future keep their order too (R257). -/
def sameSource (a b : EvRec) : Bool :=
  a.cls == b.cls && a.slot == b.slot && (if a.cls = 3 then a.tag == b.tag else a.core == b.core)

/-- EVENT_RECORD_WRITE (R246): the i-th held record enters the queue once there is room; of one source, the older goes
first. -/
def execEventRecordWrite (t i : Nat) (s : State) : Host.Outcome State Fault Refusal :=
  let v := s.tile t
  .next <| match v.pending[i]? with
  | none => s
  | some r =>
    if 256 ≤ v.events.length || (v.pending.take i).any (fun q => sameSource q r) then s
    else s.setTile t { v with events := v.events ++ [r], pending := v.pending.eraseIdx i }

/-- TRAP_ENTRY (R200): the oldest trap that waits for a tile's control core is entered at its instruction boundary, or goes
to the die manager where the handler is not enabled. -/
def execTrapEntry (t : Nat) (s : State) : Host.Outcome State Fault Refusal := .next (enter s t)

end Sys2Proof.Machine
end

