-- ==== Sys2Proof/Machine/Xcopy.lean ====
section
/-! DEFINITION. Machine/Xcopy.lean: remote commands, sections, their commits and failures, and the framing of token rows at
their source (R271 to R279, R354 to R357). -/

namespace Sys2Proof.Machine

/-! ## Tickets and completion (R272) -/

/-- Takes the next ticket of the counter that the `xc` and `nb` forms share. -/
def takeTicket (s : State) : Nat × State :=
  let n := (s.ext s.ft s.fslot).xcNext
  (n, s.modExt s.ft s.fslot (fun e => { e with xcNext := (n + 1) % 2 ^ 31 }))

/-- The class-1 record of a command: status in bits [3:0] (R272); an `xc.frame` has its rows and duplicates (R279). -/
def xcRecord (slot : Nat) (c : XcCmd) (status moved : Nat) : EvRec :=
  ⟨1, slot, c.core, BitVec.ofNat 32 c.ticket,
    BitVec.ofNat 64 (if c.op = 4 then status + c.len % 2 ^ 28 * 2 ^ 4 + c.roff * 2 ^ 32 else status + moved * 2 ^ 32)⟩

/-- Status bit 0 of a command: it has moved poison (R272); of a framing form, in one of its rows (R279). -/
def XcCmd.poisonMoved (c : XcCmd) : Nat := bit01 (c.data.any (·.2))

/-- A command of a task completes with a status: its record where it asked for one; outside a section it is forgotten. -/
def completeCmd (s : State) (t slot : Nat) (c : XcCmd) (status moved : Nat) : State :=
  let s1 := s.modExt t slot (fun e =>
    { e with cmds := if c.inSect.isSome
        then e.cmds.map (fun x => if x.ticket = c.ticket then { x with done := true, held := none } else x)
        else e.cmds.filter (fun x => x.ticket != c.ticket) })
  if c.ev && c.op != 3 then s1.event t (xcRecord slot c status moved) else s1

/-- The copy engine of a command (R354). -/
def engineOf (dst cls : Nat) : Nat := (dst + 4 * cls) % 16

/-- A command's unit: its engine on path XCOPY (R270). -/
def xcWho (t slot : Nat) (c : XcCmd) : Who := ⟨t, slot, .engine (engineOf c.pkg c.cls), kXCOPY, c.ticket, false, none⟩

/-! ## Sections (R274 to R278) -/

/-- The open section of a kind. -/
def TaskExt.section' (e : TaskExt) (explicit : Bool) : Option Sect := if explicit then e.sect else e.implicit
def TaskExt.setSection (e : TaskExt) (explicit : Bool) (x : Option Sect) : TaskExt :=
  if explicit then { e with sect := x } else { e with implicit := x }

/-- A section as it opens. -/
def Sect.open (serial : Nat) (explicit : Bool) (x : List (Nat × DWord)) (pc : DWord) (rd : Nat) : Sect :=
  ⟨serial, explicit, x, pc, rd, 0, 0, [], false, []⟩

/-- The key of a section (R348). -/
def sectKey (s : State) (t slot : Nat) (x : Sect) : Nat :=
  (Config.sectionKey s.pkg.num (((s.launch (s.taskLaunch t slot)).map (·.home)).getD 0) (s.taskLidx t slot) x.explicit (s.ext t slot).part x.serial).toNat

/-- Sends the commit of a section to every target (R275). -/
def sendCommits (s : State) (t slot : Nat) (x : Sect) : State :=
  x.targets.foldl (fun s p => s.sendFrame p 0 0x06 (opHdr [(12, 4, sectKey s t slot x)]) [] true [(t, slot, 2 ^ 31 + x.serial)] none) s

/-- Sends the discard of a section on every flow that carries a staged command of it, behind the last one (R276, R345). -/
def sendDiscards (s : State) (t slot : Nat) (x : Sect) : State :=
  ((((s.ext t slot).cmds.filter (fun c => c.inSect == some x.serial && c.op != 0)).map (fun c => (c.pkg, c.cls))).eraseDups).foldl
    (fun s p => s.sendFrame p.1 p.2 0x07 (opHdr [(12, 4, sectKey s t slot x)]) [] true [] (some (s.taskLaunch t slot))) s

/-- Drops every staging of a section at every target; its commands in flight complete with status bit 2 (R276). -/
def discardSection (s : State) (t slot : Nat) (explicit : Bool) : State :=
  match (s.ext t slot).section' explicit with
  | none => s
  | some x =>
    let mine := (s.ext t slot).cmds.filter (fun c => c.inSect == some x.serial)
    let s1 := (mine.filter (fun c => !c.done)).foldl (fun s c => completeCmd s t slot c 4 0) (sendDiscards s t slot x)
    s1.modExt t slot (fun e =>
      { e.setSection explicit none with cmds := e.cmds.filter (fun c => c.inSect != some x.serial) })

/-- A failure of an open explicit section before its decision (R276): a rollback, which waits for the end of an `rw.pop` of the control core whose
copy has begun (R223), or for the handler's `sys.eret`. -/
def failExplicit (s : State) (t slot code : Nat) : State :=
  match (s.ext t slot).sect with
  | none => s
  | some x =>
    if x.decided || (s.ext t slot).rollback.isSome then s
    else
      let s1 := discardSection s t slot true
      if (taskCsr s t slot).busy || (s.tile t).popping slot then s1.modExt t slot (fun e => { e with sect := some x, rollback := some code })
      else rollBack s1 t slot x code

/-- A failure of an implicit section (R278): a fault of the task; nothing is rolled back. -/
def failImplicit (s : State) (t slot code ticket : Nat) : State :=
  match (s.ext t slot).implicit with
  | none => s
  | some x =>
    if x.decided then s
    else
      let tr : Trap := ⟨cXFAIL, code + 2 ^ 8 + 2 ^ 32 * ticket, sectKey s t slot x, false⟩
      deliverFault (discardSection s t slot false) t (s.taskLaunch t slot) (mkRec s t slot 3 (w1Unit kXCOPY) tr true)

/-- The failure of a command: of its section, or of traffic outside one (R346). -/
def failCommand (s : State) (t slot code : Nat) (c : XcCmd) : State :=
  match c.inSect with
  | some n =>
    if (s.ext t slot).sect.map (·.serial) = some n then failExplicit s t slot code else failImplicit s t slot code c.ticket
  | none =>
    deliverFault (completeCmd s t slot c 2 0) t (s.taskLaunch t slot)
      (mkRec s t slot 3 (w1Unit kXCOPY) ⟨cXFAIL, code + 2 ^ 32 * c.ticket, 0, false⟩ true)

/-- SECTION_ROLLBACK (R276, R278): a section of a task fails before its decision with a code: its explicit section, or with
none open its implicit one. -/
def execSectionRollback (t slot code : Nat) (s : State) : Host.Outcome State Fault Refusal :=
  .next <|
    if code < 1 ∨ 7 < code then s
    else if (s.ext t slot).sect.isSome then failExplicit s t slot code else failImplicit s t slot code 0

/-! ## Commit (R275, R278, R440) -/

/-- Bytes of an element of a reduction op (R273). -/
def redBytes (op : Nat) : Nat := if op = 1 then 8 else if op = 6 then 2 else 4

/-- The digest terms of a staged command at its commit (R440): a store's bytes, or each operand. -/
def digestCmd (seed : Nat) (c : XcCmd) : Nat :=
  let bs := c.data.map (·.1)
  if c.op = 1 then digestStore seed c.rtensor c.roff bs
  else
    let z := if c.op = 3 then 8 else redBytes c.redOp
    ((records z bs).zipIdx.map (fun x => digestTerm seed c.rtensor (c.roff + z * x.2) (leNat x.1) 0)).foldl (· + ·) 0

/-- Closes a committed section; the task sees its commands complete. -/
def closeSection (s : State) (t slot : Nat) (explicit : Bool) (x : Sect) : State :=
  let tickets := ((s.ext t slot).cmds.filter (fun c => c.inSect == some x.serial)).map (·.ticket)
  (s.modExt t slot (fun e => { e.setSection explicit none with cmds := e.cmds.filter (fun c => c.inSect != some x.serial) })).markSeen
    (t, slot) kXCOPY (fun o => tickets.contains o)

/-- One step of a section's commit (R275): it waits for the section's commands, decides, and closes when every target has
acknowledged. The flag tells that nothing is left to do. -/
def commitStep (s : State) (t slot : Nat) (explicit : Bool) : State × Bool :=
  match (s.ext t slot).section' explicit with
  | none => (s, true)
  | some x =>
    let mine := (s.ext t slot).cmds.filter (fun c => c.inSect == some x.serial)
    if mine.any (fun c => !c.done) then (s, false)
    else if !x.decided then
      let y := { x with decided := true, pendingAck := x.targets }
      let d := (mine.map (digestCmd (s.seed (s.taskLaunch t slot)))).foldl (· + ·) 0
      let s1 := (sendCommits s t slot x).addDigest t slot d
      if x.targets.isEmpty then (closeSection s1 t slot explicit y, true)
      else (s1.modExt t slot (fun e => e.setSection explicit (some y)), false)
    else if x.pendingAck.isEmpty then (closeSection s t slot explicit x, true)
    else (s, false)

/-- XC_BEGIN (R274). -/
def execXcBegin (d : Reg) (s : State) : Host.Outcome State Fault Refusal :=
  perform <| ctlOnly s <|
    let e := s.ext s.ft s.fslot
    if e.sect.isSome then .resource s
    else
      let pc := s.cur.pc + BitVec.ofNat 64 s.cur.ilen
      .ret (s.modExt s.ft s.fslot (fun e =>
        { e with sect := some (Sect.open e.sections true s.cur.x pc d.toNat), sections := e.sections + 1 })) d 0

/-- XC_COMMIT (R275). -/
def execXcCommit (d : Reg) (s : State) : Host.Outcome State Fault Refusal :=
  perform <| ctlOnly s <|
    let e := s.ext s.ft s.fslot
    if e.sect.isNone || e.rollback.isSome then .resource s
    else
      let r := commitStep s s.ft s.fslot true
      if r.2 then .ret r.1 d 0 else .wait r.1

/-! ## Issue (R271 to R274, R278) -/

/-- The command of a 32-byte descriptor. -/
def parseXc (bs : List Byte) (op core : Nat) (ev : Bool) (len redOp : Nat) : XcCmd :=
  let f := fieldAt bs
  { op := op, ticket := 0, core := core, ev := ev, len := len, pkg := f 8 1, cls := f 9 1, rctx := f 0x0A 2, rtensor := f 0x0C 2
    roff := f 0x10 8, redOp := redOp, laddr := BitVec.ofNat 64 (f 0 8), serial := 0, inSect := none, done := false, data := []
    written := 0, last := false, held := none, ends := [] }

/-- Lowest bit of the first descriptor field outside its values (R271). A local address of no form raises `APERTURE` where its bytes
are reached (R47, R195). -/
def xcFail (s : State) (bs : List Byte) : Option Nat :=
  let f := fieldAt bs
  firstFail [(64, f 8 1 < 64 && f 8 1 != s.pkg.num), (72, f 9 1 < 4), (80, f 0x0A 2 < 4096),
    (112, f 0x0E 2 == 0), (128, f 0x10 8 < 2 ^ 47), (192, f 0x18 8 == 0)]

/-- Reads the local bytes of a command as it is accepted: bytes, whether any is poisoned, or the trap (R271, R272). -/
def readLocal (s : State) (c : XcCmd) (t slot n : Nat) : State × Except Trap (List Byte × Bool) :=
  let w := xcWho t slot c
  let x := s.find w c.laddr.toNat n .read
  let s1 := s.cache x
  (s1, match x.res with
    | .error tr => .error tr
    | .ok ps => .ok (s1.readParts w.obs ps, (s1.poisonedPart ps).isSome))

/-- Adds a command to its section, which opens on its first one when it is implicit. -/
def joinSection (s : State) (explicit : Bool) (c : XcCmd) : State :=
  s.modExt s.ft s.fslot (fun e =>
    let x := (e.section' explicit).getD (Sect.open e.sections false [] 0 0)
    let e1 := if (e.section' explicit).isNone then { e with sections := e.sections + 1 } else e
    let y := { x with count := x.count + 1, bytes := x.bytes + c.len
                      targets := if c.op = 0 || x.targets.contains c.pkg then x.targets else x.targets ++ [c.pkg] }
    { e1.setSection explicit (some y) with cmds := e1.cmds ++ [{ c with inSect := some x.serial }] })

/-- Sends the frames of an accepted command under the key of its section (R348). -/
def sendXc (s : State) (c : XcCmd) (key : Nat) : State :=
  let cmd := (s.ft, s.fslot, c.ticket)
  if c.op = 0 then
    s.sendFrame c.pkg c.cls 0x04 (opHdr [(1, 1, 8), (2, 2, c.rctx), (4, 2, c.rtensor), (6, 6, c.roff), (12, 4, c.serial)])
      (leBytes 4 c.len) false [cmd] none
  else s.sendCommand c.pkg c.cls c.op (if c.op = 2 then c.redOp else 0) c.rctx c.rtensor c.roff key (c.data.map (·.1)) true cmd

/-- The failure code of a command that would pass a section's limits (R274). -/
def overLimit (x : Option Sect) (len : Nat) : Option Nat :=
  let n := (x.map (·.count)).getD 0
  let b := (x.map (·.bytes)).getD 0
  if 64 ≤ n then some 3 else if 2 ^ 20 < b + len then some 4 else none

/-- A command waits while its section is being committed: it belongs to the task's next one (R275, R278); and while a staged command of the
section to the same package in another class has not completed, for the target applies them in issue order (R273; log entry 13). -/
def mustQueue (s : State) (explicit : Bool) (c : XcCmd) : Bool :=
  let e := s.ext s.ft s.fslot
  (explicit || c.op != 0) && (match e.section' explicit with
    | some x => x.decided || (c.op != 0 && e.cmds.any (fun y =>
        y.inSect == some x.serial && y.op != 0 && !y.done && y.pkg == c.pkg && y.cls != c.cls))
    | none => false)

/-- A command whose fields have passed: its section, its limits, its local bytes, and its sending. -/
def acceptXc (s : State) (d : Reg) (c0 : XcCmd) : Act :=
  let e := s.ext s.ft s.fslot
  let explicit := e.sect.isSome
  let tk := takeTicket s
  let c := { c0 with ticket := tk.1, serial := s.net.serial }
  let s1 := tk.2.modNet (fun n => { n with serial := (n.serial + 1) % 2 ^ 32 })
  let ret (s : State) : Act := .retN s d tk.1
  -- a failure of the section: the control core goes back, another core goes on
  let failed (s : State) (code : Nat) : Act :=
    if s.fc = 0 ∧ !(taskCsr s s.ft s.fslot).busy then .go (failExplicit s s.ft s.fslot code)
    else ret (failExplicit s s.ft s.fslot code)
  let skipped (s : State) : State := if c.ev && c.op != 3 then s.event s.ft (xcRecord s.fslot c 4 0) else s
  if c.len = 0 then ret (if c.ev then s1.event s.ft (xcRecord s.fslot c 0 0) else s1)
  else if e.rollback.isSome then ret (skipped s1)
  else if mustQueue s explicit c then .wait s
  else if c.op = 0 ∧ !explicit then
    ret (sendXc (s1.modExt s.ft s.fslot (fun e => { e with cmds := e.cmds ++ [c] })) c 0)
  else match overLimit (e.section' explicit) c.len with
  | some code => if explicit then failed (skipped s1) code else .resource s
  | none =>
    if c.op = 0 then ret (sendXc (joinSection s1 explicit c) c 0)
    else
      let stage (s : State) (c : XcCmd) : Act :=
        let s2 := joinSection s explicit c
        ret (sendXc s2 c (match (s2.ext s.ft s.fslot).section' explicit with | some x => sectKey s2 s.ft s.fslot x | none => 0))
      if c.op = 3 then stage s1 c
      else match readLocal s1 c s.ft s.fslot c.len with
      | (s2, .error tr) =>
        if tr.cause = cNOTPRESENT then .hold tr s
        else ret (deliverFault (if c.ev then s2.event s.ft (xcRecord s.fslot c 2 0) else s2) s.ft (s.taskLaunch s.ft s.fslot)
          (mkRec s s.ft s.fslot 3 (w1Unit kXCOPY) tr true))
      | (s2, .ok (bs, poison)) =>
        if poison then
          if explicit then failed (skipped s2) 6
          else ret (failImplicit (joinSection s2 false c) s.ft s.fslot 6 tk.1)
        else stage s2 { c with data := bs.map (fun b => (b, false)) }

/-- The checks that the four forms share: descriptor, then the fields, then alignment to `z` bytes. -/
def xcForm (s : State) (d a : Reg) (op : Nat) (ev : Bool) (len redOp z : Nat) (data : List Byte) : Act :=
  match readSpad s (s.rn a) 32 8 with
  | .error tr => .trap tr s
  | .ok bs =>
    match xcFail s bs with
    | some bit => .trap (tCfgDesc bit (s.rn a)) s
    | none =>
      let c := { parseXc bs op s.fc ev len redOp with data := data.map (fun b => (b, false)) }
      if c.roff % z ≠ 0 then .align s c.roff z
      else if (op = 2 ∧ c.laddr.toNat % z ≠ 0) then .align s c.laddr.toNat z
      else if len % z ≠ 0 then .align s len z
      else acceptXc s d c

/-- A form with a control word in rs2: its reserved bits, its OP, its LEN. -/
def xcControl (s : State) (d a b : Reg) (op : Nat) : Act :=
  let x := s.rn b
  let rop := bitsOf x 58 56
  let len := bitsOf x 20 0
  if bitsOf x 62 59 ≠ 0 ∨ bitsOf x 55 21 ≠ 0 then .illegal s
  else if op = 2 ∧ rop = 7 then .illegal s
  else if op ≠ 2 ∧ rop ≠ 0 then .trap (tCfgDesc 56 0) s
  else if 2 ^ 20 < len then .trap (tCfgDesc 0 0) s
  else xcForm s d a op (bitOf x 63) len rop (if op = 2 then redBytes rop else 1) []

/-- XC_GET (R272). -/
def execXcGet (d a b : Reg) (s : State) : Host.Outcome State Fault Refusal := perform (xcControl s d a b 0)
/-- XC_PUT (R272). -/
def execXcPut (d a b : Reg) (s : State) : Host.Outcome State Fault Refusal := perform (xcControl s d a b 1)
/-- XC_RED (R273). -/
def execXcRed (d a b : Reg) (s : State) : Host.Outcome State Fault Refusal := perform (xcControl s d a b 2)
/-- XC_SIG (R272): the increment is rs2. -/
def execXcSig (d a b : Reg) (s : State) : Host.Outcome State Fault Refusal :=
  perform (xcForm s d a 3 false 8 0 8 (leBytes 8 (s.rn b)))

/-! ## Token rows at the source (R279, R356, R357, R413) -/

/-- A framing descriptor. -/
structure FrameDesc where
  base : Nat
  rowBytes : Nat
  vec : Nat
  cells : Bool
  timer : Nat
  cls : Nat
deriving DecidableEq, Repr, Inhabited

def parseFrameDesc (bs : List Byte) : FrameDesc :=
  let f := fieldAt bs
  ⟨f 0 8, f 8 4, f 0x0C 4, f 0x10 1 == 1, f 0x11 1, f 0x12 1⟩

/-- Lowest bit of the first field of a framing descriptor outside its values. -/
def frameDescFail (bs : List Byte) : Option Nat :=
  let f := fieldAt bs
  let x := parseFrameDesc bs
  firstFail [(0, localField x.base),
    (64, x.rowBytes % 16 == 0 && 16 ≤ x.rowBytes && x.rowBytes ≤ 16384), (96, x.vec % 8 == 0), (117, decide (x.vec < 2 ^ 21)),
    (128, decide (f 0x10 1 ≤ 1)), (136, if x.cells then x.timer == 0 else 1 ≤ x.timer && x.timer ≤ 64), (144, x.cls < 4),
    (152, leNat (bs.drop 0x13) == 0)]

/-- Where a row goes: package, tile, window. -/
structure RowDest where
  pkg : Nat
  tile : Nat
  w : Nat
deriving DecidableEq, Repr, Inhabited

/-- The destination of a route word, by its fields or by the replica table; none rejects the row (R279, R413). -/
def rowDest (s : State) (q rw : Nat) : Option RowDest :=
  let die := bitsOf rw 33 29
  if die = 31 then
    match s.launch q with
    | none => none
    | some l =>
      let e := (l.replica.drop (64 * bitsOf rw 47 40)).take 64
      let n := fieldAt e 0 1
      if n = 0 then none
      else
        let o := gleam ⟨bitsOf rw 63 48, bitsOf rw 47 40, 1, 0x20000000⟩ l.seed.toNat
        let b := 32 + 4 * (o.x0 * n / 2 ^ 32)
        some ⟨fieldAt e b 1, fieldAt e (b + 1) 2, fieldAt e (b + 3) 1 % 64⟩
  else if 23 < die ∨ 23 < bitsOf rw 24 20 then none
  else some ⟨bitsOf rw 39 34, die * 512 + bitsOf rw 28 25 * 32 + bitsOf rw 24 20, bitsOf rw 19 14⟩

/-- The route word that a receiver reads: the fields of the destination in their places. -/
def routeWordOf (rw : Nat) (d : RowDest) : Nat :=
  bitsOf rw 63 40 * 2 ^ 40 + d.pkg % 64 * 2 ^ 34 + d.tile / 512 * 2 ^ 29 + d.tile / 32 % 16 * 2 ^ 25 + d.tile % 32 * 2 ^ 20 + d.w * 2 ^ 14

/-- Rows of a routing step, each with its destination, route word and number, in order; a repeated (token, expert) is dropped. -/
def dedupRows : List (RowDest × Nat × Nat) → List Nat → List (RowDest × Nat × Nat)
  | [], _ => []
  | (d, rw, n) :: r, seen => if seen.contains (rw / 2 ^ 40) then dedupRows r seen else (d, rw, n) :: dedupRows r (rw / 2 ^ 40 :: seen)

/-- The rows of a routing step that no bad destination rejects, with their destinations: a replica is chosen before the duplicate test (R413). -/
def acceptedRows (s : State) (q : Nat) (rws : List Nat) : List (RowDest × Nat × Nat) :=
  rws.zipIdx.filterMap (fun r => (rowDest s q r.1).map (fun e => (e, r)))

/-- A window end that a row of a task of launch `q` moves a token into from this tile: the window of this package, or the proxy here of an arc whose
window lies on another package. -/
def rowWindow (s : State) (q : Nat) (d : RowDest) : Option (Nat × Window) :=
  if d.pkg = s.pkg.num then (s.win d.tile (windowKey q d.w)).map (fun x => (d.tile, x))
  else match s.win s.ft (windowKey q d.w) with
    | some x => if x.proxy && x.cPkg == d.pkg then some (s.ft, x) else none
    | none => none

/-- The window ends here that a routing step moves tokens into: destination, window tile, window, how many (R279). A window of another
token size rejects its rows, and moves none. -/
def rowEnds (s : State) (q z : Nat) (ds : List RowDest) : List (RowDest × Nat × Window × Nat) :=
  ds.eraseDups.filterMap (fun d => (rowWindow s q d).map (fun x =>
    (d, x.1, x.2, if x.2.tok = z then (ds.filter (fun e => e == d)).length else 0)))

/-- The producer-side checks of a routing step of rows of `z` bytes at each window it names, in the order of R313: a window of this package
that is not open, `PERMISSION` (R222, R329), `RATE`, then the space. `ref`: what a `PERMISSION` record names. -/
def rowsCheck (s : State) (q z : Nat) (ds : List RowDest) (ref : Nat) : Option Trap :=
  let ends := rowEnds s q z ds
  let monitor (x : RowDest × Nat × Window × Nat) (n : Nat) : Option Trap :=
    monitorCheck s s.ft s.fslot x.1.w ref x.2.2.1 true (s.prod s.ft x.2.1 (windowKey q x.1.w)).pCount n kXCOPY
  let permission (x : RowDest × Nat × Window × Nat) : Option Trap :=
    if x.2.2.1.mon || x.2.2.1.producedAt s s.ft then monitor x 0 else some (tPermission ref kXCOPY true)
  if ds.any (fun d => d.pkg == s.pkg.num && (s.win d.tile (windowKey q d.w)).isNone) then some (tResource s)
  else ((ends.findSome? permission).or (ends.findSome? (fun x => monitor x x.2.2.2))).or
    (if ends.any (fun x => decide (freeCount x.2.2.1 (s.prod s.ft x.2.1 (windowKey q x.1.w)) < x.2.2.2)) then some (tResource s) else none)

/-- Rows wait for an earlier push of this tile that has taken slots of a window whose advance is still to come (R279); and for earlier rows of
this core to the same window of another package, which travel in another class and so on another flow, until these are acknowledged (R394). -/
def rowsBehind (s : State) (q z cls : Nat) (ds : List RowDest) : Bool :=
  (rowEnds s q z ds).any (fun x => x.2.2.2 != 0 && (s.prod s.ft x.2.1 (windowKey q x.1.w)).wr != x.2.2.1.wr) ||
    (s.ext s.ft s.fslot).cmds.any (fun c => c.op == 4 && c.core == s.fc && c.cls != cls && ds.any (fun d => c.ends.contains (d.pkg, d.tile, d.w)))

/-- Puts a row into the window of a key of a tile of this package as one token (R279): the next slot, then the write index. A window that is not
open, whose token size differs or that has no free slot rejects the row, which is counted as an error. -/
def pushRow (s : State) (e tile key : Nat) (bs : List (Byte × Bool)) : State :=
  let reject : State := s.modNet (fun n => { n with rowErrors := n.rowErrors + 1 })
  match s.win tile key with
  | none => reject
  | some x =>
    if x.tok ≠ bs.length ∨ x.cap ≤ x.occ then reject
    else
      let s1 := s.addData ⟨spadBase tile + x.slotOff x.wr, [], .engine e, kXCOPY, none, 0, true, [.all], [], 0, none, []⟩ bs
      applyAdvance s1 tile key 1 ((x.wr + 1) % x.cap)

/-- A row frame of 64 KiB: header, index vector, rows; each byte with its poison (R356, R432). -/
def rowFrameBytes (s : State) (f : RowFill) : List (Byte × Bool) :=
  let clean (bs : List Byte) : List (Byte × Bool) := bs.map (fun b => (b, false))
  let n := f.rows.length
  let idx := (f.rows.map (fun r => leBytes 8 r.1.toNat)).flatten
  let gap := (16 - (0x20 + 8 * n) % 16) % 16
  let body := clean (idx ++ List.replicate gap 0) ++ (f.rows.map (·.2)).flatten
  let tail := body ++ List.replicate (0x10000 - 0x20 - body.length) (0, false)
  clean (leBytes 1 1 ++ leBytes 1 f.cls ++ leBytes 2 n ++ leBytes 4 f.rowBytes ++ leBytes 1 f.dstPkg ++ leBytes 1 f.dstDie ++
    leBytes 1 s.pkg.num ++ leBytes 1 0 ++ leBytes 4 f.serial ++ leBytes 4 (crc32c (tail.map (·.1))) ++ List.replicate 12 0) ++ tail

/-- Rows of a size that fit a row frame: index vector rounded up to 16 bytes, then the rows (R356). -/
def rowsFit (n rowBytes : Nat) : Bool := decide (ceilDiv (0x20 + 8 * n) 16 * 16 + n * rowBytes ≤ 0x10000)

/-- Closes a row frame: it goes as eight parts (R356). -/
def closeFill (s : State) (i : Nat) : State :=
  match s.net.fills[i]? with
  | none => s
  | some f =>
    let bs := rowFrameBytes s f
    let s1 := s.modNet (fun n => { n with fills := n.fills.eraseIdx i })
    (List.range 8).foldl (fun s p =>
      let part := (bs.drop (8192 * p)).take 8192
      s.sendFrame f.dstPkg f.cls 0x09 (opHdr [(2, 1, p), (12, 4, f.serial)]) (part.map (·.1)) false f.cmds none (badPlaces part)) s1

/-- Puts a row into the frame being filled for its die, opening one where none is, and closing one that it would overfill. -/
def fillRow (s : State) (c : XcCmd) (t slot : Nat) (d : RowDest) (rw : Nat) (bs : List (Byte × Bool)) : State :=
  let cmd := (t, slot, c.ticket)
  let die := d.tile / 512
  let mine (f : RowFill) : Bool := f.dstPkg == d.pkg && f.dstDie == die && f.cls == c.cls && f.rowBytes == bs.length
  let s1 := match s.net.fills.findIdx? mine with
    | some i => if rowsFit ((match s.net.fills[i]? with | some (f : RowFill) => f.rows.length | none => 0) + 1) bs.length then s else closeFill s i
    | none => s
  let row := (BitVec.ofNat 64 (routeWordOf rw d), bs)
  match s1.net.fills.findIdx? mine with
  | some i => s1.modNet (fun n => { n with fills := n.fills.modify i (fun (f : RowFill) =>
      { f with rows := f.rows ++ [row], cmds := if f.cmds.contains cmd then f.cmds else f.cmds ++ [cmd] }) })
  | none => s1.modNet (fun n => { n with
      fills := n.fills ++ [(⟨d.pkg, die, c.cls, bs.length, n.serial, [row], [cmd]⟩ : RowFill)], serial := (n.serial + 1) % 2 ^ 32 })

/-- Closes the row frame being filled in a class that holds a row for a window: what goes to the window next in cells follows it (R394). -/
def closeFillFor (s : State) (cls : Nat) (d : RowDest) : State :=
  match s.net.fills.findIdx? (fun f => f.dstPkg == d.pkg && f.cls == cls && f.rows.any (fun r => bitsOf r.1.toNat 39 14 == bitsOf (routeWordOf 0 d) 39 14)) with
  | some i => closeFill s i
  | none => s

/-- Cuts a row into cells (R357), the last one marked in bit 3 of byte 1 (R348; log entry 97). -/
def sendCells (s : State) (c : XcCmd) (t slot : Nat) (d : RowDest) (rw : Nat) (bs : List (Byte × Bool)) : State :=
  let serial := s.net.serial
  let n := ceilDiv bs.length 256
  let s1 := s.modNet (fun n => { n with serial := (n.serial + 1) % 2 ^ 32 })
  (List.range n).foldl (fun s i =>
    let cell := (bs.drop (256 * i)).take 256
    s.sendFrame d.pkg c.cls 0x0A (opHdr [(1, 1, 8 * bit01 (i + 1 == n)), (2, 2, i), (4, 8, routeWordOf rw d), (12, 4, serial)])
      (cell.map (·.1)) false [(t, slot, c.ticket)] none (badPlaces cell)) s1

/-- A row that goes by its route word takes the next slot of its proxy, and its serial among the arc's tokens, as a token carried off (R279,
R311). -/
def passProxy (s : State) (t key : Nat) : State :=
  s.modWin t key (fun x => if x.proxy then
    { x with wr := (x.wr + 1) % x.cap, rd := (x.rd + 1) % x.cap, cCount := (x.cCount + 1) % 2 ^ 32 } else x)

/-- Sends one row on its way, poison included (R432). -/
def sendRow (s : State) (c : XcCmd) (t slot : Nat) (cells : Bool) (d : RowDest) (rw : Nat) (bs : List (Byte × Bool)) : State :=
  let key := windowKey (s.taskLaunch t slot) d.w
  let s1 := match rowWindow s (s.taskLaunch t slot) d with
    | some (u, x) => if x.producedAt s t && x.tok == bs.length then passProxy (takeSlots s t u key 1) u key else s
    | none => s
  if d.pkg = s.pkg.num then pushRow s1 (engineOf d.pkg c.cls) d.tile key bs
  else if cells then sendCells (closeFillFor s1 c.cls d) c t slot d rw bs
  else fillRow s1 c t slot d rw bs

/-- Whether a command still has a frame that is unacknowledged, or rows in an open row frame. -/
def cmdPending (s : State) (cmd : Nat × Nat × Nat) : Bool :=
  s.net.tx.any (fun f => f.2.unacked.any (fun x => x.cmds.contains cmd)) || s.net.fills.any (fun f => f.cmds.contains cmd)

/-- One routing step (R279): rejected rows and duplicates are counted, the others are sent in order; the rows themselves are reached
last (R313). Its status says whether poison was moved. `ref`: the descriptor's address. -/
def routeStep (s : State) (d : Reg) (x : FrameDesc) (ev : Bool) (rws : List Nat) (ref : Nat) : Act :=
  let q := s.taskLaunch s.ft s.fslot
  let accepted := acceptedRows s q rws
  let dests := dedupRows accepted []
  match rowsCheck s q x.rowBytes (dests.map (·.1)) ref with
  | some tr => .trap tr s
  | none =>
    if 2 ^ 21 < x.base + x.rowBytes * rws.length then .trap (trapAperture x.base kXCOPY .read) s
    else if rowsBehind s q x.rowBytes x.cls (dests.map (·.1)) then .wait s
    else
    let row (i : Nat) : List (Byte × Bool) := s.dataAt (.engine (engineOf s.pkg.num x.cls)) (spadBase s.ft + x.base + x.rowBytes * i) x.rowBytes
    let tk := takeTicket s
    let c : XcCmd :=
      { op := 4, ticket := tk.1, core := s.fc, ev := ev, len := dests.length, pkg := 0, cls := x.cls, rctx := 0, rtensor := 0
        roff := accepted.length - dests.length, redOp := 0, laddr := 0, serial := 0, inSect := none, done := false
        data := if dests.any (fun r => (row r.2.2).any (·.2)) then [(0, true)] else [], written := 0, last := false, held := none
        ends := (dests.filter (fun r => r.1.pkg != s.pkg.num)).map (fun r => (r.1.pkg, r.1.tile, r.1.w)) }
    let s1 := (tk.2.modExt s.ft s.fslot (fun e => { e with cmds := e.cmds ++ [c] })).modNet (fun n => { n with
      rowErrors := n.rowErrors + (rws.length - accepted.length), rowDups := n.rowDups + c.roff })
    let s2 := dests.foldl (fun s r => sendRow s c s.ft s.fslot x.cells r.1 r.2.1 (row r.2.2)) s1
    .retN (if cmdPending s2 (s.ft, s.fslot, c.ticket) then s2 else completeCmd s2 s.ft s.fslot c c.poisonMoved 0) d tk.1

/-- XC_FRAME (R279). -/
def execXcFrame (d a b : Reg) (s : State) : Host.Outcome State Fault Refusal :=
  let y := s.rn b
  let n := bitsOf y 15 0
  perform <|
    if bitsOf y 62 16 ≠ 0 then .illegal s
    else match readSpad s (s.rn a) 32 8 with
    | .error tr => .trap tr s
    | .ok bs =>
      match frameDescFail bs with
      | some bit => .trap (tCfgDesc bit (s.rn a)) s
      | none =>
        if n = 0 then .trap (tCfgDesc 0 0) s
        else
          let x := parseFrameDesc bs
          if 2 ^ 21 < x.vec + 8 * n then .trap (trapAperture x.vec kXCOPY .read) s
          else if s.poisonIn (spadBase s.ft + x.vec) (8 * n) then .trap ⟨cPOISON, x.vec, 0x01, false⟩ s
          else
            let o : Obs := .engine (engineOf s.pkg.num x.cls)
            routeStep s d x (bitOf y 63) ((List.range n).map (fun i => leNat (s.bytesAt o (spadBase s.ft + x.vec + 8 * i) 8))) (s.rn a)

/-- ROW_FRAME_FILL_TIMEOUT (R356): the i-th row frame being filled closes and is sent. -/
def execRowFrameFillTimeout (i : Nat) (s : State) : Host.Outcome State Fault Refusal := .next (closeFill s i)

end Sys2Proof.Machine
end

