-- ==== Sys2Proof/Machine/Infuser.lean ====
section
/-! DEFINITION. Machine/Infuser.lean: the infusers (R280, R281, R360 to R364, R366 to R379): posting a command, bank jobs with
their slices and arbitration, results, and faults. -/

namespace Sys2Proof.Machine

/-! ## Commands (R360, R366) -/

/-- The fields of the 64 bytes of a command. -/
structure NbDesc where
  opcode : Nat
  fmt : Nat
  dim : Nat
  kTensor : Nat
  vTensor : Nat
  b0 : Nat
  t0 : Nat
  count : Nat
  scale : Nat
  p1 : Nat
  p2 : Nat
  clean : Bool
deriving DecidableEq, Repr, Inhabited

def parseNb (bs : List Byte) : NbDesc :=
  let f := fieldAt bs
  ⟨f 0 1, f 1 1, f 2 2, f 4 2, f 6 2, f 8 2, f 0x0C 4, f 0x10 4, f 0x14 4, f 0x18 8, f 0x20 8,
    f 0x0A 2 == 0 && leNat (bs.drop 0x28) == 0⟩

/-- Whether an address has the SHARED form (R47). -/
def isShared (a : Nat) : Bool := match gaddr a with | some (.shared _ _) => true | _ => false

/-- Order 2 of R361: lowest bit of the first field outside R360. -/
def nbFail (query : Bool) (x : NbDesc) : Option Nat :=
  firstFail [(0, x.opcode == (if query then 1 else 2)), (8, x.fmt == fmtBF16 || fmtIsB8 x.fmt), (16, 1 ≤ x.dim && x.dim ≤ 256),
    (64, decide (x.b0 < 1024)), (80, x.clean), (128, if query then 1 ≤ x.count && x.count ≤ 65535 else x.count == 1),
    (160, if query then x.scale % 2 ^ 31 != 0x7F800000 else x.scale == 0), (192, localField x.p1),
    (256, localField x.p2 || (query && isShared x.p2))]

/-- Bytes of a result record (R362). -/
def recBytes (dim : Nat) : Nat := 16 * ceilDiv (12 + 4 * dim) 16
/-- Bytes of a row of a command. -/
def NbDesc.rowBytes (x : NbDesc) : Nat := x.dim * fmtBytes x.fmt

def frameAddr (id off : Nat) : Nat := 2 ^ 63 + id * 2 ^ 47 + off

/-- Order 3 of R361: tensors, tokens, operands, result block, then the frame pages; what was translated is cached. -/
def nbReach (s : State) (query : Bool) (x : NbDesc) : State × Option Trap :=
  let ctx := s.taskCtx s.ft s.fslot
  let ap (a : Nat) (acc : Acc) : Option Trap := some (trapAperture a kINFUSER acc)
  let accF : Acc := if query then .read else .write
  match descOf s ctx x.kTensor, descOf s ctx x.vTensor with
  | none, _ => (s, ap (frameAddr x.kTensor 0) accF)
  | _, none => (s, ap (frameAddr x.vTensor 0) accF)
  | some dk, some dv =>
    let block := dk.p * recBytes x.dim
    if dk.exts.getD 0 0 < x.t0 + x.count then (s, ap (frameAddr x.kTensor 0) accF)
    else if dv.exts.getD 0 0 < x.t0 + x.count then (s, ap (frameAddr x.vTensor 0) accF)
    else if 2 ^ 21 < x.p1 + x.rowBytes then (s, ap x.p1 .read)
    else if localField x.p2 && decide (2 ^ 21 < x.p2 + (if query then block else x.rowBytes)) then
      (s, ap x.p2 (if query then .write else .read))
    else
      let r : XOut := if query && isShared x.p2 then xlate s ctx (bitsOf x.p2 62 47) (bitsOf x.p2 46 0) block .write kINFUSER 0
        else ⟨.ok [], none, []⟩
      match r.res with
      | .error tr => (s.cache r, some tr)
      | .ok _ =>
        let s1 := s.cache r
        let page (id : Nat) (d : TDesc) (e : Nat) : Option Trap :=
          if !bitOf e 63 then some (trapNotPresent id ctx 0 accF false 0)
          else if pteMalformed d e then some (trapNotPresent id ctx 0 accF true 0) else none
        (s1, match page x.kTensor dk (pteOf s1 ctx dk 0) with
          | some tr => some tr
          | none => page x.vTensor dv (pteOf s1 ctx dv 0))

/-- Model address of a compute-capable tensor's frame. -/
def frameOf (s : State) (ctx : Nat) (d : TDesc) : Nat := frameByte (pteOf s ctx d 0) 0 (pageBytes d.pg)

/-- Orders 4 and 5 of R361: the pair of tensors against the command and each other, then the bank range. -/
def nbMatch (s : State) (x : NbDesc) (dk dv : TDesc) (addr : Nat) : Option Trap :=
  let ctx := s.taskCtx s.ft s.fslot
  let good (d : TDesc) : Bool := d.layout == 3 && d.cc
  match firstFail [(32, good dk), (48, good dv), (8, dk.fmt == x.fmt && dv.fmt == x.fmt),
    (16, dk.exts.getD 1 0 == x.dim && dv.exts.getD 1 0 == x.dim),
    (48, dk.p == dv.p && dk.q == dv.q && stackOf (frameOf s ctx dk) == stackOf (frameOf s ctx dv))] with
  | some bit => some (tCfgDesc bit addr)
  | none => if 1024 < x.b0 + dk.p then some ⟨cBOUNDARY, x.b0, dk.p, false⟩ else none

/-- The queue entry of a checked command, with the bytes it copies as the stack's controller reads them (R366). -/
def nbEntry (s : State) (query : Bool) (x : NbDesc) (dk dv : TDesc) (ev fut : Bool) (handle ticket : Nat) : NbCmd :=
  let ctx := s.taskCtx s.ft s.fslot
  let k := frameOf s ctx dk
  let rd (a : Nat) : List Byte := s.bytesAt (.stack (stackOf k)) (spadBase s.ft + a) x.rowBytes
  { isQuery := query, tile := s.ft, slot := s.fslot, core := s.fc, lidx := s.taskLidx s.ft s.fslot
    launch := s.taskLaunch s.ft s.fslot, ctx := ctx, ticket := ticket, ev := ev, future := if fut then some handle else none
    fmt := x.fmt, dim := x.dim, banks := dk.p, stride := dk.q, b0 := x.b0, t0 := x.t0, count := x.count
    scale := BitVec.ofNat 32 x.scale, kTensor := x.kTensor, vTensor := x.vTensor, kFrame := k, vFrame := frameOf s ctx dv
    vec := rd x.p1, vec2 := if query then [] else rd x.p2
    reserve := match s.task s.ft s.fslot with | some t => if query && localField x.p2 then (t.sbase, t.ssize) else (0, 0) | none => (0, 0)
    result := BitVec.ofNat 64 x.p2 }

/-! ## Bank jobs (R367, R370, R373, R375 to R379) -/

/-- Tokens of a command in its bank `b0 + j`, in slot order. -/
def NbCmd.tokens (c : NbCmd) (j : Nat) : List Nat :=
  let first := c.t0 + (j + c.banks - c.t0 % c.banks) % c.banks
  if c.banks = 0 || c.t0 + c.count ≤ first then []
  else (List.range (ceilDiv (c.t0 + c.count - first) c.banks)).map (fun i => first + i * c.banks)

/-- Offset of a token's slot in its frame (R15, R360). -/
def NbCmd.slotAt (c : NbCmd) (t : Nat) : Nat := 2048 * (c.b0 + t % c.banks) + c.stride * (t / c.banks)
/-- Bytes of a row, and the bytes of its beats (R370). -/
def NbCmd.rowLen (c : NbCmd) : Nat := c.dim * fmtBytes c.fmt
def NbCmd.beatLen (c : NbCmd) : Nat := 32 * ceilDiv c.rowLen 32

/-- The empty partial, with an error count (R362, R375). -/
def NbRes.empty (dim err : Nat) : NbRes := ⟨min err 65535, 0xFF800000, 0, List.replicate dim 0, 0⟩

/-- A command as it enters the queue: jobs of banks that hold no token of it are complete (R367). -/
def NbProg.start (c : NbCmd) : NbProg :=
  ⟨c, if c.isQuery then ((List.range c.banks).filter (fun j => (c.tokens j).isEmpty)).map (fun j => (j, NbRes.empty c.dim 0)) else [],
    [], false, false, none⟩

/-- The bank positions at which a command has jobs. -/
def NbCmd.jobs (c : NbCmd) : List Nat := if c.isQuery then List.range c.banks else [c.t0 % c.banks]
/-- Whether a command's job at a bank is still to do. -/
def NbProg.pendingAt (p : NbProg) (bank : Nat) : Bool :=
  decide (p.cmd.b0 ≤ bank) && p.cmd.jobs.contains (bank - p.cmd.b0) && !p.failed && !(p.done.any (fun r => r.1 == bank - p.cmd.b0))
/-- Whether every job of a command has completed. -/
def NbProg.whole (p : NbProg) : Bool := p.cmd.jobs.all (fun j => p.done.any (fun r => r.1 == j))

/-- Lanes of a row. -/
def rowLanes (f : Nat) (bs : List Byte) : List Nat := (records (fmtBytes f) bs).map leNat

/-- Score of a token (R375): the exact dot product rounded once, then scaled and rounded once. -/
def scoreOf (fmt : Nat) (scale : Word) (q k : List Byte) : Word :=
  let dot := rn32 (productSum (((rowLanes fmt q).zip (rowLanes fmt k)).map (fun p => (decodeLane fmt p.1, decodeLane fmt p.2))))
  if isNan fmtFP32 dot then BitVec.ofNat 32 dot
  else if isNan fmtFP32 scale.toNat then BitVec.ofNat 32 (genNan fmtFP32 2)
  else BitVec.ofNat 32 (rn32 ((decodeLane fmtFP32 dot).mul (decodeLane fmtFP32 scale.toNat)))

/-- FP32 arithmetic rounded to nearest even, as `FMUL.fp32`, `FADD.fp32` and `FMA.fp32` (R148). -/
def mul32 (a b : Nat) : Nat := floatArith 0x42 fmtFP32 0 false a b 0
def add32 (a b : Nat) : Nat := floatArith 0x40 fmtFP32 0 false a b 0
def fma32 (a b c : Nat) : Nat := floatArith 0x43 fmtFP32 0 false a b c

/-- The running state of a value slice: m, s and a. -/
structure Partial where
  m : Nat
  s : Nat
  a : List Nat
deriving DecidableEq, Repr, Inhabited

/-- One token of a value slice (R375). -/
def foldToken (fmt : Nat) (p : Partial) (score : Nat) (v : List Byte) : Partial :=
  let x := decodeLane fmtFP32 score
  let m := decodeLane fmtFP32 p.m
  if m.isNan then p
  else if x.isNan then
    let n := genNan fmtFP32 (nanCause fmtFP32 score)
    ⟨score, n, List.replicate p.a.length n⟩
  else if x == .inf true then p
  else
    let up := m.lt x
    let f := if m == .inf true then 0 else exp2Cr (XVal.add 0 m x.neg)
    let s1 := if up then mul32 p.s f else p.s
    let a1 := if up then p.a.map (fun y => mul32 y f) else p.a
    let m1 := if up then score else p.m
    let top := decodeLane fmtFP32 m1
    let w := if up || !x.lt top then 0x3F800000 else exp2Cr (XVal.add 0 x top.neg)
    ⟨m1, add32 s1 w, (a1.zip (rowLanes fmt v)).map (fun y => fma32 w (rn32 (decodeLane fmt y.2)) y.1)⟩

/-- The bytes of a row as the stack reads them, and whether a beat it reads is uncorrectable (R377). -/
def readRow (s : State) (k : Nat) (c : NbCmd) (frame t : Nat) : List Byte × Bool :=
  (s.bytesAt (.stack k) (frame + c.slotAt t) c.rowLen, s.poisonIn (frame + c.slotAt t) c.beatLen)

/-- The key slice of a query's job: scores by token, and the tokens excluded (R375, R377). -/
def keySlice (s : State) (k : Nat) (c : NbCmd) (j : Nat) : List (Nat × Word) × List Nat :=
  let rows := (c.tokens j).map (fun t => (t, readRow s k c c.kFrame t))
  (rows.map (fun r => (r.1, scoreOf c.fmt c.scale c.vec r.2.1)), (rows.filter (fun r => r.2.2)).map (·.1))

/-- The value slice of a query's job: its record's contents (R375, R377). -/
def valueSlice (s : State) (k : Nat) (c : NbCmd) (scores : List (Nat × Word)) (bad : List Nat) : NbRes :=
  let rows := scores.map (fun x => (x, readRow s k c c.vFrame x.1))
  let good := rows.filter (fun r => !r.2.2 && !bad.contains r.1.1)
  let p := good.foldl (fun p r => foldToken c.fmt p r.1.2.toNat r.2.1) ⟨0xFF800000, 0, List.replicate c.dim 0⟩
  ⟨min (rows.length - good.length) 65535, BitVec.ofNat 32 p.m, BitVec.ofNat 32 p.s, p.a.map (BitVec.ofNat 32), good.length⟩

/-- Whether the task that issued a command is still bound; `live`: and has not ended. -/
def nbAlive (s : State) (c : NbCmd) (live : Bool) : Bool :=
  match s.task c.tile c.slot with
  | some t => t.lidx == c.lidx && t.launch == c.launch && (!live || t.stat != .ended)
  | none => false

/-- The completion tag of a command's writes (R270). -/
def NbCmd.opTag (c : NbCmd) : Nat := match c.future with | some h => 2 ^ 32 + h % 2 ^ 32 | none => c.ticket

/-- Counts tokens excluded in the queries of a stack (R380). -/
def countExcluded (s : State) (k n : Nat) : State :=
  s.modDie (k / 2) (fun d => if k % 2 = 0 then { d with excl0 := d.excl0 + BitVec.ofNat 32 n } else { d with excl1 := d.excl1 + BitVec.ofNat 32 n })

/-- The beats of HBM that the next slice of a command at a bank reads (R370, R377, R378): the key rows of a query's first slice, the value rows of
the tokens that it has not excluded in its second, and the beats that an append writes in part. -/
def sliceBeats (s : State) (k bank : Nat) (p : NbProg) : List Nat :=
  let c := p.cmd
  let row (frame t : Nat) : List Nat := protWords (frame + c.slotAt t) c.beatLen
  let part (frame : Nat) : List Nat :=
    let a := frame + c.slotAt c.t0
    (protWords a c.rowLen).filter (fun w => !(decide (a ≤ w) && decide (w + protWidth w ≤ a + c.rowLen)))
  if mapGet false (s.stack k).down bank then []
  else match p.keyed.find? (fun x => x.1 == bank - c.b0) with
  | none => if c.isQuery then (c.tokens (bank - c.b0)).flatMap (row c.kFrame) else []
  | some (_, scores, bad) =>
    if c.isQuery then ((scores.map (·.1)).filter (fun t => !bad.contains t)).flatMap (row c.vFrame) else part c.kFrame ++ part c.vFrame

/-- A correctable error in a beat that a slice reads is corrected and logged (R377, R433): one that an injection has left there (R434), and one more,
of which it is free whether there is one and in which of the beats (log entry 9). -/
def logCorrected (s : State) (k ctx : Nat) (beats : List Nat) : State :=
  let s1 := (beats.filter (fun w => mapGet false s.flips w)).foldl (fun s w => s.logAt (k / 2) 0x08 k ctx (w % 2 ^ 37) 5) s
  let a := s1.draw
  match beats[a.1 / 2 % (beats.length + 1)]? with
  | some w => if a.1 % 2 = 1 then a.2.logAt (k / 2) 0x08 k ctx (w % 2 ^ 37) 1 else a.2
  | none => a.2

/-- Writes one row of an append (R378), with its digest terms and dirty units (R440, R443). -/
def writeAppend (s : State) (k : Nat) (c : NbCmd) (frame tensor : Nat) (bs : List Byte) : State × Bool :=
  let a := frame + c.slotAt c.t0
  let hurt := s.poisonIn a c.beatLen
  let s1 := s.addWrite ⟨a, bs, .stack k, kINFUSER, some (c.tile, c.slot), c.opTag, false, [], [], 0, some c.launch, []⟩ false
  let s2 := if nbAlive s c false then s1.addDigest c.tile c.slot (digestStore (s.seed c.launch) tensor (c.slotAt c.t0) bs) else s1
  (s2.touchUnits c.launch c.ctx tensor (c.slotAt c.t0) bs.length, hurt && s2.poisonIn a c.beatLen)

/-- A class-2 record of a command, discarded when its task has ended (R363, R374). -/
def nbRecord (s : State) (c : NbCmd) (payload : Nat) : State :=
  if nbAlive s c true then s.event c.tile ⟨2, c.slot, c.core, BitVec.ofNat 32 c.ticket, BitVec.ofNat 64 payload⟩ else s

/-- An append ends: its record, and it leaves the queue (R368, R374). -/
def endAppend (s : State) (k i : Nat) (p : NbProg) (always : Bool) : State :=
  let s1 := s.modStack k (fun x => { x with queue := x.queue.eraseIdx i })
  if p.cmd.ev || always then nbRecord s1 p.cmd (2 ^ 16 * bit01 p.poisoned + 2 ^ 17 * bit01 p.failed) else s1

def setProg (s : State) (k i : Nat) (p : NbProg) : State := s.modStack k (fun x => { x with queue := x.queue.set i p })

/-- One slice of the i-th command at a bank (R370): key, then value. An append's rows become part of memory with its second slice: one that
ends before it has written no row (R379; log entry 137). -/
def slice (s : State) (k i bank : Nat) (p : NbProg) : State :=
  let c := p.cmd
  let j := bank - c.b0
  if mapGet false (s.stack k).down bank then
    if c.isQuery then setProg s k i { p with done := p.done ++ [(j, NbRes.empty c.dim (c.tokens j).length)] }
    else endAppend s k i { p with failed := true } false
  else match p.keyed.find? (fun x => x.1 == j) with
  | none =>
    if c.isQuery then
      let r := keySlice s k c j
      setProg s k i { p with keyed := p.keyed ++ [(j, r.1, r.2)] }
    else
      setProg s k i { p with keyed := [(j, [], [])] }
  | some (_, scores, bad) =>
    if c.isQuery then
      let r := valueSlice s k c scores bad
      setProg (countExcluded s k ((c.tokens j).length - r.scored)) k i { p with done := p.done ++ [(j, r)] }
    else
      let x := writeAppend s k c c.kFrame c.kTensor c.vec
      let y := writeAppend x.1 k c c.vFrame c.vTensor c.vec2
      endAppend y.1 k i { p with poisoned := x.2 || y.2 } false

def Stack.bank (x : Stack) (b : Nat) : BankSt := mapGet BankSt.idle x.banks b
def setBank (s : State) (k b : Nat) (x : BankSt) : State := s.modStack k (fun y => { y with banks := mapSet BankSt.idle y.banks b x })

/-- `DIE_NBQ_CTL` of a stack's controller (R380). -/
def nbqCtl (s : State) (k : Nat) : Nat := if k % 2 = 0 then (s.die (k / 2)).nbqCtl0.toNat else (s.die (k / 2)).nbqCtl1.toNat

/-- BANK_SLICE (R370, R371): the next slice of a bank's oldest pending job. It waits for a refresh that is due and for the
ordinary accesses that waited, up to ORD. Whether a refresh falls due and how many accesses arrive meanwhile is free. -/
def execBankSlice (k b : Nat) (s : State) : Host.Outcome State Fault Refusal :=
  let st := s.stack k
  let y := st.bank b
  .next <| match st.queue.findIdx? (fun p => p.pendingAt b) with
  | none => s
  | some i =>
    match st.queue[i]? with
    | none => s
    | some p =>
      if y.refreshDue || (y.ordinary != 0 && decide (y.served < bitsOf (nbqCtl s k) 7 0)) then s
      else
        let d := (slice (logCorrected s k p.cmd.ctx (sliceBeats s k b p)) k i b p).draw
        let e := d.2.draw
        setBank e.2 k b ⟨d.1 % 2 == 1, e.1, 0⟩

/-- BANK_REFRESH (R371, R372). -/
def execBankRefresh (k b : Nat) (s : State) : Host.Outcome State Fault Refusal :=
  .next (setBank s k b { (s.stack k).bank b with refreshDue := false })

/-- ORDINARY_BANK_ACCESS (R371): after a refresh that is due; while a slice is ready, only those that waited when the last slice ended, up to
ORD. -/
def execOrdinaryBankAccess (k b : Nat) (s : State) : Host.Outcome State Fault Refusal :=
  let y := (s.stack k).bank b
  let sliceReady := (s.stack k).queue.any (fun p => p.pendingAt b)
  .next (
    if y.refreshDue || (sliceReady && (y.ordinary == 0 || decide (bitsOf (nbqCtl s k) 7 0 ≤ y.served))) then s
    else setBank s k b ⟨false, y.ordinary - 1, y.served + 1⟩)

/-! ## Results (R362 to R364) -/

/-- A result record. -/
def resBytes (dim : Nat) (r : NbRes) : List Byte :=
  let body := leBytes 4 r.err ++ leBytes 4 r.m.toNat ++ leBytes 4 r.s.toNat ++ (r.acc.map (fun w => leBytes 4 w.toNat)).flatten
  body ++ List.replicate (recBytes dim - body.length) 0

/-- The result of a bank position. -/
def NbProg.res (p : NbProg) (j : Nat) : NbRes := ((p.done.find? (fun r => r.1 == j)).map (·.2)).getD (NbRes.empty p.cmd.dim 0)

/-- PAYLOAD of a query (R363). -/
def NbProg.payload (p : NbProg) : Nat :=
  let rs := p.cmd.jobs.map p.res
  p.cmd.banks + 2 ^ 16 * (rs.filter (fun r => r.err != 0)).length + 2 ^ 32 * (rs.map (·.scored)).foldl (· + ·) 0

/-- The record of a query, or its future, after its block (R363): a future that is not PENDING or is stale is a fault of
the launch. -/
def queryDone (s : State) (p : NbProg) : State :=
  let c := p.cmd
  match c.future with
  | none => if c.ev then nbRecord s c p.payload else s
  | some w =>
    let h := handleOf w
    let bad (cause w3 : Nat) : State :=
      deliverFault s c.tile c.launch (mkRec s c.tile c.slot 3 (w1Unit kINFUSER) ⟨cause, w % 2 ^ 32, w3, false⟩ true)
    if 384 ≤ h.cl || !h.live s then bad cSTALE (s.fut h.key).gen
    else if s.badFut h.key then
      deliverFault s c.tile c.launch (mkRec s c.tile c.slot 3 (w1Unit kINFUSER) ⟨cPOISON, h.key % 65536, 0x06, false⟩ true)
    else if (s.fut h.key).stat != .pending then bad cRESOURCE 0
    else resolveFuture s (c.tile, c.slot) h (BitVec.ofNat 64 p.payload) false

/-- QUERY_RESULT (R363, R364): the block of the i-th command of a stack is written once every job has ended; the record or
the future follows. A block that a record or a future announces is performed for every observer before it (R364);
a core's loads return it once they come after a `pf.fence` of its task, or once its task has seen the future READY (R270, R364). -/
def execQueryResult (k i : Nat) (s : State) : Host.Outcome State Fault Refusal :=
  .next <| match (s.stack k).queue[i]? with
  | none => s
  | some p =>
    let c := p.cmd
    if !c.isQuery || !p.whole || p.held.isSome then s
    else
      let bs := ((List.range c.banks).map (fun j => resBytes c.dim (p.res j))).flatten
      let a := c.result.toNat
      let w : Who := ⟨c.tile, c.slot, .stack k, kINFUSER, c.opTag, false, some c.launch⟩
      let x := resolve s c.tile c.ctx a bs.length .write kINFUSER 0
      let s1 := s.cache x
      match x.res with
      | .error tr =>
        let r := mkRec s c.tile c.slot 3 (w1Unit kINFUSER) tr true
        if tr.cause = cNOTPRESENT then
          deliverFault (setProg s1 k i { p with held := some tr.hold }) c.tile c.launch r
        else deliverFault (s1.modStack k (fun y => { y with queue := y.queue.eraseIdx i })) c.tile c.launch r
      | .ok ps =>
        let s2 := s1.writeParts w (if c.future.isSome || c.ev then [.scope c.tile 3] else []) false ps bs
        let s3 := if isShared a && nbAlive s c false then
            s2.addDigest c.tile c.slot (digestStore (s.seed c.launch) (bitsOf a 62 47) (bitsOf a 46 0) bs) else s2
        let s4 := if isShared a then s3.touchUnits c.launch c.ctx (bitsOf a 62 47) (bitsOf a 46 0) bs.length else s3
        queryDone (s4.modStack k (fun y => { y with queue := y.queue.eraseIdx i })) p

/-! ## Faults of the infusers (R379) -/

/-- INFUSER_PARITY_FAULT (R379): the job in progress at a bank ends as the empty partial with every token in error; the
infuser is out of service until its stack is reset. -/
def execInfuserParityFault (k b : Nat) (s : State) : Host.Outcome State Fault Refusal :=
  let s1 := (s.modStack k (fun x => { x with down := mapSet false x.down b true })).logError (k / 2) ⟨b, 0, 0xFFFF, 0x08, 2, k⟩
  .next <| match (s.stack k).queue.findIdx? (fun p => p.pendingAt b) with
  | none => s1
  | some i => match (s.stack k).queue[i]? with
    | none => s1
    | some p => slice s1 k i b p

/-- An append that a reset finds unfinished: its record, and a `POISON` fault of its launch (R379). -/
def failAppend (s : State) (p : NbProg) : State :=
  let c := p.cmd
  let s1 := nbRecord s c (2 ^ 17)
  deliverFault s1 c.tile c.launch
    (mkRec s1 c.tile c.slot 3 (w1Unit kINFUSER) ⟨cPOISON, c.kFrame + c.slotAt c.t0, 0x08, false⟩ true)

/-- The reset of a stack controller (R379): queries end with unfinished banks as the empty partial and ERR 0xFFFF; appends
fail; every infuser is in service again. -/
def resetController (s : State) (k : Nat) : State :=
  let q := (s.stack k).queue
  let s1 := s.modStack k (fun x =>
    { x with
      down := []
      queue := (q.filter (fun p => p.cmd.isQuery)).map (fun p =>
        { p with done := p.cmd.jobs.map (fun j => (j, match p.done.find? (fun r => r.1 == j) with
            | some r => r.2
            | none => NbRes.empty p.cmd.dim 65535)), keyed := [] }) })
  (q.filter (fun p => !p.cmd.isQuery)).foldl failAppend s1

/-- STACK_CONTROLLER_RESET (R379). -/
def execStackControllerReset (k : Nat) (s : State) : Host.Outcome State Fault Refusal := .next (resetController s k)

/-! ## The forms (R280, R281, R361, R368) -/

/-- The observer as which a posted command is read: the stack that its frames lie in, as its block stands at its home (R366, R381; log entry
138). -/
def nbReader (s : State) (query : Bool) (off : Nat) : Obs :=
  let x := parseNb (s.homeBytes (spadBase s.ft + off) 64)
  match nbReach s query x, descOf s (s.taskCtx s.ft s.fslot) x.kTensor with
  | (_, none), some dk => .stack (stackOf (frameOf s (s.taskCtx s.ft s.fslot) dk))
  | _, _ => .stack (s.ft / 512 * 2)

/-- What `nb.query` and `nb.append` share. -/
def nbPost (s : State) (d a b : Reg) (query : Bool) : Act :=
  let at' := s.rn a
  let y := s.rn b
  if bitsOf y 61 32 ≠ 0 ∨ (!query ∧ bitsOf y 62 0 ≠ 0) then .illegal s
  else if at' % 64 ≠ 0 then .align s at' 64
  else match spadOperand at' with
  | none => .trap (trapAperture at' kINFUSER .read) s
  | some off =>
    let x := parseNb (s.bytesAt (nbReader s query off) (spadBase s.ft + off) 64)
    match nbFail query x with
    | some bit => .trap (tCfgDesc bit at') s
    | none =>
      match nbReach s query x with
      | (s1, some tr) => if tr.cause = cNOTPRESENT then .hold tr s1 else .trap tr s1
      | (s1, none) =>
        match descOf s1 (s1.taskCtx s.ft s.fslot) x.kTensor, descOf s1 (s1.taskCtx s.ft s.fslot) x.vTensor with
        | some dk, some dv =>
          match nbMatch s1 x dk dv at' with
          | some tr => .trap tr s1
          | none =>
            let poisoned (o n : Nat) : Bool := s1.poisonIn (spadBase s.ft + o) n
            let pa := if poisoned off 64 then some off else if poisoned x.p1 x.rowBytes then some x.p1
              else if !query && poisoned x.p2 x.rowBytes then some x.p2 else none
            match pa with
            | some p => .trap ⟨cPOISON, p, 0x01, false⟩ s1
            | none =>
              let k := stackOf (frameOf s1 (s1.taskCtx s.ft s.fslot) dk)
              if !bitOf (nbqCtl s1 k) 8 || decide (512 ≤ (s1.stack k).queue.length) then .wait s1
              else
                let tk := takeTicket s1
                let e := nbEntry s1 query x dk dv (bitOf y 63) (bitOf y 62) (bitsOf y 31 0) tk.1
                .retN (tk.2.modStack k (fun z => { z with queue := z.queue ++ [NbProg.start e] })) d tk.1
        | _, _ => .illegal s1

/-- NB_QUERY (R280). -/
def execNbQuery (d a b : Reg) (s : State) : Host.Outcome State Fault Refusal := perform (nbPost s d a b true)
/-- NB_APPEND (R280). -/
def execNbAppend (d a b : Reg) (s : State) : Host.Outcome State Fault Refusal := perform (nbPost s d a b false)

/-- Whether a stack's queue holds an append of the focused source (R281). -/
def appendsOut (s : State) (k : Nat) : Bool :=
  (s.stack k).queue.any (fun p => !p.cmd.isQuery && p.cmd.tile == s.ft && p.cmd.slot == s.fslot && p.cmd.core == s.fc &&
    p.cmd.lidx == s.taskLidx s.ft s.fslot && p.cmd.launch == s.taskLaunch s.ft s.fslot)

/-- NB_FENCE (R281). -/
def execNbFence (a : Reg) (s : State) : Host.Outcome State Fault Refusal :=
  let x := s.rn a
  let k := bitsOf x 5 0
  perform <|
    if bitsOf x 62 6 ≠ 0 then .illegal s
    else if bitOf x 63 then (if (List.range 48).any (appendsOut s) then .wait s else .done s)
    else if 48 ≤ k then .trap (trapAperture x kSCALAR .read) s
    else if appendsOut s k then .wait s else .done s

end Sys2Proof.Machine
end

