-- ==== Sys2Proof/Machine/Ports.lean ====
section
/-! DEFINITION. Machine/Ports.lean: stream ports (R213 to R219, R58 to R61): their forms, the fetching of inbound tokens and the
writing of outbound ones. -/

namespace Sys2Proof.Machine

/-! ## The walk (R214) -/

/-- Indices of step `n` of a walk, innermost first. -/
def walkIdx : List Nat → Nat → List Nat
  | [], _ => []
  | c :: cs, n => (if c = 0 then 0 else n % c) :: walkIdx cs (if c = 0 then 0 else n / c)

/-- Element offset of a step: base plus the strides. -/
def PortCfg.elem (c : PortCfg) (n : Nat) : Int :=
  (List.zipWith (fun (i : Nat) (s : Int) => (i : Int) * s) (walkIdx c.counts n) c.strides).foldl (· + ·) c.base

/-- End-of-dimension flags of a step: flag d is set when indices 0 to d stand at their last value. -/
def PortCfg.flagsAt (c : PortCfg) (n : Nat) : Nat :=
  let last := List.zipWith (fun i k => i + 1 == k) (walkIdx c.counts n) c.counts
  ((List.range last.length).map (fun d => if (last.take (d + 1)).all (fun b => b) then 2 ^ d else 0)).foldl (· + ·) 0

/-- Whether a port walks outward. -/
def portOut (p : Nat) : Bool := 8 ≤ p

/-- Which access of its walk a port stands at. -/
def Port.at' (x : Port) (out : Bool) : Nat := if out then x.written else x.nextStep

/-- Engine path of a port: class STREAM (R217). -/
def portWho (t slot p : Nat) : Who := ⟨t, slot, .tile t (6 + p), kSTREAM, p, false, none⟩

/-- Where a step of a tensor-mode walk stands: its offset in the tensor, or the trap of that token (R214). -/
def stepOffset (s : State) (ctx : Nat) (c : PortCfg) (n : Nat) (acc : Acc) : Except Trap Nat :=
  match descOf s ctx c.tensor with
  | none => .error (trapAperture (2 ^ 63 + c.tensor * 2 ^ 47) kSTREAM acc)
  | some d =>
    let o : Int := d.z * c.elem n
    let a := 2 ^ 63 + c.tensor * 2 ^ 47 + (o % 2 ^ 47).toNat
    if o % 4 ≠ 0 then .error (tAlign a 4)
    else if o < 0 ∨ (d.span : Int) < o + 4 then .error (trapAperture a kSTREAM acc)
    else .ok o.toNat

/-- The port's format code: its tensor's; the manual gives none in window mode (log entry 40). -/
def portFmt (s : State) (ctx : Nat) (c : PortCfg) : Nat :=
  if c.wm then Config.windowFmt c.win % 64
  else match descOf s ctx c.tensor with
    | some d => d.fmt
    | none => 0

/-- Words of one token of a window. -/
def Window.words (x : Window) : Nat := x.tok / 4

/-! ## Stopping and events -/

/-- A port stops at a fault of its own access: the die manager takes it, and the port issues no more (R199, R60). -/
def portFault (s : State) (t p : Nat) (tr : Trap) : State :=
  let slot := s.slot t
  let port := (s.tile t).port p
  let held : Held := { tr.hold with swapped := port.out == some (port.at' (portOut p)) }
  let s1 := s.modTile t (fun v => v.setPort p
    (if tr.cause = cNOTPRESENT then { port with held := some held } else { port with stat := .halted }))
  raiseTrap s1 t slot 3 (w1Unit kSTREAM) tr

/-- A port becomes DONE: its class-6 record, where one was asked for (R217, R247). -/
def portDone (s : State) (t p : Nat) : State :=
  let port := (s.tile t).port p
  let s1 := s.modTile t (fun v => v.setPort p { port with stat := .done, ev := false })
  if port.ev then s1.event t ⟨6, s.slot t, 3, BitVec.ofNat 32 p, port.moved.setWidth 64⟩ else s1

/-- A `RATE` or `PERMISSION` of a window-mode port: the port stops (R215, R313). -/
def portRate (s : State) (t p : Nat) (tr : Trap) : State :=
  let s1 := s.modTile t (fun v => v.setPort p { v.port p with stat := .halted })
  raiseTrap s1 t (s.slot t) 3 (w1Unit 15) tr

/-! ## Inbound fetches (R214, R215, R217) -/

/-- Fetches the next token of a tensor-mode walk. -/
def fetchTensor (s : State) (t p : Nat) (port : Port) : State :=
  let w := portWho t (s.slot t) p
  let ctx := s.taskCtx t (s.slot t)
  match stepOffset s ctx port.cfg port.nextStep .read with
  | .error tr => portFault s t p tr
  | .ok off =>
    let x := xlate s ctx port.cfg.tensor off 4 .read kSTREAM p
    let s1 := s.cache x
    match x.res with
    | .error tr => portFault s1 t p tr
    | .ok ps =>
      let v : TVal := ⟨BitVec.ofNat 32 (leNat (s1.readParts w.obs ps)),
        BitVec.ofNat 8 (portFmt s ctx port.cfg + 128 * bit01 port.cfg.sc)⟩
      s1.modTile t (fun vt => vt.setPort p
        { port with queue := port.queue ++ [⟨v, port.cfg.flagsAt port.nextStep, (s1.poisonedPart ps).isSome, off⟩],
                    nextStep := port.nextStep + 1 })

/-- The tag of a word that an inbound window-mode port delivers: the token's own where a source memory actor has put it there (R13), else
the port's format, which is free, with the port's scaled flag (R101; log entry 40). -/
def windowTag (s : State) (ctx : Nat) (c : PortCfg) (x : Window) (slot : Nat) : Nat :=
  match mapGet 0 x.tags (slot % x.cap) with
  | 0 => portFmt s ctx c + 128 * bit01 c.sc
  | n + 1 => n

/-- Tokens of a window that ports have taken behind its pops in flight, and with the tokens of those pops. -/
def Tile.takenBehind (v : Tile) (w : Nat) : Nat := ((v.copies.filter (fun c => c.kind == .pop w)).map (·.after)).foldl (· + ·) 0
def Tile.takenByPops (v : Tile) (w : Nat) : Nat := ((v.copies.filter (fun c => c.kind == .pop w)).map (fun c => c.rows + c.after)).foldl (· + ·) 0

/-- Fetches the next word of a window: words are counted from the oldest token not yet consumed. -/
def fetchWindow (s : State) (t p : Nat) (port : Port) (x : Window) : State :=
  let n := x.inWord + port.queue.length + (s.tile t).takenBehind port.cfg.win * x.words
  if x.words = 0 ∨ x.occ ≤ n / x.words then s
  else
    let off := x.slotOff (x.rd + n / x.words) + 4 * (n % x.words)
    let a := spadBase t + off
    let v : TVal := ⟨BitVec.ofNat 32 (leNat (s.bytesAt (.tile t (6 + p)) a 4)),
      BitVec.ofNat 8 (windowTag s (s.taskCtx t (s.slot t)) port.cfg x (x.rd + n / x.words))⟩
    (acquire s t (s.slot t) (winKey t port.cfg.win) (below := x.consumed + n / x.words + 1)).modTile t (fun vt => vt.setPort p
      { port with queue := port.queue ++ [⟨v, bit01 (n % x.words + 1 == x.words), s.poisonIn a 4, off⟩] })

/-- PORT_TOKEN_FETCH (R217): an inbound STREAMING port with room in its queue fetches ahead. -/
def execPortTokenFetch (t p : Nat) (s : State) : Host.Outcome State Fault Refusal :=
  let port := (s.tile t).port p
  .next <|
    if portOut p || port.stat != .streaming || 16 ≤ port.queue.length || port.held.isSome then s
    else if port.cfg.wm then
      (match s.win t port.cfg.win with
        | some x => fetchWindow s t p port x
        | none => s)
    else if port.nextStep < port.cfg.total then fetchTensor s t p port
    else s

/-- Pushes into a window of tile `u` that are in flight from this tile. -/
def Tile.pushing (v : Tile) (u w : Nat) : Bool := v.copies.any (fun c => match c.kind with | .push w' _ u' => w' == w && u' == u | _ => false)

/-- Consumes one token of a window for a port: at once, or behind a pop whose reads are not done (R328). -/
def takeOne (s : State) (t w : Nat) : State :=
  match (s.tile t).copies.findIdx? (fun c => c.kind == .pop w) with
  | some i => s.modTile t (fun v => { v with copies := v.copies.modify i (fun c => { c with after := c.after + 1 }) })
  | none => consume s t w 1

/-- An inbound port's oldest token is delivered to the row that read it (R124, R215, R305, R393). -/
def deliverToken (s : State) (t p : Nat) : State :=
  let port := (s.tile t).port p
  match port.queue with
  | [] => s
  | k :: rest =>
    let s1 := s.modTile t (fun v => v.setPort p { port with queue := rest, moved := port.moved + 1 })
    if port.cfg.wm then
      match s.win t port.cfg.win with
      | none => s1
      | some x =>
        if bitOf k.flags 0 then
          match monitorCheck s t (s.slot t) port.cfg.win 0 x false (x.cCount + (s.tile t).takenByPops port.cfg.win) 1 kSTREAM with
          | some tr => portRate (s1.modWin t port.cfg.win (fun x => { x with inWord := 0 })) t p tr
          | none => takeOne (s1.modWin t port.cfg.win (fun x => { x with inWord := 0 })) t port.cfg.win
        else s1.modWin t port.cfg.win (fun x => { x with inWord := x.inWord + 1 })
    else if rest.isEmpty && port.nextStep == port.cfg.total then portDone s1 t p
    else s1

/-! ## Outbound writes (R216, R218) -/

/-- Writes the oldest queued token of a tensor-mode walk. -/
def writeTensor (s : State) (t p : Nat) (port : Port) (k : PortTok) (rest : List PortTok) : State :=
  let w := portWho t (s.slot t) p
  let ctx := s.taskCtx t (s.slot t)
  match stepOffset s ctx port.cfg k.step .write with
  | .error tr => portFault s t p tr
  | .ok off =>
    let x := xlate s ctx port.cfg.tensor off 4 .write kSTREAM p
    let s1 := s.cache x
    match x.res with
    | .error tr => portFault s1 t p tr
    | .ok ps =>
      let s2 := (s1.store w (2 ^ 63 + port.cfg.tensor * 2 ^ 47 + off) ps (leBytes 4 k.val.bits.toNat)).modTile t (fun v =>
        v.setPort p { port with queue := rest, written := port.written + 1 })
      if port.written + 1 = port.cfg.total then portDone s2 t p else s2

/-- Fills the next word of a window's free slot; a full slot advances the write index, once the pushes issued before it have (R215, R328). -/
def writeWindow (s : State) (t p : Nat) (port : Port) (x : Window) (k : PortTok) (rest : List PortTok) : State :=
  let w := portWho t (s.slot t) p
  let c := s.prod t t port.cfg.win
  if freeCount x c = 0 ∨ x.words = 0 then s
  else
    let full := x.outWord + 1 = x.words
    if full ∧ (s.tile t).pushing t port.cfg.win then s
    else match (if full then monitorCheck s t (s.slot t) port.cfg.win 0 x true c.pCount 1 kSTREAM else none) with
    | some tr => portRate s t p tr
    | none =>
      let a := x.slotOff c.wr + 4 * x.outWord
      let s1 := (s.store w a [⟨spadBase t + a, 4⟩] (leBytes 4 k.val.bits.toNat) false [.all]).modTile t (fun v =>
        v.setPort p { port with queue := rest, written := port.written + 1 })
      if full then
        let s2 := release (s1.modWin t port.cfg.win (fun x => { x with outWord := 0 })) t (s.slot t) (winKey t port.cfg.win) c.total
        drainProxy (advance (takeSlots s2 t t port.cfg.win 1) t t port.cfg.win 1 none).1 t port.cfg.win
      else s1.modWin t port.cfg.win (fun x => { x with outWord := x.outWord + 1 })

/-- Performs the write of an outbound port's oldest token; the token stays where its write is held or must wait. -/
def writeToken (s : State) (t p : Nat) : State :=
  let port := (s.tile t).port p
  match port.queue with
  | [] => s
  | k :: rest =>
    if port.cfg.wm then
      match s.win t port.cfg.win with
      | some x => writeWindow s t p port x k rest
      | none => s
    else writeTensor s t p port k rest

/-- PORT_TOKEN_WRITE (R216): an outbound STREAMING port performs the write of its oldest token. -/
def execPortTokenWrite (t p : Nat) (s : State) : Host.Outcome State Fault Refusal :=
  let port := (s.tile t).port p
  .next <| if !portOut p || port.stat != .streaming || port.held.isSome then s else writeToken s t p

/-- A route lands on an outbound port's reserved entry (R295, R304); a port that no longer streams discards it. -/
def landToken (v : Tile) (p : Nat) (x : TVal) : Tile :=
  let port := v.port p
  if port.stat = .streaming then
    v.setPort p { port with queue := port.queue ++ [⟨x, 0, false, port.nextStep⟩], nextStep := port.nextStep + 1
                            reserved := port.reserved - 1, moved := port.moved + 1 }
  else v.setPort p { port with reserved := port.reserved - 1 }

/-! ## The forms -/

/-- Lowest bit of the first field of a tensor-mode descriptor that `io.cfg` rejects without the tensor (R213). -/
def portDescFail (bs : List Byte) (port exd : Nat) : Option Nat :=
  let b := parseBind bs
  firstFail ([(0, b.port == port), (16, b.dir == bit01 (portOut port)), (24, 1 ≤ b.dims && b.dims ≤ 4), (5, decide (exd < b.dims)),
    (17, b.pageCode != 3)] ++ (List.range 4).map (fun i => (64 + 16 * i, b.dims ≤ i || b.counts.getD i 0 != 0)))

/-- IO_CFG (R213). -/
def execIoCfg (a b : Reg) (s : State) : Host.Outcome State Fault Refusal :=
  let x := s.rn b
  let p := bitsOf x 3 0
  let exd := bitsOf x 6 5
  let sc := bitOf x 4
  let done (c : PortCfg) : Act := .done (s.modTile s.ft (fun v => v.setPort p { Port.ready c with reserved := (v.port p).reserved }))
  perform <|
    if bitsOf x 63 16 ≠ 0 ∨ bitsOf x 8 7 ≠ 0 then .illegal s
    else if ((s.tile s.ft).port p).stat = .streaming then .resource s
    else if bitOf x 9 then
      if s.rn a ≠ 0 then .illegal s
      else match s.win s.ft (windowKey (s.taskLaunch s.ft s.fslot) (bitsOf x 15 10)) with
      | none => .trap (tCfgDesc 10 0) s
      | some w =>
        if w.tok % 4 ≠ 0 then .trap (tCfgDesc 10 0) s
        else if exd ≠ 0 then .trap (tCfgDesc 5 0) s
        else done { PortCfg.empty with wm := true, win := windowKey (s.taskLaunch s.ft s.fslot) (bitsOf x 15 10), sc := sc }
    else match readSpad s (s.rn a) 48 8 with
    | .error tr => .trap tr s
    | .ok bs =>
      match portDescFail bs p exd with
      | some bit => .trap (tCfgDesc bit (s.rn a)) s
      | none =>
        let e := parseBind bs
        match descOf s (s.taskCtx s.ft s.fslot) e.tensor with
        | none => .trap (trapAperture (2 ^ 63 + e.tensor * 2 ^ 47) kSTREAM (if portOut p then .write else .read)) s
        | some d => if d.pg ≠ e.pageCode then .trap (tCfgDesc 17 (s.rn a)) s else done (e.cfg exd sc)

/-- IO_ARM (R217): the walk starts again from its first token; a STREAMING port is left alone. -/
def execIoArm (a : Reg) (s : State) : Host.Outcome State Fault Refusal :=
  let x := s.rn a
  let p := bitsOf x 3 0
  let port := (s.tile s.ft).port p
  perform <|
    if bitsOf x 63 9 ≠ 0 ∨ bitsOf x 7 4 ≠ 0 then .illegal s
    else match port.stat with
    | .idle => .resource s
    | .streaming => .done s
    | _ =>
      let s1 := s.modTile s.ft (fun v => v.setPort p
        { Port.reset with stat := .streaming, cfg := port.cfg, ev := bitOf x 8, reserved := port.reserved })
      .done (if port.cfg.wm then s1.modWin s.ft port.cfg.win (fun w => if portOut p then { w with outWord := 0 } else { w with inWord := 0 })
        else s1)

/-- The writes that `io.halt` performs: those of the queued tokens, until one is held or cannot be made (R218). -/
def flushPort (t p : Nat) : Nat → State → State
  | 0, s => s
  | n + 1, s =>
    let port := (s.tile t).port p
    if port.queue.isEmpty || port.held.isSome || port.stat != .streaming then s
    else
      let s1 := writeToken s t p
      if ((s1.tile t).port p).queue.length < port.queue.length then flushPort t p n s1 else s1

/-- Whether the oldest token of an outbound port must wait for a free slot of its window, or for a push (R215, R328). -/
def portWaits (s : State) (t p : Nat) : Bool :=
  let port := (s.tile t).port p
  portOut p && port.stat == .streaming && port.held.isNone && !port.queue.isEmpty && port.cfg.wm &&
    (match s.win t port.cfg.win with
      | some x => x.words != 0 && (freeCount x (s.prod t t port.cfg.win) == 0 || (x.outWord + 1 == x.words && (s.tile t).pushing t port.cfg.win))
      | none => false)

/-- IO_HALT (R218): where a write that it performs waits for a free slot of the window, the form waits too (R212). -/
def execIoHalt (a : Reg) (s : State) : Host.Outcome State Fault Refusal :=
  let p := s.rn a
  perform <|
    if 16 ≤ p then .illegal s
    else if ((s.tile s.ft).port p).stat = .idle then .done s
    else
      let s1 := if portOut p then flushPort s.ft p 16 s else s
      if portWaits s1 s.ft p then .wait s1
      else
      let port := (s1.tile s.ft).port p
      let lost := if portOut p then port.queue.length else 0
      let s2 := s1.modTile s.ft (fun v => v.setPort p
        { port with stat := .halted, queue := [], held := none, moved := port.moved - BitVec.ofNat 32 lost })
      .done (s2.markSeen (s.ft, s.fslot) kSTREAM (fun o => o == p))

/-- State codes (R216). -/
def PortStat.code : PortStat → Nat
  | .idle => 0 | .ready => 1 | .streaming => 2 | .done => 3 | .halted => 4

/-- IO_STAT (R219): seeing DONE or HALTED is seeing the port's writes complete (R270). -/
def execIoStat (d a : Reg) (s : State) : Host.Outcome State Fault Refusal :=
  let p := s.rn a
  perform <|
    if 16 ≤ p then .illegal s
    else
      let port := (s.tile s.ft).port p
      let s1 := if port.stat = .done ∨ port.stat = .halted then s.markSeen (s.ft, s.fslot) kSTREAM (fun o => o == p) else s
      .retN s1 d (port.moved.toNat * 2 ^ 16 + port.queue.length * 2 ^ 8 + bit01 port.held.isSome * 8 + port.stat.code)

end Sys2Proof.Machine
end

