-- ==== Sys2Proof/Machine/Row.lean ====
section
/-! DEFINITION. Machine/Row.lean: one row of a region: what its element words read, compute and drive (R123, R124, R295 to
R305), and the work of a region's boundaries (R292 to R300). -/

namespace Sys2Proof.Machine

/-! ## Reading sources (R73, R74, R301 to R303) -/

/-- What the words of a row share: the tile as it stands at the row's start, the image header, the row, its context. -/
structure RowEnv where
  v : Tile
  h : RegionHdr
  row : Nat
  ctx : Nat
  x : LoopCtx
  steep : SteepKeys
  /-- format codes of the outbound ports, by port -/
  fmts : List (Nat × Nat)
  /-- selector codes of the ports and control tokens whose token a row of another region has consumed in this cycle (R305) -/
  taken : List Nat

/-- A pass of the context whose SV is not all ones (R297). -/
def RowEnv.bubble (e : RowEnv) : Bool := e.x.sv != 0xFFFF
/-- The present pass admitted an iteration: reads of ports and tokens are real (R297). -/
def RowEnv.real (e : RowEnv) : Bool := e.x.sv.getLsbD 0

/-- Index of the highest live bank. -/
def topBank (live : Nat) : Nat := if bitOf live 3 then 3 else if bitOf live 2 then 2 else if bitOf live 1 then 1 else 0

/-- The physical entry that a logical entry reaches (R301). -/
def RowEnv.phys (e : RowEnv) (el k : Nat) : Nat :=
  let q := 4 * (topBank (mapGet 0 e.v.fabric.live el) + 1)
  (k + q - e.x.iter.toNat % q) % q

/-- Whether a physical entry lies in a live bank. -/
def RowEnv.liveAt (e : RowEnv) (el p : Nat) : Bool := bitOf (mapGet 0 e.v.fabric.live el) (p / 4)

/-- Neighbour of an element: 0 north, 1 east, 2 south, 3 west. -/
def neighbour (el dir : Nat) : Nat := if dir = 0 then el - 16 else if dir = 1 then el + 1 else if dir = 2 then el + 16 else el - 1

/-- The value of a control token, EMPTY where the read is not real. -/
def RowEnv.token (e : RowEnv) (k : Nat) : TVal := if e.real then (mapGet none e.v.fabric.ct k).getD TVal.empty else TVal.empty
/-- The oldest token of an inbound port, where the read is real. -/
def RowEnv.portTok (e : RowEnv) (p : Nat) : Option PortTok := if e.real then (e.v.port p).queue.head? else none

/-- The value that a selector code yields at an element (R73, R74). -/
def RowEnv.read (e : RowEnv) (el : Nat) (w : ElemWord) (code : Nat) : TVal :=
  let f := e.v.fabric
  let fmt := ewFMT w
  let gen (b : Nat) : TVal := ⟨BitVec.ofNat 32 b, BitVec.ofNat 8 fmt⟩
  if code < 16 then mapGet TVal.empty f.rot (el * 16 + e.phys el code)
  else if code < 20 then mapGet TVal.empty f.res (neighbour el (code - 16))
  else if code < 24 then mapGet TVal.empty f.chan (el * 4 + (code - 20))
  else if code < 28 then (mapGet [] f.dl (el * 4 + (code - 24))).headD TVal.empty
  else if code < 32 then e.token (code - 28)
  else if code < 40 then (match e.portTok (code - 32) with | some k => k.val | none => TVal.empty)
  else if code = 48 then gen (immValue fmt (ewIMM w))
  else if code = 49 then gen 0
  else if code = 50 then gen (iterValue fmt e.x.iter.toNat)
  else if code = 51 then gen (laneValue fmt)
  else TVal.empty

/-! ## One element word (R123) -/

/-- What an element word does in a row. -/
structure ElemOut where
  /-- fabric element and word -/
  el : Nat
  w : ElemWord
  trap : Option (Nat × Trap)
  quiet : Bool
  /-- new result register -/
  res : Option TVal
  /-- physical entry written -/
  dst : Option Nat
  /-- routes driven: direction, channel, delay, value -/
  routes : List (Nat × Nat × Nat × TVal)
  sink : Option (Nat × TVal)
  exit : Bool
deriving DecidableEq, Repr, Inhabited

/-- The `GATED` trap of a word, by its selectors and DST (R301, R428). -/
def RowEnv.gated (e : RowEnv) (el : Nat) (w : ElemWord) : Option (Nat × Trap) :=
  let rd := (ewReads w).zipIdx.filterMap (fun c => if c.1 < 16 then some (c.1, c.2) else none)
  let all := rd ++ (if ewWE w then [(ewDST w, 7)] else [])
  (all.find? (fun x => !e.liveAt el (e.phys el x.1))).map (fun x =>
    (x.2, ⟨cGATED, x.1 + 2 ^ 4 * e.phys el x.1 + 2 ^ 8 * e.ctx, e.x.iter.toNat, false⟩))

/-- The `POISON` of a word that reads a marked token (R432). -/
def RowEnv.poison (e : RowEnv) (w : ElemWord) : Option (Nat × Trap) :=
  (ewReads w).zipIdx.findSome? (fun c =>
    if 32 ≤ c.1 ∧ c.1 < 40 then
      match e.portTok (c.1 - 32) with
      | some k =>
        let cfg := (e.v.port (c.1 - 32)).cfg
        if k.poison then
          some (c.2, ⟨cPOISON, if cfg.wm then k.step else 2 ^ 63 + cfg.tensor * 2 ^ 47 + k.step, if cfg.wm then 0x01 else 0x08, false⟩)
        else none
      | none => none
    else none)

/-- The port that a route of an element targets, if one (R80). -/
def RowEnv.port (e : RowEnv) (el dir ch : Nat) : Option Nat :=
  (⟨e.h, el / 16, el % 16, ⟨0, 0, []⟩, 0, [], []⟩ : Place).routePort dir ch

/-- The first outbound route whose value does not carry its port's format code (R101, R297). -/
def RowEnv.portTag (e : RowEnv) (el : Nat) (rs : List (Nat × Nat × Nat × TVal)) : Option (Nat × Trap) :=
  rs.findSome? (fun r =>
    match e.port el r.1 r.2.1 with
    | none => none
    | some p =>
      let v := r.2.2.2
      let f := mapGet 0 e.fmts p
      let tag := v.tag.toNat
      if (e.bubble && tag == 0) || (v.code == f && !bitOf tag 6 && tag != 0) then none
      else some (3, ⟨cFMTTAG, f + 2 ^ 8 * tag, 0, false⟩))

/-- Executes one element word on the state of the row's start (R123, R297). A route from source 3 of a `CONST` word carries the immediate of R74 (log
entry 155). -/
def RowEnv.exec (e : RowEnv) (el : Nat) (w : ElemWord) : ElemOut :=
  let o := ewOpc w
  let xs := if opReads o (ewCV w) = 0 then [] else (ewReads w).map (e.read el w)
  let quiet := e.bubble && xs.any (fun x => x.tag == 0)
  let portExit := ewXARM w && o != opEXIT && (ewReads w).any (fun c =>
    decide (32 ≤ c) && decide (c < 40) && (match e.portTok (c - 32) with
      | some k => bitOf k.flags (e.v.port (c - 32)).cfg.exd
      | none => false))
  let stop (t : Nat × Trap) : ElemOut := ⟨el, w, some t, quiet, none, none, [], none, portExit⟩
  match e.gated el w with
  | some t => stop t
  | none =>
    match (if quiet then none else e.poison w) with
    | some t => stop t
    | none =>
      match (if quiet then none else elemCheck o (ewFMT w) (ewCV w) xs) with
      | some f => stop (f.source, ⟨if f.scale then cSCALETAG else cFMTTAG, f.expected + 2 ^ 8 * f.found, 0, false⟩)
      | none =>
        let r := if !opHasResult o then none else if quiet then some TVal.empty else some (elemResult e.steep w xs)
        let routes := (List.range 4).filterMap (fun dir =>
          let rt := ewRoute w dir
          if rtSRC rt = 0 then none
          else some (dir, rtCH rt, rtDLY rt,
            if rtSRC rt = 1 then (match r with | some x => x | none => mapGet TVal.empty e.v.fabric.res el)
            else if rtSRC rt = 2 then mapGet TVal.empty e.v.fabric.chan (el * 4 + rtCH rt)
            else e.read el w (ewSA w)))
        match e.portTag el routes with
        | some t => stop t
        | none =>
          { el := el, w := w, trap := none, quiet := quiet, res := r
            dst := if ewWE w && r.isSome then some (e.phys el (ewDST w)) else none
            routes := routes
            sink := if o = opSINK ∧ !quiet then some (ewCV w % 4, xs.headD TVal.empty) else none
            exit := portExit || (o == opEXIT && ewXARM w && !quiet && exitPred (ewCV w) (xs.headD TVal.empty)) }

/-- The outcome of an element whose word is uncorrectable: nothing of it executes (R432, R458). -/
def poisonedWord (el a : Nat) : ElemOut := ⟨el, 0, some (7, ⟨cPOISON, a, 0x04, false⟩), false, none, none, [], none, false⟩

/-- Executes every element of a row. -/
def RowEnv.execRow (e : RowEnv) : List ElemOut :=
  (List.range (e.h.height * e.h.width)).map (fun i =>
    let r := e.h.orow + i / e.h.width
    let c := e.h.ocol + i % e.h.width
    let key := wordKey e.row r c
    if mapGet false e.v.fabric.act.poison key then poisonedWord (r * 16 + c) (e.v.fabric.active.getD 0 * 8192 + key)
    else e.exec (r * 16 + c) (mapGet 0 e.v.fabric.act.words key))

/-! ## Readiness (R295) -/

/-- Outbound ports that the non-EMPTY routes of a row target, once for each route. -/
def RowEnv.drives (e : RowEnv) (o : ElemOut) : List Nat :=
  o.routes.filterMap (fun r => if r.2.2.2.tag = 0 then none else e.port o.el r.1 r.2.1)

/-- Whether an outbound port can take `n` more tokens; a port with a held access cannot (R60). -/
def portRoom (v : Tile) (p n : Nat) : Bool :=
  let q := v.port p
  q.stat == .streaming && q.held.isNone && q.queue.length + q.reserved + n ≤ 16 &&
    (if q.cfg.wm then
      (match v.win q.cfg.win with
        | some x => freeCount x (mapGet ProdCopy.zero v.prods (winNo x.pTile q.cfg.win)) != 0
        | none => false)
     else decide (q.nextStep + q.reserved + n ≤ q.cfg.total))

/-- Whether the row is ready on the outcomes of its words. -/
def RowEnv.isReady (e : RowEnv) (os : List ElemOut) : Bool :=
  let drv := (os.map (fun o => if ewHARM o.w then e.drives o else [])).flatten
  os.all (fun o =>
    !ewHARM o.w ||
      ((ewReads o.w).all (fun c =>
        if !e.real then true
        else if 28 ≤ c ∧ c < 32 then (mapGet none e.v.fabric.ct (c - 28)).isSome
        else if 32 ≤ c ∧ c < 40 then
          (e.v.port (c - 32)).stat == .streaming && (e.v.port (c - 32)).held.isNone && !(e.v.port (c - 32)).queue.isEmpty
        else true) &&
       (ewOpc o.w != opSINK || o.quiet || (mapGet none e.v.fabric.sk (ewCV o.w % 4)).isNone))) &&
    drv.all (fun p => portRoom e.v p (drv.count p))

/-! ## Committing a row -/

/-- The in-flight record of a driven route (R304). -/
def RowEnv.flightOf (e : RowEnv) (region : Nat) (el : Nat) (r : Nat × Nat × Nat × TVal) : InFlight :=
  ⟨region, 1 + r.2.2.1, e.port el r.1 r.2.1, neighbour el r.1, r.2.1, r.2.2.2, e.ctx⟩

/-- The fabric after the words of a row have executed: results, entries, routes, sinks, reservations, consumed tokens. -/
def RowEnv.commit (e : RowEnv) (f : Fabric) (region : Nat) (os : List ElemOut) : Fabric :=
  let drv := (os.map e.drives).flatten
  let toks := (os.map (fun o => (ewReads o.w).filter (fun c => 28 ≤ c && c < 32 && !e.taken.contains c))).flatten
  { f with
    res := os.foldl (fun m o => match o.res with | some x => mapSet TVal.empty m o.el x | none => m) f.res
    rot := os.foldl (fun m o => match o.dst, o.res with | some p, some x => mapSet TVal.empty m (o.el * 16 + p) x | _, _ => m) f.rot
    flight := f.flight ++ (os.map (fun o => o.routes.map (e.flightOf region o.el))).flatten
    sk := os.foldl (fun m o => match o.sink with | some (k, x) => mapSet none m k (some x) | none => m) f.sk
    ct := if e.real then toks.foldl (fun m c => mapSet none m (c - 28) none) f.ct else f.ct
    ports := drv.foldl (fun m p => mapSet Port.reset m p { mapGet Port.reset m p with reserved := (mapGet Port.reset m p).reserved + 1 }) f.ports }

/-- Inbound ports whose token the words of a row consume, each once: those read for real, but for a token that a row of another region
has consumed in the same cycle (R305). -/
def RowEnv.portsRead (e : RowEnv) (os : List ElemOut) : List Nat :=
  if !e.real then []
  else (((os.map (fun o => (ewReads o.w).filterMap (fun c => if 32 ≤ c ∧ c < 40 then some (c - 32) else none))).flatten).eraseDups).filter
    (fun p => !e.taken.contains (p + 32) && (e.v.port p).stat == .streaming && !(e.v.port p).queue.isEmpty)

/-! ## Rows of one cycle (R292, R305) -/

/-- What a row consumes, for the rows of other regions that issue in its cycle. -/
def RowEnv.beat (e : RowEnv) (region : Nat) (os : List ElemOut) : Beat :=
  let codes := if e.real then ((os.map (fun o => (ewReads o.w).filter (fun c => 28 ≤ c && c < 40 && !e.taken.contains c))).flatten).eraseDups else []
  ⟨region, codes.filterMap (fun c => if c < 32 then none else (e.portTok (c - 32)).map (fun k => (c - 32, k))),
    codes.filterMap (fun c => if c < 32 then (mapGet none e.v.fabric.ct (c - 28)).map (fun x => (c - 28, x)) else none)⟩

/-- Selector codes whose tokens the rows of a cycle have consumed. -/
def takenCodes (bs : List Beat) : List Nat := bs.flatMap (fun b => b.ports.map (fun p => p.1 + 32) ++ b.toks.map (fun p => p.1 + 28))

/-- The tile as a further row of the cycle sees it: what the earlier rows have consumed stands yet. -/
def cycleView (v : Tile) (bs : List Beat) : Tile :=
  bs.foldl (fun v b =>
    let v1 := b.ports.foldl (fun v p => v.setPort p.1 { v.port p.1 with stat := .streaming, queue := p.2 :: (v.port p.1).queue }) v
    { v1 with fabric := { v1.fabric with ct := b.toks.foldl (fun m x => mapSet none m x.1 (some x.2)) v1.fabric.ct } }) v

/-! ## Boundaries (R294, R296 to R300, R303, R304) -/

/-- Lands one route on its channel or its port's entry; EMPTY on a port writes nothing (R297). -/
def landOne (v : Tile) (x : InFlight) : Tile :=
  match x.port with
  | some p => if x.val.tag = 0 then v else landToken v p x.val
  | none => { v with fabric := { v.fabric with chan := mapSet TVal.empty v.fabric.chan (x.elem * 4 + x.chan) x.val } }

/-- Step 1: the due landings of a region. -/
def landRegion (v : Tile) (r : Nat) : Tile :=
  let due := v.fabric.flight.filter (fun x => x.region == r && x.left == 0)
  let v1 := { v with fabric := { v.fabric with flight := v.fabric.flight.filter (fun x => !(x.region == r && x.left == 0)) } }
  due.foldl landOne v1

/-- Whether an element belongs to a region. -/
def inRegion (h : RegionHdr) (el : Nat) : Bool :=
  decide (h.orow ≤ el / 16) && decide (el / 16 < h.orow + h.height) && decide (h.ocol ≤ el % 16) && decide (el % 16 < h.ocol + h.width)

/-- Every declared delay line of a region shifts (R303). -/
def shiftLines (f : Fabric) (h : RegionHdr) : Fabric :=
  { f with dl := f.dl.map (fun l =>
      if inRegion h (l.1 / 4) then (l.1, l.2.drop 1 ++ [mapGet TVal.empty f.res (l.1 / 4)]) else l) }

/-- Every stage of every delay line of a region holds EMPTY. -/
def linesEmpty (f : Fabric) (h : RegionHdr) : Bool :=
  f.dl.all (fun l => !inRegion h (l.1 / 4) || l.2.all (fun x => x.tag == 0))

/-- A route of a context that carries a value is in flight. -/
def flying (f : Fabric) (r c : Nat) : Bool := f.flight.any (fun x => x.region == r && x.ctx == c && x.val.tag != 0)

/-- A context at the end of a pass (R299, R300): its count advances; a draining one becomes EXITED where the three conditions hold, and
at the end of its 16th drain pass where no value it has routed is in flight. -/
def endPass (f : Fabric) (h : RegionHdr) (r c : Nat) (x : LoopCtx) : LoopCtx :=
  if !x.active then x
  else
    let y := { x with iter := x.iter + 1 }
    if x.stat != .draining then y
    else
      let n := x.drained + 1
      if !flying f r c && ((x.quiet && linesEmpty f h) || n == 16) then { y with stat := .exited, drained := n }
      else { y with drained := n }

/-- Step 2: the work of a pass end. A context that its drain limit ends loses the EMPTY routes it has in flight (R299). -/
def passEnd (f : Fabric) (h : RegionHdr) (r : Nat) (g : Region) : Fabric × Region :=
  let f1 := shiftLines f h
  let ctxs := g.ctxs.zipIdx.map (fun x => endPass f1 h r x.2 x.1)
  let gone (c : Nat) : Bool := match ctxs[c]?, g.ctxs[c]? with
    | some y, some x => y.stat == .exited && x.stat == .draining && y.drained == 16
    | _, _ => false
  ({ f1 with flight := f1.flight.filter (fun x => !(x.region == r && gone x.ctx)) }, { g with ctxs := ctxs })

/-- Step 3: starts and the admission decision of a context (R296, R298). -/
def startPass (x : LoopCtx) : LoopCtx :=
  let x1 := if x.starting && !x.active then
      { x with stat := .running, sv := 0, iter := 0, exitRaised := false, drained := 0, starting := false }
    else x
  if !x1.active then x1
  else
    let x2 := if x1.stat == .running && x1.exitRaised then { x1 with stat := .draining, drained := 0 } else x1
    let adm : BitVec 16 := if x2.stat == .running then 1 else 0
    { x2 with sv := (x2.sv <<< (1 : Nat)) ||| adm, quiet := true }

/-- A frozen context resumes where the counter stands at its row (R296). -/
def resumeAt (row : Nat) (x : LoopCtx) : LoopCtx :=
  if x.resuming && x.stat == .frozen && x.frozenRow == row then
    { x with stat := if x.wasDraining then .draining else .running, resuming := false }
  else x

/-- Step 4: a context freezes (R241); one that `fb.run` has selected and that has yet to begin freezes before its first row. -/
def freezeCtx (row : Nat) (x : LoopCtx) : LoopCtx :=
  if x.active then { x with stat := .frozen, wasDraining := x.stat == .draining, frozenRow := row }
  else if x.starting then { startPass x with stat := .frozen, wasDraining := false, frozenRow := 0 }
  else { x with resuming := false }

/-- An idle region that `fb.run` wakes (R296): row 0 for a start; the frozen row for a resumption, its boundary's work done. -/
def wakeRegion (g : Region) : Region :=
  if g.active then g
  else if g.ctxs.any (fun x => x.starting) then { g with row := 0, ready := false, passEnd := false }
  else match g.ctxs.find? (fun x => x.resuming && x.stat == .frozen) with
    | some x => if g.row = x.frozenRow then g else { g with row := x.frozenRow, ready := true, passEnd := false }
    | none => g

/-- Steps 1 to 3 at a region's boundary, once, and the resumption of frozen contexts. -/
def boundary (v : Tile) (h : RegionHdr) (r : Nat) (g : Region) : Tile × Region :=
  let v1 := if g.ready then v else landRegion v r
  let fg := if g.ready || !g.passEnd then (v1.fabric, g) else passEnd v1.fabric h r g
  let g1 := fg.2
  let g2 := if g.ready || g1.row != 0 then g1 else { g1 with ctxs := g1.ctxs.map startPass }
  ({ v1 with fabric := fg.1 }, { g2 with ctxs := g2.ctxs.map (resumeAt g2.row), ready := true })

def setRegion (f : Fabric) (r : Nat) (g : Region) : Fabric := { f with regions := f.regions.set r g }

/-- Does the work of a region's present boundary, steps 1 to 3 of R294, where it has anything to run. -/
def standRegion (v : Tile) (r : Nat) : Tile :=
  match v.fabric.regions[r]?, v.fabric.act.regions[r]? with
  | some g, some h =>
    if !g.pending then v
    else let b := boundary v h r (wakeRegion g); { b.1 with fabric := setRegion b.1.fabric r b.2 }
  | _, _ => v

/-- The tile with the work of every region's boundary done: what a swap-out or a `sys.yield` saves (R294). -/
def standFabric (v : Tile) : Tile := (List.range v.fabric.regions.length).foldl standRegion v

/-- A region stops at its boundary (R241, R294): steps 1 to 3, then every context freezes. -/
def stopRegion (v : Tile) (r : Nat) : Tile :=
  match v.fabric.regions[r]?, v.fabric.act.regions[r]? with
  | some g, some h =>
    if !g.pending then v
    else
      let b := boundary v h r (wakeRegion g)
      { b.1 with fabric := setRegion b.1.fabric r { b.2 with ctxs := b.2.ctxs.map (freezeCtx b.2.row), holding := false } }
  | _, _ => v

/-- Every region stops. Between two rows each stands at a boundary. -/
def stopFabric (v : Tile) : Tile := (List.range v.fabric.regions.length).foldl stopRegion v

/-- The boundary that follows an issued row: the counter moves and every route of the region comes one row nearer. -/
def advanceRow (f : Fabric) (h : RegionHdr) (r : Nat) (g : Region) : Fabric :=
  let n := g.row + 1
  setRegion { f with flight := f.flight.map (fun x => if x.region = r then { x with left := x.left - 1 } else x) } r
    { g with row := if n = h.rows then 0 else n, passEnd := n == h.rows, ready := false, holding := false }

end Sys2Proof.Machine
end

