-- ==== Sys2Proof/Machine/Fabric.lean ====
section
/-! DEFINITION. Machine/Fabric.lean: the fabric forms (R237 to R243), the issue of a row (R294, R123, R429), landings, drains,
expansion and installation (R92, R299, R304, R306). -/

namespace Sys2Proof.Machine

/-! ## Row issue (R294, R295, R429) -/

/-- What the words of a row read: the tile at the row's start, with the tokens that the rows `bs` of the same cycle have consumed. -/
def rowEnv (s : State) (t : Nat) (v : Tile) (bs : List Beat) (h : RegionHdr) (row ctx : Nat) (x : LoopCtx) : RowEnv :=
  let slot := s.slot t
  ⟨cycleView v bs, h, row, ctx, x, (s.ext t slot).steep,
    v.fabric.ports.filterMap (fun p => if portOut p.1 then some (p.1, portFmt s (s.taskCtx t slot) p.2.cfg) else none), takenCodes bs⟩

/-- A context after a row of its own has issued (R298, R299). -/
def ctxAfter (os : List ElemOut) (x : LoopCtx) : LoopCtx :=
  { x with
    quiet := x.quiet && os.all (fun o => !opHasResult (ewOpc o.w) || o.quiet || o.trap.isSome)
    exitRaised := x.exitRaised || os.any (·.exit) }

/-- The words of a row raise their traps; every region then freezes at its next boundary (R429): until the handler returns, or for good
where one of the traps is a fault. -/
def raiseRow (s : State) (t row : Nat) (os : List ElemOut) : State :=
  let fault := os.any (fun o => match o.trap with | some x => !(s.tile t).takes x.2 | none => false)
  let s1 := os.foldl (fun s o => match o.trap with
    | some (src, tr) => raiseTrap s t (s.slot t) 3 (w1Elem row (o.el / 16) (o.el % 16) src) tr
    | none => s) s
  if os.any (fun o => o.trap.isSome) then s1.modTile t (fun v => stopFabric { v with fabric := v.fabric.markFrozen fault }) else s1

/-- Whether a word of a row draws from the inverse-normal unit. -/
def drawsTables (os : List ElemOut) : Bool := os.any (fun o => !o.quiet && o.trap.isNone && decide (opSTEEP ≤ ewOpc o.w) && decide (ewOpc o.w ≤ opESCL))

/-- A ready row issues, in one cycle with the rows `bs`: every element executes at once, ports and tokens advance, the counter moves,
traps are raised. -/
def issueRow (s : State) (t r : Nat) (bs : List Beat) (h : RegionHdr) (g : Region) (e : RowEnv) (os : List ElemOut) : State :=
  let g1 := { g with ctxs := g.ctxs.modify e.ctx (ctxAfter os) }
  let s1 := s.modTile t (fun v => { v with fabric := { advanceRow (e.commit v.fabric r os) h r g1 with beat := bs ++ [e.beat r os] } })
  raiseRow ((e.portsRead os).foldl (fun s p => deliverToken s t p) s1) t e.row os

/-- A row whose context is not active issues: nothing executes, the counter moves (R293). -/
def issueIdle (f : Fabric) (h : RegionHdr) (r : Nat) (g : Region) : Fabric :=
  { advanceRow f h r g with beat := (if f.beat.any (fun b => b.region == r) then [] else f.beat) ++ [⟨r, [], []⟩] }

/-- The rows in whose cycle the next row of a region issues: those of other regions that have issued last, or none. Which it is the
manual leaves open (R292; log entry 48). -/
def joinCycle (s : State) (v : Tile) (r : Nat) : List Beat × State :=
  if v.fabric.beat.isEmpty || v.fabric.beat.any (fun b => b.region == r) then ([], s)
  else match s.draw with | (n, u) => (if n % 2 = 1 then v.fabric.beat else [], u)

/-- ROW_ISSUE (R294): the boundary's work, then a hold, which lasts into the next cycle (R295), or the issue of the row. -/
def execRowIssue (t r : Nat) (s : State) : Host.Outcome State Fault Refusal :=
  let v := s.tile t
  let p := v.fabric.act
  .next <| match v.fabric.regions[r]?, p.regions[r]? with
  | some g, some h =>
    if v.fabric.active.isNone || !g.pending then s
    else
      let b := boundary v h r (wakeRegion g)
      let g1 := b.2
      let ctx := rhCTX (mapGet 0 p.hdrs (r * 32 + g1.row)).toNat
      let x := g1.ctxs.getD ctx LoopCtx.reset
      let idle : Tile := { b.1 with fabric := setRegion b.1.fabric r g1 }
      if !g1.active then s.setTile t idle
      else if !x.active then s.setTile t { b.1 with fabric := issueIdle b.1.fabric h r g1 }
      else
        let j := joinCycle s idle r
        let s1 := j.2.setTile t idle
        let e := rowEnv s1 t idle j.1 h g1.row ctx x
        let os := e.execRow
        if e.isReady os then
          if !drawsTables os then issueRow s1 t r j.1 h g1 e os
          else if v.tablesFail then tableFault (s.setTile t idle) t
          else issueRow (drawTables s1 t) t r j.1 h g1 e os
        else s.setTile t { b.1 with fabric := (setRegion b.1.fabric r { g1 with holding := true }).cycleEnd }
  | _, _ => s

/-- ROUTE_LANDING (R304, R305): the routes of a region that fall due at its present boundary land. -/
def execRouteLanding (t r : Nat) (s : State) : Host.Outcome State Fault Refusal :=
  let v := s.tile t
  .next <| match v.fabric.regions[r]? with
  | some g => if g.ready then s else s.setTile t (landRegion v r)
  | none => s

/-- DRAIN_LIMIT_EXIT (R299): at the end of its 16th drain pass a context is EXITED, unless a value it has routed is still in
flight; its EMPTY routes are discarded. The boundary's other work is done with it (R294). -/
def execDrainLimitExit (t r c : Nat) (s : State) : Host.Outcome State Fault Refusal :=
  let v := s.tile t
  .next <| match v.fabric.regions[r]? with
  | none => s
  | some g =>
    match g.ctxs[c]? with
    | none => s
    | some x =>
      if g.ready || !g.passEnd || x.stat != .draining || x.drained + 1 != 16 || flying (landRegion v r).fabric r c then s
      else s.setTile t (standRegion v r)

/-- EXPANSION_COMPLETE (R92): the staged plane is whole. -/
def execExpansionComplete (t : Nat) (s : State) : Host.Outcome State Fault Refusal :=
  .next (s.modTile t (fun v => { v with fabric := { v.fabric with expanding := false } }))

/-! ## Staging (R237) -/

/-- A reader of an image presented in scratchpad. -/
def spadReader (s : State) (off : Nat) (o n : Nat) : List Byte :=
  if off + o + n ≤ 2 ^ 21 then s.bytesAt (.tile s.ft 0) (spadBase s.ft + off + o) n else []

/-- First poisoned word among the parts of an image presented in scratchpad: header, declarations with preloads, rows,
steps. -/
def imgPoison (s : State) (off : Nat) (m : Img) : Option Nat :=
  let hb := spadReader s off 0 32
  let pre := (m.decls.map (fun d => (d.lines.map (·.length)).foldl (· + ·) 0)).foldl (· + ·) 0
  let parts := [(0, 32), (fieldAt hb 0x0C 4, 8 * m.decls.length + 5 * pre), (fieldAt hb 0x10 4, fieldAt hb 0x14 4),
    (fieldAt hb 0x18 4, 16 * m.steps.length)]
  parts.findSome? (fun p => poisonFrom s s.ft (off + p.1) p.2)

/-- The offsets of a list presented in scratchpad, or the trap (R237). -/
def listOffsets (s : State) (a : Nat) : Except Trap (List Nat) :=
  match readSpad s a 4 4 with
  | .error tr => .error tr
  | .ok hd =>
    let n := fieldAt hd 0 1
    if n < 1 ∨ 8 < n then .error (tCfgDesc 0 a)
    else if fieldAt hd 1 3 ≠ 0 then .error (tCfgDesc 8 a)
    else match readSpad s (a + 4) (4 * n) 4 with
    | .error tr => .error tr
    | .ok bs => .ok ((List.range n).map (fun i => fieldAt bs (4 * i) 4))

/-- Ports of one direction that count as bound for a configuration presented from scratchpad: those configured (R80). -/
def livePorts (v : Tile) (out : Bool) : List Nat :=
  (List.range 16).filter (fun p => portOut p == out && (v.port p).stat != .idle)

/-- The images of a list presented in scratchpad, checked as one configuration, or the trap (R94, R237). -/
def listImgs (s : State) (a : Nat) : Except Trap (List Img) :=
  match listOffsets s a with
  | .error tr => .error tr
  | .ok offs =>
    let v := s.tile s.ft
    match offs.findSome? (fun o => poisonFrom s s.ft o 32) with
    | some o => .error ⟨cPOISON, o, 0x01, false⟩
    | none =>
      match parseImgs (offs.map (fun o => (spadReader s o, true))) 0 with
      | .error r => .error (r.trap (offs.getD r.pos 0))
      | .ok ms =>
        match (offs.zip ms).findSome? (fun m => imgPoison s m.1 m.2) with
        | some p => .error ⟨cPOISON, p, 0x01, false⟩
        | none =>
          match checkConfig ms (livePorts v false) (livePorts v true) with
          | some r => .error (r.trap (offs.getD r.pos 0))
          | none => .ok ms

/-- The container of the focused task. -/
def State.myContainer (s : State) : List NofSection :=
  match s.task s.ft s.fslot with
  | some k => s.container k.container
  | none => []

/-- Stages images once an expansion in progress has finished (R237). -/
def stageAct (s : State) (d : Reg) (v : DWord) (ms : List Img) (conf : Nat) : Act :=
  if (s.tile s.ft).fabric.expanding then .wait s
  else .ret (stageOn s s.ft ms conf) d v

/-- FB_LOAD (R237). The record of a number that no configuration has names the field of the configuration number (log entry 160). -/
def execFbLoad (d a : Reg) (s : State) : Host.Outcome State Fault Refusal :=
  let x := s.rn a
  perform <| ctlOnly s <|
    if bitOf x 63 then
      if bitsOf x 62 21 ≠ 0 then .illegal s
      else match listImgs s (bitsOf x 20 0) with
      | .error tr => .trap tr s
      | .ok ms => stageAct s d 0 ms 255
    else if bitsOf x 62 8 ≠ 0 then .illegal s
    else if (confSections s.myContainer x).isEmpty then .trap (Rej.trap ⟨2, 0, 0, 0, 72⟩ 0) s
    else stageAct s d 0 (contImgs s.myContainer x) x

/-! ## The plane swap (R238, R239, R306) -/

/-- Whether a port binding of the staged configuration has another page size than its tensor (R58). -/
def stagedPageFail (s : State) (t slot : Nat) : Bool :=
  let f := (s.tile t).fabric
  ((f.plane f.idle).binds (taskBinds s t slot)).any (fun b =>
    (descOf s (s.taskCtx t slot) b.tensor).any (fun d => d.pg != b.pageCode))

/-- The handshake of R238, at the control core; the ports of the staged configuration are configured there (R216, R58). -/
def swapAct (d : Reg) (s : State) : Act :=
  let v := s.tile s.ft
  if !v.fabric.staged then .ret s d (BitVec.allOnes 64)
  else if v.fabric.expanding || !quiescent v then .wait s
  else if stagedPageFail s s.ft s.fslot then .trap (tCfgDesc 17 0) s
  else .retN (installOn s s.ft) d (v.fabric.plane v.fabric.idle).conf

/-- FB_SWAP (R238). -/
def execFbSwap (d : Reg) (s : State) : Host.Outcome State Fault Refusal := perform (ctlOnly s (swapAct d s))

/-- PLANE_SWAP_INSTALL (R306): a control core blocked at `fb.swap` installs, once the staged plane is whole and the active
configuration quiescent. -/
def execPlaneSwapInstall (t : Nat) (s : State) : Host.Outcome State Fault Refusal :=
  let v := s.tile t
  .next <| match blockedAt s t 0 with
  | some (.fbSwap d) =>
    if v.fabric.staged && !v.fabric.expanding && quiescent v then onCore s t 0 (fun s => (swapAct d s).state) else s
  | _ => s

/-! ## Running and stopping (R240, R241) -/

/-- What `fb.run` does to a context that it selects. -/
def runCtx (x : LoopCtx) : LoopCtx :=
  match x.stat with
  | .running | .draining => x
  | .frozen => { x with resuming := true }
  | .exited | .unstarted => { x with starting := true }

/-- The selected contexts of every region start or resume: their rows issue in a later cycle (R306). -/
def runFabric (f : Fabric) (mask : Nat) : Fabric :=
  let hs := f.act.regions
  { f.cycleEnd with regions := f.regions.mapIdx (fun r g =>
      let en := (hs.map (·.lcMask)).getD r 0
      { g with ctxs := g.ctxs.mapIdx (fun c x => if bitOf en c && (mask == 0 || bitOf mask c) then runCtx x else x) }) }

/-- FB_RUN (R240). -/
def execFbRun (a : Reg) (s : State) : Host.Outcome State Fault Refusal :=
  let x := s.rn a
  let f := (s.tile s.ft).fabric
  perform <| ctlOnly s <|
    if bitsOf x 63 4 ≠ 0 then .illegal s
    else if f.active.isNone then .resource s
    else if f.matrix then .trap (Rej.trap ⟨2, 0, 0, 0, 24⟩ 0) s
    else .done (s.modTile s.ft (fun v => { v with fabric := runFabric v.fabric x }))

/-- FB_STOP (R241). -/
def execFbStop (s : State) : Host.Outcome State Fault Refusal := perform (ctlOnly s (.done (s.modTile s.ft stopFabric)))

/-! ## Control tokens and sinks (R242, R243) -/

/-- FB_TOK (R242). -/
def execFbTok (a : Reg) (k : BitVec 2) (s : State) : Host.Outcome State Fault Refusal :=
  let x := s.rn a
  perform <| ctlOnly s <|
    if bitsOf x 63 40 ≠ 0 then .illegal s
    else if (mapGet none (s.tile s.ft).fabric.ct k.toNat).isSome then .wait s
    else .done (s.modTile s.ft (fun v => { v with fabric :=
      { v.fabric.cycleEnd with
        ct := mapSet none v.fabric.ct k.toNat (some ⟨BitVec.ofNat 32 (bitsOf x 31 0), BitVec.ofNat 8 (bitsOf x 39 32)⟩) } }))

/-- The word that `fb.sink` returns for a value. -/
def sinkWord (x : TVal) : Nat := 2 ^ 63 + x.tag.toNat * 2 ^ 32 + x.bits.toNat

/-- FB_SINK (R243). -/
def execFbSink (d : Reg) (k : BitVec 2) (s : State) : Host.Outcome State Fault Refusal :=
  perform <| ctlOnly s <|
    match mapGet none (s.tile s.ft).fabric.sk k.toNat with
    | none => .ret s d 0
    | some x => .retN (s.modTile s.ft (fun v => { v with fabric := { v.fabric.cycleEnd with sk := mapSet none v.fabric.sk k.toNat none } })) d
        (sinkWord x)

end Sys2Proof.Machine
end

