-- ==== Sys2Proof/Machine/Matrix.lean ====
section
/-! DEFINITION. Machine/Matrix.lean: matrix mode (R159 to R163, R168 to R188, R244, R245, R422): the step rows of the
sequencer, drains into a peer, and the forms that start and await a block. -/

namespace Sys2Proof.Machine

/-! ## The sequencer -/

def modMx (s : State) (t : Nat) (f : Mx → Mx) : State := s.modTile t (fun v => { v with mx := f v.mx })

/-- The step row at which the sequencer of a tile stands, if a block runs. -/
def Tile.stepRow (v : Tile) : Option StepRow :=
  if v.mx.busy then (v.fabric.act.steps[v.mx.row]?).bind decodeStepRow else none

/-- Unit of the matrix path (R175, R270): engine class 3, its writes named by the block's tag. -/
def mxWho (s : State) (t : Nat) : Who := ⟨t, s.slot t, .tile t 5, kMATRIX, (s.tile t).mx.utag.toNat, false, none⟩

/-- The next row begins: nothing of it has been done. -/
def Mx.goTo (m : Mx) (row : Nat) : Mx := { m with row := row, prog := ⟨0, 0, none⟩ }

/-- The row is complete, and `m'` is where the sequencer goes; of a block that a trap has stopped, the last row begun ends it (R187). -/
def Mx.leave (m m' : Mx) : Mx :=
  match m.wind with
  | none => m'
  | some w => if w.left ≤ 1 then { m with busy := false, wind := none, prog := ⟨0, 0, none⟩ } else { m' with wind := some { w with left := w.left - 1 } }

/-- The row is complete: the next one begins. -/
def Mx.next (m : Mx) : Mx := m.leave (m.goTo (m.row + 1))

def mxNext (s : State) (t : Nat) : State := modMx s t Mx.next

/-- Cycles pass while a step row runs: how many is not fixed (R176). -/
def mxTick (s : State) (t : Nat) : State := let d := s.draw; d.2.modTile t (fun v => tickTile v (d.1 + 1))

/-! ## Loops (R185) -/

/-- The loop row (R185): the level's counter goes up and the body repeats, or it goes to 0 and the block goes on. -/
def Mx.loop (m : Mx) (target : Nat) (inner : Bool) (iter : Nat) : Mx :=
  let n := (if inner then m.n0 else m.n1) + 1
  let again := decide (n ≤ iter)
  let k := if again then n else 0
  let l := some m.row
  (if inner then { m with n0 := k, loop0 := if again then l else m.loop0 }
    else { m with n1 := k, loop1 := if again then l else m.loop1 }).goTo (if again then target else m.row + 1)

/-- Where the sequencer goes behind a row. -/
def Mx.after (m : Mx) : StepRow → Mx
  | .loop target lvl iter _ _ _ _ _ _ => m.loop target.toNat (lvl == 0) iter.toNat
  | _ => m.goTo (m.row + 1)

/-- Steps that a latched loop row gives: DK, DM, DA, DW, DI, DD, signed. -/
structure Steps where
  dk : Int
  dm : Int
  da : Int
  dw : Int
  di : Int
  dd : Int
deriving DecidableEq, Repr, Inhabited

def stepsOf (r : Option StepRow) : Steps :=
  match r with
  | some (.loop _ _ _ dk dm da dw di dd) => ⟨dk.toInt, dm.toInt, da.toInt, dw.toInt, di.toInt, dd.toInt⟩
  | _ => ⟨0, 0, 0, 0, 0, 0⟩

/-- The latched steps of one level. -/
def Tile.latched (v : Tile) (l : Option Nat) : Steps := stepsOf (l.bind (fun i => (v.fabric.act.steps[i]?).bind decodeStepRow))

/-- What the loops add to a field: n[0]·step0 + n[1]·step1. -/
def Tile.loopAdd (v : Tile) (f : Steps → Int) : Int := v.mx.n0 * f (v.latched v.mx.loop0) + v.mx.n1 * f (v.latched v.mx.loop1)

/-- The effective first accumulator row, or `RESOURCE` (R185). -/
def Tile.effAcc (v : Tile) (abase cnt : Nat) : Except Trap Nat :=
  let a : Int := abase + v.loopAdd (·.da)
  if a < 0 ∨ 1023 < a + cnt then .error ⟨cRESOURCE, v.mx.row, 0, false⟩ else .ok a.toNat

/-- Values in a chunk: K' of R170. -/
def kPrime (f : Nat) : Nat := if fmtWidth f == 8 then 16 else 4

/-! ## The unfold unit (R171, R172) -/

structure Unfold where
  base : Nat
  fmt : Nat
  scaled : Bool
  c : Nat
  h : Nat
  w : Nat
  kh : Nat
  kw : Nat
  stride : Nat
  pad : Nat
deriving DecidableEq, Repr, Inhabited

def parseUnfold (bs : List Byte) : Unfold :=
  let f := fieldAt bs
  ⟨f 0 4, f 4 1, bitOf (f 5 1) 0, f 6 2, f 8 2, f 0x0A 2, f 0x0C 1, f 0x0D 1, f 0x0E 1, f 0x0F 1⟩

/-- Lowest bit of the first descriptor field outside its values (R171). -/
def unfoldFail (bs : List Byte) : Option Nat :=
  let u := parseUnfold bs
  firstFail [(0, (fmtBytes u.fmt == 0 || u.base % fmtBytes u.fmt == 0)), (21, decide (u.base < 2 ^ 21)), (32, mxFmt u.fmt),
    (41, decide (fieldAt bs 5 1 < 2)), (48, 1 ≤ u.c), (64, 1 ≤ u.h), (80, 1 ≤ u.w),
    (96, 1 ≤ u.kh && u.kh ≤ 16 && decide (u.kh ≤ u.h + 2 * u.pad)), (104, 1 ≤ u.kw && u.kw ≤ 16 && decide (u.kw ≤ u.w + 2 * u.pad)),
    (112, 1 ≤ u.stride && u.stride ≤ 16), (120, decide (u.pad ≤ 15)), (128, leNat (bs.drop 16) == 0)]

/-- The descriptor at a scratchpad offset, or the trap (R171). -/
def readUnfold (s : State) (t off : Nat) : Except Trap Unfold :=
  match poisonFrom s t off 64 with
  | some w => .error ⟨cPOISON, w, 0x01, false⟩
  | none =>
    let bs := s.bytesAt (.tile t 5) (spadBase t + off) 64
    match unfoldFail bs with
    | some b => .error (tCfgDesc b off)
    | none =>
      let u := parseUnfold bs
      if 2 ^ 21 < u.base + fmtBytes u.fmt * (u.h * u.w * u.c) then .error (trapAperture u.base kMATRIX .read) else .ok u

/-- Offset of A(m, k) in scratchpad; none: zero bits (R172). -/
def Unfold.at (u : Unfold) (m k : Int) : Option Nat :=
  let oh := (u.h + 2 * u.pad - u.kh) / u.stride + 1
  let ow := (u.w + 2 * u.pad - u.kw) / u.stride + 1
  if m < 0 ∨ (oh * ow : Nat) ≤ m ∨ k < 0 ∨ (u.kh * u.kw * u.c : Nat) ≤ k then none
  else
    let mn := m.toNat
    let kn := k.toNat
    let tt := kn / u.c
    let y : Int := (mn / ow * u.stride : Nat) - (u.pad : Int) + (tt / u.kw : Nat)
    let x : Int := (mn % ow * u.stride : Nat) - (u.pad : Int) + (tt % u.kw : Nat)
    if y < 0 ∨ u.h ≤ y ∨ x < 0 ∨ u.w ≤ x then none
    else some (u.base + fmtBytes u.fmt * ((y.toNat * u.w + x.toNat) * u.c + kn % u.c))

/-- Where the values of the chunk of fabric row r stand (R170). -/
def Unfold.chunkAt (u : Unfold) (m k0 : Int) (r : Nat) : List (Option Nat) :=
  (List.range (kPrime u.fmt)).map (fun q => u.at m (k0 + (kPrime u.fmt * r + q : Nat)))

/-! ## A row that traps (R187) -/

/-- What a row occupies (R176): the feed 0, the weight path 1, the accumulator 2; a fence 3, a loop row and the end 4 occupy none of them. -/
def stepUnit : StepRow → Nat
  | .step .. => 0
  | .load .. | .steep .. => 1
  | .drain .. | .zero .. => 2
  | .wait kind .. => if kind = 1 then 3 else 2
  | .loop .. | .fin => 4

/-- Accumulator rows of a step row: first and last (R175, R185). -/
def Tile.accSpan (v : Tile) : StepRow → Option (Int × Int)
  | .step _ _ abase cnt _ _ _ | .drain _ _ abase cnt _ _ _ _ _ _ | .zero abase cnt _ =>
    let a : Int := abase.toNat + v.loopAdd (·.da)
    some (a, a + cnt.toNat)
  | .wait kind abase cnt _ _ _ =>
    let a : Int := abase.toNat + v.loopAdd (·.da)
    if kind = 1 then none else some (a, a + cnt.toNat)
  | _ => none

/-- Scratchpad bytes that a row reads, as first bytes and lengths: a weight panel; an unfold descriptor with the values of A behind it. -/
def readSpans (s : State) (t : Nat) (v : Tile) : StepRow → List (Int × Int)
  | .load _ waddr _ _ => [((waddr.toNat + v.loopAdd (·.dw)) * 256, 4096)]
  | .steep _ paddr pf tfmt _ _ _ =>
    [((paddr.toNat + v.loopAdd (·.dw)) * 256, (256 * kPrime tfmt.toNat * (if pf = 1 then 4 else 2) : Nat))]
  | .step _ _ _ cnt ud m0 k0 =>
    (((ud.toNat * 64 : Nat) : Int), 64) :: (match readUnfold s t (ud.toNat * 64) with
      | .error _ => []
      | .ok u => (List.range (cnt.toNat + 1)).flatMap (fun (i : Nat) => (List.range 16).flatMap (fun r =>
          (u.chunkAt (m0.toNat + v.loopAdd (·.dm) + i) (k0.toNat + v.loopAdd (·.dk)) r).filterMap (fun o =>
            o.map (fun o => ((o : Int), (fmtBytes u.fmt : Int)))))))
  | _ => []

/-- Scratchpad bytes that a drain writes. -/
def Tile.writeSpans (v : Tile) : StepRow → List (Int × Int)
  | .drain dst _ _ cnt daddr dfmt _ _ _ _ =>
    if dst = 1 then [] else [((daddr.toNat + v.loopAdd (·.dd)) * 64, ((cnt.toNat + 1) * 16 * fmtBytes dfmt.toNat : Nat))]
  | _ => []

/-- Whether two sets of bytes meet. -/
def spansMeet (x y : List (Int × Int)) : Bool := x.any (fun a => y.any (fun b => decide (a.1 < b.1 + b.2) && decide (b.1 < a.1 + a.2)))

/-- Whether the feed of a word row reads a weight bank that a load through another word row writes (R159, R161). -/
def Tile.bankClash (v : Tile) (feed load : Nat) : Bool :=
  (List.range 256).any (fun e =>
    let a := mapGet 0 v.fabric.act.words (wordKey feed (e / 16) (e % 16))
    let b := mapGet 0 v.fabric.act.words (wordKey load (e / 16) (e % 16))
    ewOpc a == opMMAC && (ewOpc b == opMLDW || ewOpc b == opMZERO) && ewCV a % 4 == ewCV b % 4)

/-- Whether row `y`, with the loops at `vy`, may begin before row `x`, with the loops at `vx`, has ended (R175, R176): another unit, and no bank,
accumulator row or byte that one of them writes and the other reads or writes; a fence waits for a drain. -/
def overlapOk (s : State) (t : Nat) (vx vy : Tile) (x y : StepRow) : Bool :=
  (stepUnit x != stepUnit y || stepUnit y == 4) && (stepUnit x != 2 || stepUnit y != 3) &&
  (match vx.accSpan x, vy.accSpan y with
    | some a, some b => decide (a.2 < b.1) || decide (b.2 < a.1)
    | _, _ => true) &&
  !spansMeet (readSpans s t vx x ++ vx.writeSpans x) (vy.writeSpans y) && !spansMeet (vx.writeSpans x) (readSpans s t vy y) &&
  (match x, y with
    | .step f .., .load l .. | .load l .., .step f .. | .step f .., .steep l .. | .steep l .., .step f .. =>
      !vx.bankClash f.toNat l.toNat
    | _, _ => true)

/-- The rows that may begin, in their order, while row `x` of the sequencer's state `vx` has not ended (R175, R176), up to a number of them; `v` stands
behind the rows taken so far. -/
def mayBegin (s : State) (t : Nat) (vx : Tile) (x : StepRow) : Nat → Tile → List Nat
  | 0, _ => []
  | n + 1, v =>
    match v.stepRow with
    | none => []
    | some y =>
      if overlapOk s t vx v x y then v.mx.row :: (if y = .fin then [] else mayBegin s t vx x n { v with mx := v.mx.after y })
      else []

/-- How far ahead of a row the sequencer may be (log entry 51). -/
def lookAhead : Nat := 4096

/-- Rows that may have begun by the time the present row of a tile has trapped. -/
def begun (s : State) (t : Nat) : List Nat :=
  let v := s.tile t
  match v.stepRow with
  | none => []
  | some x => mayBegin s t v x lookAhead { v with mx := v.mx.after x }

/-- A row traps (R187, R427): the block stops. How many of the rows that may have begun after it had begun is free (log entry
51); those complete their effects, one at a time, on the steeping state that they have latched (R425). The record names the row, the row within it,
and the last row begun. -/
def mxTrap (s : State) (t sub : Nat) (tr : Trap) : State :=
  let v := s.tile t
  let m := v.mx
  match m.wind with
  | some w => raiseTrap (mxNext s t) t (s.slot t) 3 (w1Seq m.row sub w.last) tr
  | none =>
    let d := s.draw
    let rows := (begun s t).take (d.1 % ((begun s t).length + 1))
    let last := rows.getLastD m.row
    let stop (m : Mx) : Mx :=
      match rows, v.stepRow with
      | _ :: _, some x => { m.after x with wind := some ⟨rows.length, last, (s.ext t (s.slot t)).steep⟩ }
      | _, _ => { m with busy := false, prog := ⟨0, 0, none⟩ }
    raiseTrap (modMx d.2 t stop) t (s.slot t) 3 (w1Seq m.row sub last) tr

/-- An effective scratchpad range, or `APERTURE` (R185). -/
def effSpad (base : Int) (n : Nat) (acc : Acc) : Except Trap Nat :=
  if base < 0 ∨ 2 ^ 21 < base + n then .error (trapAperture (base % 2 ^ 64).toNat kMATRIX acc) else .ok base.toNat

/-- The values of a chunk. -/
def readChunk (s : State) (t : Nat) (u : Unfold) (as : List (Option Nat)) : List Nat :=
  as.map (fun a => match a with
    | some o => leNat (s.bytesAt (.tile t 5) (spadBase t + o) (fmtBytes u.fmt))
    | none => 0)

/-! ## One compute interval (R159, R160) -/

/-- The value tag of a chunk. -/
def tagOf (f : Nat) (scaled : Bool) : Nat := f + 128 * bit01 scaled

/-- Checks of one `MMAC` cell: A's tag, then the entries it reads, then the scaled flags. -/
def cellCheck (f atag : Nat) (es : List TVal) : Option Trap :=
  let ts := atag :: es.map (fun e => e.tag.toNat)
  match ts.find? (fun x => x % 128 != f) with
  | some x => some ⟨cFMTTAG, f + 2 ^ 8 * x, 0, false⟩
  | none => (ts.find? (fun x => x / 128 != atag / 128)).map (fun x => ⟨cSCALETAG, f + 2 ^ 8 * x, 0, false⟩)

/-- The weights of a bank of an element, by position. -/
def cellWeights (f : Nat) (es : List TVal) : List Nat :=
  let x := leNat ((es.map (fun e => leBytes 4 e.bits.toNat)).flatten)
  (List.range (kPrime f)).map (lane x (fmtWidth f))

/-- The partial sum that leaves one cell. -/
def cellSum (f : Nat) (a w : List Nat) (p : Nat) : Nat :=
  if fmtIsInt f then
    wrapInt 32 ((p : Int) + ((List.zipWith (fun x y => intLane f x * intLane f y) a w).foldl (· + ·) 0))
  else floatArith 0x40 fmtFP32 0 false p (rn32 (productSum (List.zipWith (fun x y => (decodeLane f x, decodeLane f y)) a w))) 0

/-- One column: the north input goes south through the cells (R169, R160). -/
def column (v : Tile) (wrow : Nat) (atag : Nat) (chunks : List (List Nat)) (north j : Nat) : Except Trap Nat :=
  chunks.zipIdx.foldl (fun (acc : Except Trap Nat) c =>
    match acc with
    | .error tr => .error tr
    | .ok p =>
      let el := c.2 * 16 + j
      let w := mapGet 0 v.fabric.act.words (wordKey wrow c.2 j)
      let f := ewFMT w
      if ewOpc w = opMMAC then
        let n := if fmtWidth f == 8 then 4 else 2
        let es := (List.range n).map (fun q => mapGet TVal.empty v.fabric.rot (el * 16 + 4 * (ewCV w % 4) + q))
        match cellCheck f atag es with
        | some tr => .error tr
        | none => .ok (cellSum f c.1 (cellWeights f es) p)
      else .ok p) (.ok north)

/-- Format of the `MMAC` words of a word row; none where it has none (R174, R177). -/
def wordRowFmt (v : Tile) (wrow : Nat) : Option Nat :=
  (List.range 256).findSome? (fun e =>
    let w := mapGet 0 v.fabric.act.words (wordKey wrow (e / 16) (e % 16))
    if ewOpc w = opMMAC then some (ewFMT w) else none)

def Tile.accRow (v : Tile) (i : Nat) : AccRow := mapGet AccRow.zero v.acc i
def Tile.setAcc (v : Tile) (i : Nat) (r : AccRow) : Tile := { v with acc := mapSet AccRow.zero v.acc i r }

/-- A row of a tile's accumulator panel is written whole (R458). -/
def State.putAcc (s : State) (t i : Nat) (r : AccRow) : State :=
  strikeAcc (s.modTile t (fun v => { v.setAcc i r with accPoison := mapSet false v.accPoison i false })) t (s.taskCtx t (s.slot t)) i 1

/-- The `POISON` of an uncorrectable accumulator row that is read (R431, R458). -/
def accTrap (s : State) (t i : Nat) : Option Trap :=
  if mapGet false (s.tile t).accPoison i then some ⟨cPOISON, accPlace t i, 0x05, false⟩ else none

/-- The `POISON` of an uncorrectable element word among those that a word row holds. -/
def wordTrap (v : Tile) (wrow : Nat) : Option Trap := (v.fabric.badWord wrow).map (fun a => ⟨cPOISON, a, 0x04, false⟩)

/-- Format code of a row's kind. -/
def AccRow.code (r : AccRow) : Nat := if r.int32 then fmtINT32 else fmtFP32
/-- Zero of a kind in every column. -/
def AccRow.zeroOf (int32 : Bool) : AccRow := ⟨int32, List.replicate 16 0⟩

/-- A row added to an accumulator row of the same kind (R177, R183). -/
def accAdd (int32 : Bool) (x y : Word) : Word :=
  if int32 then x + y else BitVec.ofNat 32 (floatArith 0x40 fmtFP32 0 false x.toNat y.toNat 0)

/-- One interval of `MS.STEP`: the new contents of an accumulator row, or the trap (R177). -/
def stepInterval (s : State) (t wrow : Nat) (acc : Bool) (u : Unfold) (m k0 : Int) (row : Nat) : Except Trap AccRow :=
  let v := s.tile t
  let ats := (List.range 16).map (u.chunkAt m k0)
  match (ats.flatten.reduceOption).find? (fun o => s.poisonIn (spadBase t + o) (fmtBytes u.fmt)) with
  | some o => .error ⟨cPOISON, o / 8 * 8, 0x01, false⟩
  | none =>
    let int32 := fmtIsInt ((wordRowFmt v wrow).getD u.fmt)
    let old := v.accRow row
    let chunks := ats.map (readChunk s t u)
    match (List.range 16).foldr (fun j (r : Except Trap (List Nat)) =>
      match column v wrow (tagOf u.fmt u.scaled) chunks (if int32 then 0 else 0x80000000) j with
      | .error tr => .error tr
      | .ok p => (match r with
        | .error tr => .error tr
        | .ok ps => .ok (p :: ps))) (.ok []) with
    | .error tr => .error tr
    | .ok ps =>
      let new := ps.map (BitVec.ofNat 32)
      if acc then
        match accTrap s t row with
        | some tr => .error tr
        | none =>
        if old.int32 ≠ int32 then .error ⟨cFMTTAG, (AccRow.zeroOf int32).code + 2 ^ 8 * old.code, 0, false⟩
        else .ok ⟨int32, List.zipWith (accAdd int32) old.vals new⟩
      else .ok ⟨int32, new⟩

/-- The intervals of a row from the i-th on. -/
def stepIntervals (t wrow : Nat) (acc : Bool) (u : Unfold) (m0 k0 : Int) (abase : Nat) : Nat → Nat → State → State
  | 0, _, s => mxNext s t
  | n + 1, i, s =>
    match stepInterval s t wrow acc u (m0 + i) k0 (abase + i) with
    | .error tr => mxTrap s t i tr
    | .ok r => stepIntervals t wrow acc u m0 k0 abase n (i + 1) (s.putAcc t (abase + i) r)

/-- MS_STEP (R177). -/
def execMsStep (t : Nat) (s : State) : Host.Outcome State Fault Refusal :=
  let v := s.tile t
  .next <| match v.stepRow with
  | some (.step wrow acc abase cnt ud m0 k0) =>
    let s1 := mxTick s t
    (match v.effAcc abase.toNat cnt.toNat, wordTrap v wrow.toNat with
    | .error tr, _ | .ok _, some tr => mxTrap s1 t 0 tr
    | .ok a, none =>
      match readUnfold s t (ud.toNat * 64) with
      | .error tr => mxTrap s1 t 0 tr
      | .ok u =>
        stepIntervals t wrow.toNat (acc == 1) u (m0.toNat + v.loopAdd (·.dm)) (k0.toNat + v.loopAdd (·.dk)) a (cnt.toNat + 1) 0 s1)
  | _ => s

/-! ## Load intervals (R161, R162, R178, R179) -/

/-- What one element does with its chunk in a load interval: the four entries it writes, or the trap. -/
def loadCell (w : ElemWord) (f : Nat) (scaled : Bool) (chunk : List Byte) : Except Trap (List (Nat × TVal)) :=
  let k := 4 * (ewCV w % 4)
  if ewOpc w = opMLDW then
    if ewFMT w ≠ f then .error ⟨cFMTTAG, ewFMT w + 2 ^ 8 * tagOf f scaled, 0, false⟩
    else .ok ((List.range 4).map (fun q => (k + q, ⟨BitVec.ofNat 32 (fieldAt chunk (4 * q) 4), BitVec.ofNat 8 (tagOf f scaled)⟩)))
  else if ewOpc w = opMZERO then .ok ((List.range 4).map (fun q => (k + q, ⟨0, BitVec.ofNat 8 (ewFMT w)⟩)))
  else .ok []

/-- Delivers the chunks of one fabric row: every element acts, beside one that traps too; the first trap of the row, if any (log entry 158). -/
def loadFabricRow (v : Tile) (wrow c f : Nat) (scaled : Bool) (chunks : List (List Byte)) : Tile × Option Trap :=
  (List.range 16).foldl (fun (r : Tile × Option Trap) j =>
    match loadCell (mapGet 0 v.fabric.act.words (wordKey wrow c j)) f scaled (chunks.getD j []) with
    | .error tr => (r.1, match r.2 with | some x => some x | none => some tr)
    | .ok ws =>
      ({ r.1 with fabric := { r.1.fabric with rot := ws.foldl (fun m e => mapSet TVal.empty m ((c * 16 + j) * 16 + e.1) e.2) r.1.fabric.rot } },
        r.2)) (v, none)

/-- Delivers fabric rows from row c on; `src` gives a row's scratchpad range, `mk` its chunks from its bytes. -/
def loadRows (t wrow f : Nat) (scaled : Bool) (base len : Nat) (mk : Nat → List Byte → List (List Byte)) : Nat → Nat → State → State
  | 0, _, s => mxNext s t
  | n + 1, c, s =>
    let a := base + len * c
    match (List.range len).find? (fun i => s.poisonAt (spadBase t + a + i)) with
    | some i => mxTrap s t c ⟨cPOISON, (a + i) / 8 * 8, 0x01, false⟩
    | none =>
      let r := loadFabricRow (s.tile t) wrow c f scaled (mk c (s.bytesAt (.tile t 5) (spadBase t + a) len))
      match r.2 with
      | some tr => mxTrap (s.setTile t r.1) t c tr
      | none => loadRows t wrow f scaled base len mk n (c + 1) (s.setTile t r.1)

/-- Cuts the 256 bytes of a fabric row into its elements' chunks. -/
def plainChunks (_ : Nat) (bs : List Byte) : List (List Byte) := (List.range 16).map (fun j => (bs.drop (16 * j)).take 16)

/-- MS_LOAD (R178). -/
def execMsLoad (t : Nat) (s : State) : Host.Outcome State Fault Refusal :=
  let v := s.tile t
  .next <| match v.stepRow with
  | some (.load wrow waddr wfmt wsc) =>
    let s1 := mxTick s t
    (match effSpad ((waddr.toNat + v.loopAdd (·.dw)) * 256) 4096 .read, wordTrap v wrow.toNat with
    | .error tr, _ | .ok _, some tr => mxTrap s1 t 0 tr
    | .ok a, none => loadRows t wrow.toNat wfmt.toNat (wsc == 1) a 256 plainChunks 16 0 s1)
  | _ => s

/-- The steeped chunks of a fabric row, from its pairs (R179). -/
def steepChunks (k : SteepKeys) (pf f rnd : Nat) (sat : Bool) (widx : Int) (c : Nat) (bs : List Byte) : List (List Byte) :=
  let kp := kPrime f
  let pb := fmtBytes pf
  (List.range 16).map (fun j =>
    let ws := (List.range kp).map (fun q =>
      let i := (((k.base.toNat : Int) + widx + (16 * kp * c + kp * j + q : Nat)) % 2 ^ 48).toNat
      steepWeight (fieldAt bs (pb * (kp * j + q)) pb) pf (epsDraw k.key.toNat k.stream.toNat k.member.toNat i) f rnd sat)
    let bytes := (ws.map (leBytes (fmtBytes f))).flatten
    bytes ++ List.replicate (16 - bytes.length) 0)

/-- MS_STEEP (R179, R422, R425): the steeping state is latched for the row. -/
def execMsSteep (t : Nat) (s : State) : Host.Outcome State Fault Refusal :=
  let v := s.tile t
  .next <| match v.stepRow with
  | some (.steep wrow paddr pf tfmt rnd sat widx) =>
    let s1 := drawTables (mxTick s t) t
    let pfmt := if pf = 1 then fmtPW32 else fmtPW16
    let len := 16 * kPrime tfmt.toNat * fmtBytes pfmt
    (match effSpad ((paddr.toNat + v.loopAdd (·.dw)) * 256) (16 * len) .read, wordTrap v wrow.toNat with
    | .error tr, _ | .ok _, some tr => mxTrap s1 t 0 tr
    | .ok a, none =>
      if v.tablesFail then tableFault s t else
      loadRows t wrow.toNat tfmt.toNat false a len
        (steepChunks ((v.mx.wind.map (·.steep)).getD (s.ext t (s.slot t)).steep) pfmt tfmt.toNat rnd.toNat (sat == 1) (widx.toNat + v.loopAdd (·.di))) 16 0 s1)
  | _ => s

/-! ## Accumulator rows (R180, R181) -/

/-- MS_ZERO (R180). -/
def execMsZero (t : Nat) (s : State) : Host.Outcome State Fault Refusal :=
  let v := s.tile t
  .next <| match v.stepRow with
  | some (.zero abase cnt ak) =>
    let s1 := mxTick s t
    (match v.effAcc abase.toNat cnt.toNat with
    | .error tr => mxTrap s1 t 0 tr
    | .ok a =>
      mxNext ((List.range (cnt.toNat + 1)).foldl (fun s i => s.putAcc t (a + i) (AccRow.zeroOf (ak == 1))) s1) t)
  | _ => s

/-- A row that a drain has read is cleared where the drain clears. -/
def clearAcc (s : State) (t i : Nat) (r : AccRow) (clr : Bool) : State := if clr then s.putAcc t i (AccRow.zeroOf r.int32) else s

/-- The bytes of one drained row, or `FMTTAG` (R181). -/
def drainBytes (r : AccRow) (dfmt rnd : Nat) (sat : Bool) : Except Trap (List Byte) :=
  if r.int32 ≠ (dfmt == fmtINT32) then .error ⟨cFMTTAG, (if dfmt == fmtINT32 then fmtINT32 else fmtFP32) + 2 ^ 8 * r.code, 0, false⟩
  else .ok ((r.vals.map (fun x => leBytes (fmtBytes dfmt)
    (if r.int32 then x.toNat else encode (decodeLane fmtFP32 x.toNat) dfmt rnd sat))).flatten)

/-- Drains rows to scratchpad from the i-th on. -/
def drainRows (t a : Nat) (d : Int) (dfmt rnd : Nat) (sat clr : Bool) : Nat → Nat → State → State
  | 0, _, s => mxNext s t
  | n + 1, i, s =>
    let r := (s.tile t).accRow (a + i)
    match accTrap s t (a + i) with
    | some tr => mxTrap s t i tr
    | none =>
    match drainBytes r dfmt rnd sat with
    | .error tr => mxTrap s t i tr
    | .ok bs =>
      match effSpad (d * 64 + (i * bs.length : Nat)) bs.length .write with
      | .error tr => mxTrap s t i tr
      | .ok off =>
        drainRows t a d dfmt rnd sat clr n (i + 1)
          (clearAcc (s.store (mxWho s t) off [⟨spadBase t + off, bs.length⟩] bs) t (a + i) r clr)

/-- The peer tile and receive slot that a peer register names for a tile, or `APERTURE` (R182). -/
def readPeer (v : Tile) (t pidx : Nat) : Except Trap (Nat × Nat) :=
  let x := (mapGet 0 v.csr.mxpeer pidx).toNat
  let u := t / 512 * 512 + bitsOf x 15 12 * 32 + bitsOf x 11 7
  if !bitOf x 31 ∨ 23 < bitsOf x 11 7 ∨ u = t then .error (trapAperture x kMATRIX .write) else .ok (u, bitsOf x 1 0)

/-- The peer and slot of a row: read as the row begins, then kept. -/
def Tile.rowPeer (v : Tile) (t pidx : Nat) : Except Trap (Nat × Nat) :=
  match v.mx.prog.peer with
  | some p => .ok p
  | none => readPeer v t pidx

/-- Counts cycles of a stall or a receive against its limit, unless the task is held (R65). -/
def mxStall (s : State) (t : Nat) : State :=
  let d := s.draw
  let n := if (s.tile t).taskHeld then 0 else 1 + d.1
  modMx d.2 t (fun m => { m with prog := { m.prog with waited := m.prog.waited + n } })

/-- A drain into a peer begins or goes on: the register is read when the row begins; the rows leave as the peer accepts them
(R183). A drain into a quarantined tile raises `POISON` (R435). -/
def drainPeer (s : State) (t pidx : Nat) : State :=
  let v := s.tile t
  match v.rowPeer t pidx with
  | .error tr => mxTrap s t v.mx.prog.rowsDone tr
  | .ok p =>
    if mapGet false s.pkg.quarantined p.1 then
      let d := s.draw
      mxTrap d.2 t v.mx.prog.rowsDone ⟨cPOISON, d.1, 0x05, false⟩
    else mxStall (modMx s t (fun m => { m with prog := { m.prog with peer := some p } })) t

/-- MS_DRAIN (R181, R183). -/
def execMsDrain (t : Nat) (s : State) : Host.Outcome State Fault Refusal :=
  let v := s.tile t
  .next <| match v.stepRow with
  | some (.drain dst clr abase cnt daddr dfmt rnd sat pidx _) =>
    let s1 := mxTick s t
    (match v.effAcc abase.toNat cnt.toNat with
    | .error tr => mxTrap s1 t 0 tr
    | .ok a =>
      if dst = 1 then drainPeer s1 t pidx.toNat
      else drainRows t a (daddr.toNat + v.loopAdd (·.dd)) dfmt.toNat rnd.toNat (sat == 1) (clr == 1) (cnt.toNat + 1) 0 s1)
  | _ => s

/-! ## Receiving (R183, R184) -/

/-- MS_WAIT (R184): a receive begins, or waits for its rows; a fence completes, since every earlier drain of the block has. -/
def execMsWait (t : Nat) (s : State) : Host.Outcome State Fault Refusal :=
  let v := s.tile t
  .next <| match v.stepRow with
  | some (.wait kind abase cnt _ pidx _) =>
    let s1 := mxTick s t
    if kind = 1 then mxNext s1 t
    else
      (match v.effAcc abase.toNat cnt.toNat with
      | .error tr => mxTrap s1 t 0 tr
      | .ok _ =>
        match v.rowPeer t pidx.toNat with
        | .error tr => mxTrap s1 t v.mx.prog.rowsDone tr
        | .ok p => mxStall (modMx s1 t (fun m => { m with prog := { m.prog with peer := some p } })) t)
  | _ => s

/-- One more row of a peer drain or a receive is done: the row completes with its last. -/
def mxCount (s : State) (t cnt : Nat) (resetWait : Bool) : State :=
  if (s.tile t).mx.prog.rowsDone = cnt then mxNext s t
  else modMx s t (fun m => { m with prog :=
    { m.prog with rowsDone := m.prog.rowsDone + 1, waited := if resetWait then 0 else m.prog.waited } })

/-- The drain of a tile that stands begun toward a receiver's slot: its accumulator row, clear flag and row count. -/
def drainTo (v : Tile) (t slot : Nat) : Option (Nat × Bool × Nat) :=
  match v.stepRow with
  | some (.drain _ clr abase cnt _ _ _ _ _ _) =>
    if v.mx.prog.peer = some (t, slot) then
      (match v.effAcc abase.toNat cnt.toNat with
      | .ok a => some (a + v.mx.prog.rowsDone, clr == 1, cnt.toNat)
      | .error _ => none)
    else none
  | _ => none

/-- DRAINED_ROW_ACCEPT (R183): a receiving tile takes the next row of the sender that its peer register names. -/
def execDrainedRowAccept (t : Nat) (s : State) : Host.Outcome State Fault Refusal :=
  let v := s.tile t
  .next <| match v.stepRow, v.mx.prog.peer with
  | some (.wait _ abase cnt slot _ _), some (u, _) =>
    (match drainTo (s.tile u) t slot.toNat, v.effAcc abase.toNat cnt.toNat with
    | some (i, clr, n), .ok a =>
      let x := (s.tile u).accRow i
      let row := a + v.mx.prog.rowsDone
      match accTrap s u i with
      | some tr => mxTrap s u (s.tile u).mx.prog.rowsDone tr
      | none =>
      let s1 := mxCount (clearAcc s u i x clr) u n true
      let y := (s1.tile t).accRow row
      match accTrap s1 t row with
      | some tr => mxTrap s1 t v.mx.prog.rowsDone tr
      | none =>
      if y.int32 ≠ x.int32 then mxTrap s1 t v.mx.prog.rowsDone ⟨cFMTTAG, y.code + 2 ^ 8 * x.code, 0, false⟩
      else mxCount (s1.putAcc t row ⟨x.int32, List.zipWith (accAdd x.int32) y.vals x.vals⟩) t cnt.toNat false
    | _, _ => s)
  | _, _ => s

/-- Whether a stall is longer than a limit in units of 256 cycles; 0 is unbounded. -/
def mxOver (v : Tile) (limit : Nat) : Bool := limit != 0 && decide (limit * 256 < v.mx.prog.waited)

/-- DRAIN_STALL_EXPIRY (R183): a peer drain stalled longer than its limit raises `WAITEXP` at the sender. -/
def execDrainStallExpiry (t : Nat) (s : State) : Host.Outcome State Fault Refusal :=
  let v := s.tile t
  .next <| match v.stepRow with
  | some (.drain dst _ _ _ _ _ _ _ _ limit) =>
    if dst = 1 ∧ mxOver v limit.toNat then mxTrap s t v.mx.prog.rowsDone ⟨cWAITEXP, 5, 0, false⟩ else s
  | _ => s

/-- MS_WAIT_EXPIRY (R184): a receive whose limit has run out raises `WAITEXP` with the rows accepted. -/
def execMsWaitExpiry (t : Nat) (s : State) : Host.Outcome State Fault Refusal :=
  let v := s.tile t
  .next <| match v.stepRow with
  | some (.wait kind _ _ _ _ limit) =>
    if kind = 0 ∧ limit ≠ 0 ∧ limit.toNat * 256 ≤ v.mx.prog.waited then mxTrap s t v.mx.prog.rowsDone ⟨cWAITEXP, 6, v.mx.prog.rowsDone, false⟩ else s
  | _ => s

/-! ## Loops and the end of a block (R185, R186) -/

/-- MS_LOOP (R185). -/
def execMsLoop (t : Nat) (s : State) : Host.Outcome State Fault Refusal :=
  .next <| match (s.tile t).stepRow with
  | some (.loop target lvl iter _ _ _ _ _ _) => modMx s t (fun m => m.leave (m.loop target.toNat (lvl == 0) iter.toNat))
  | _ => s

/-- MS_END (R186): the block is complete; its class-4 record (R247), but for a block that has trapped (R187). -/
def execMsEnd (t : Nat) (s : State) : Host.Outcome State Fault Refusal :=
  let v := s.tile t
  .next <| match v.stepRow with
  | some .fin =>
    if v.mx.wind.isSome then mxNext s t
    else
    let s1 := mxTick s t
    let cycles := ((s1.tile t).cycle - v.mx.startCycle) % 2 ^ 32
    (modMx s1 t (fun m => { m with busy := false })).event t
      ⟨4, s.slot t, 3, v.mx.utag, BitVec.ofNat 64 (v.mx.row + 2 ^ 32 * cycles)⟩
  | _ => s

/-! ## The forms (R244, R245) -/

/-- A block of the resident configuration begins at a step row. -/
def startBlock (v : Tile) (first : Nat) (utag : Word) : Tile :=
  { v with mx := ⟨true, first, utag, 0, 0, none, none, ⟨0, 0, none⟩, v.cycle, none⟩ }

/-- MX_ISSUE (R244). -/
def execMxIssue (a : Reg) (s : State) : Host.Outcome State Fault Refusal :=
  let x := s.rn a
  let v := s.tile s.ft
  let first := bitsOf x 4 0
  perform <| ctlOnly s <|
    if bitsOf x 31 5 ≠ 0 then .illegal s
    else if v.fabric.active.isNone then .resource s
    else if !v.fabric.matrix then .trap (Rej.trap ⟨2, 0, 0, 0, 24⟩ 0) s
    else if v.fabric.act.steps.length ≤ first then .trap (Rej.trap ⟨2, 0, 0, 0, 80⟩ 0) s
    else if v.mx.busy then .wait s
    else .done (s.modTile s.ft (fun v => startBlock v first (BitVec.ofNat 32 (bitsOf x 63 32))))

/-- MX_WAIT (R245): the oldest class-4 record of the tag, once the sequencer is idle and no such record is still held. -/
def execMxWait (d a : Reg) (s : State) : Host.Outcome State Fault Refusal :=
  let x := s.rn a
  let v := s.tile s.ft
  let tag := BitVec.ofNat 32 x
  perform <| ctlOnly s <|
    if 2 ^ 32 ≤ x then .illegal s
    else if v.mx.busy || v.pending.any (fun r => r.cls == 4 && r.slot == s.fslot) then .wait s
    else match (taskRecords v s.fslot).find? (fun e => e.1.cls == 4 && e.1.tag == tag) with
    | some (_, i) => .ret ((dropRecord s i).markSeen (s.ft, s.fslot) kMATRIX (fun o => o == x)) d 0
    | none => .ret s d 1

end Sys2Proof.Machine
end

