-- ==== Sys2Proof/Machine/Records.lean ====
section
/-! DEFINITION. Machine/Records.lean: completion records (R401), the host fault ring (R450), completion bits (R444), and the
digests that records and checkpoints carry (R440 to R442). -/

namespace Sys2Proof.Machine

/-! ## Completion records -/

/-- The model address of a record address, where it is usable (R396, R401): bits [51:5], TGT in [59:56]. -/
def recordAddr (a : Nat) : Option Nat :=
  let tgt := bitsOf a 59 56
  if a % 32 ≠ 0 ∨ bitsOf a 55 52 ≠ 0 ∨ bitsOf a 63 60 ≠ 0 ∨ 3 ≤ tgt then none
  else if tgt = 0 then (if bitsOf a 51 0 + 32 ≤ 3 * 2 ^ 40 then some (bitsOf a 51 0) else none)
  else some (hostAddr (tgt - 1) (bitsOf a 51 0))

/-- A completion record (R401). -/
structure Completion where
  status : Nat
  cause : Nat
  field : Nat
  typ : Nat
  idx : Nat
  seq : Nat
  /-- offending value, where the manual states one -/
  val : Option Nat
  digest : Nat
deriving DecidableEq, Repr, Inhabited

/-- The 32 bytes of a record (R401). Where the manual states no offending value, `free` stands in its place (log entry 5). -/
def Completion.bytes (c : Completion) (pkg free : Nat) : List Byte :=
  leBytes 1 c.status ++ leBytes 1 c.cause ++ leBytes 1 c.field ++ leBytes 1 (c.typ % 16) ++ leBytes 1 pkg ++ leBytes 1 0 ++
    leBytes 2 c.idx ++ leBytes 8 c.seq ++ leBytes 8 (c.val.getD free) ++ leBytes 8 c.digest

/-- A record for the host fault ring waits for room there (R450). -/
def ringRecord (s : State) (bs : List Byte) : State := s.modRegs (fun r => { r with ringWait := r.ringWait ++ [bs] })
def raiseMsix (s : State) (v : Nat) : State := s.modRegs (fun r => { r with msix := v :: r.msix })

/-- Lowest sequence whose completion bit is clear, from one on. -/
def lowestClear (done : List (Nat × Bool)) : Nat → Nat → Nat
  | 0, n => n
  | fuel + 1, n => if mapGet false done n then lowestClear done fuel (n + 1) else n

/-- `HOST_JDONE` (R447). -/
def State.jdone (s : State) : Nat := lowestClear s.pkg.completed (s.pkg.completed.length + 1) 0

/-- Whether either copy of an entry's completion bit is set (R444). -/
def State.isComplete (s : State) (q : Nat) : Bool := mapGet false s.pkg.completed q || mapGet false s.pkg.completed2 q

/-- Completes a journal entry (R401, R444): its bit is set in both copies, then its record is written, once. -/
def complete (s : State) (addr : Nat) (c : Completion) : State :=
  if s.isComplete c.seq then s
  else
    let d := s.draw
    let s1 := d.2.modPkg (fun p => { p with completed := mapSet false p.completed c.seq true, completed2 := mapSet false p.completed2 c.seq true })
    let bs := c.bytes s.pkg.num d.1
    match recordAddr addr with
    | some a => raiseMsix (s1.put a bs) 0
    | none => ringRecord s1 bs

/-! ## Reading the tasks of a launch -/

/-- The run state of an actor of a launch. -/
def State.actorSt (s : State) (q x : Nat) : ActorSt := mapGet ActorSt.zero (((s.launch q).map (·.actors)).getD []) x
def State.modActor (s : State) (q x : Nat) (f : ActorSt → ActorSt) : State :=
  s.modLaunch q (fun l => { l with actors := mapSet ActorSt.zero l.actors x (f (mapGet ActorSt.zero l.actors x)) })

/-- Package of an actor of a launch. -/
def Launch.pkgOf (l : Launch) (own x : Nat) : Nat := if l.hasMap then l.map.getD x 0 else own
def State.mine (s : State) (l : Launch) (x : Nat) : Bool := l.pkgOf s.pkg.num x == s.pkg.num

/-! ## Digests (R440 to R442) -/

/-- Digests of a launch by logical index: of ended tasks, then of those bound. -/
def taskDigests (s : State) (q : Nat) : List (Nat × DWord) :=
  (s.tasksOf q).foldl (fun m k => if k.2.2.stat = .ended then m else mapInsert m k.2.2.lidx (s.ext k.1 k.2.1).digest) (s.lext q).finals

/-- The launch digest: task digests chained in logical-index order (R441). -/
def chainDigest (seed : Nat) (ds : List (Nat × DWord)) : Nat :=
  ds.foldl (fun l d =>
    let o := gleam ⟨d.2.toNat % 2 ^ 32, d.2.toNat / 2 ^ 32, d.1, 0x3FFFFFFF⟩ l
    o.x0 + o.x1 * 2 ^ 32) seed

/-- The reference digest of a launch's checkpoint, 0 standing for its completion (R442). -/
def refDigest (s : State) (seq n : Nat) : Option Nat :=
  let r := s.regs.plxRef.toNat
  let base := bitsOf r 51 5 * 32
  ((List.range (bitsOf r 63 52)).find? (fun i =>
    s.homeNat (base + 32 * i) 8 == seq && s.homeNat (base + 32 * i + 8) 8 == n)).map (fun i => s.homeNat (base + 32 * i + 16) 8)

/-- Adds a term to the digest of a logical index that holds no task slot. -/
def State.addFinal (s : State) (q lidx x : Nat) : State :=
  s.modLext q (fun e => { e with finals := mapInsert e.finals lidx (mapGet 0 e.finals lidx + BitVec.ofNat 64 x) })

end Sys2Proof.Machine
end

