-- ==== Sys2Proof/Machine/Tasks.lean ====
section
/-! DEFINITION. Machine/Tasks.lean: how tasks run on a tile: enabling (R312), firings (R190, R286, R330), switching and saving
(R62, R287, R406 to R409), spawned tasks (R288, R411), and the system forms (R203, R283 to R289). -/

namespace Sys2Proof.Machine

/-! ## Enabling (R312) -/

/-- Tile of the producer's end of an arc of a launch: the proxy's, else the window's. -/
def arcEnd (l : Launch) (a : Nat) : Option Nat :=
  match l.proxyTile.find? (fun x => x.1 == a) with
  | some x => some x.2
  | none => (l.arcTile.find? (fun x => x.1 == a)).map (·.2)

/-- Input tokens and output space of an actor's firing in a phase on a tile. -/
def tokensReady (s : State) (q : Nat) (l : Launch) (g : Graph) (t x ph : Nat) : Bool :=
  let m := modeOf g l x
  (g.inArcs x).all (fun a => match s.win t (windowKey q a) with
    | some w => decide (g.consCount m a ph ≤ w.occ)
    | none => g.consCount m a ph == 0) &&
  (g.outArcs x).all (fun a => match arcEnd l a with
    | some u => (match s.win u (windowKey q a) with
      | some w => decide (g.prodCount m a ph ≤ freeCount w (s.prod t u (windowKey q a)))
      | none => g.prodCount m a ph == 0)
    | none => g.prodCount m a ph == 0)

/-- Rows of a view: the product of its extents but the last (R12). -/
def viewRows (b : Bind) (rank : Nat) : Nat := (b.extent.take (rank - 1)).foldl (· * ·) 1

/-- Rank by which a bind's extents are counted: the tensor's, or the extents given. -/
def bindRank (s : State) (ctx : Nat) (b : Bind) : Nat :=
  match descOf s ctx b.tensor with
  | some d => d.rank
  | none => (b.extent.filter (fun e => e != 0)).length

/-- Rows of a memory actor's view; 0 where the launch has no bind for it. -/
def rowsOf (s : State) (l : Launch) (x : Nat) : Nat :=
  match l.binds.find? (fun b => b.actor == x) with | some b => viewRows b (bindRank s l.ctx b) | none => 0

/-- Rows after which a source stops: the switch count, or all of them (R316, R318). -/
def sourceLimit (l : Launch) (rows : Nat) : Nat := match l.modeReq with | some m => min m.count rows | none => rows

/-- The rate sets that a component runs through, each with its graph iterations, where its memory actor `y` makes `stop` firings: set
`m` from firing `base`, then those that the requests select at their switch counts (R314, R321). -/
def spansAt (g : Graph) (y stop : Nat) : Nat → Nat → List ModeReq → List (Nat × Nat)
  | m, base, [] => [(m, (stop - base) / g.firings m y)]
  | m, base, r :: rs => (m, (r.count - base) / g.firings m y) :: spansAt g y stop r.newMode r.count rs

/-- The memory actor whose rows say how long the component of an actor runs: a source, else any. -/
def Graph.pacer (g : Graph) (x : Nat) : Option Nat :=
  ((g.component x).find? (fun y => (g.actor y).kind == 1)).orElse (fun _ => (g.component x).find? (fun y => (g.actor y).kind != 0))

/-- The rate sets of an actor's component up to the next eclipse, with the graph iterations in each: one in the starting set where the
component holds no memory actor (R322); else as many as the rows ahead of the eclipse allow, which is a position in the stream and no
moment (R319, log entry 14). -/
def spansOf (s : State) (q : Nat) (l : Launch) (g : Graph) (x : Nat) : Option (List (Nat × Nat)) :=
  if !g.hasMem x then some [(modeOf g l x, 1)]
  else (g.pacer x).map (fun y =>
    spansAt g y (sourceLimit l (rowsOf s l y)) l.startMode 0 ((s.lext q).reqs.take (s.lext q).reqsDone))

/-- How many firings an actor makes before the next eclipse (R321). -/
def firingLimit (s : State) (q : Nat) (l : Launch) (g : Graph) (x : Nat) : Option Nat :=
  (spansOf s q l g x).map (fun ps => (ps.map (fun p => p.2 * g.firings p.1 x)).foldl (· + ·) 0)

/-- How many tokens an arc carries before the next eclipse, its initial ones aside. -/
def arcTotal (s : State) (q : Nat) (l : Launch) (g : Graph) (a : Nat) : Option Nat :=
  (g.arcs[a]?).bind (fun y => (spansOf s q l g y.prod).map (fun ps =>
    (ps.map (fun p => p.2 * (g.firings p.1 y.prod / (g.actor y.prod).phases) * g.prodSum p.1 a)).foldl (· + ·) 0))

/-- Whether a firing of a bound task is enabled (R284, R312). -/
def enabled (s : State) (t slot : Nat) : Bool :=
  match s.task t slot with
  | none => false
  | some k =>
    match s.launch k.launch with
    | none => false
    | some l =>
      k.firing.isNone && k.stat != .ended && l.stat == .running && decide ((s.lext k.launch).due ≤ (s.ext t slot).part) &&
        (if k.spawned then k.firings == 0
         else match s.graph k.launch with
          | none => false
          | some g =>
            !(s.actorSt k.launch k.actor).stopped &&
              (match firingLimit s k.launch l g k.actor with | some n => decide (k.firings < n) | none => true) &&
              tokensReady s k.launch l g t k.actor k.phase)

/-- The waiting tasks of a tile whose firing is enabled become READY, each behind the others (R406, R407). -/
def markReady (s : State) (t : Nat) : State :=
  (List.range 8).foldl (fun s sl => match s.task t sl with
    | some k => if k.stat = .waiting ∧ enabled s t sl = true then
        { s.modTask t sl (fun k => { k with stat := .ready, readyAt := s.stamp, aged := 0 }) with stamp := s.stamp + 1 } else s
    | none => s) s

/-! ## Contexts (R62, R190) -/

/-- Bytes from offset 0 as a sparse memory. -/
def imageOf (bs : List Byte) : List (Nat × Byte) := putBytes [] 0 bs

/-- A core as its task's container loads it (R34, R38). -/
def freshCore (c : List NofSection) (i : Nat) : Core :=
  let mp := (sectBytes c 6 i).getD []
  { Core.reset with
    imem := imageOf ((sectBytes c 4 i).getD [])
    dmem := imageOf ((sectBytes c 5 i).getD [])
    imap := BitVec.ofNat 256 (leNat (mp.take 32)) }

/-- The context of a task that has never been resident: registers 0, but x10 of a spawned one (R190, R288). -/
def freshContext (s : State) (k : Task) (e : TaskExt) : Context :=
  let c := s.container k.container
  let ctl := freshCore c 0
  ⟨[if k.spawned then { ctl with x := mapSet 0 [] 10 e.arg } else ctl, freshCore c 1, freshCore c 2], CtlCsr.reset, Fabric.reset, []⟩

/-- The context that stands on a tile. -/
def contextOf (v : Tile) : Context := ⟨[v.ctl, v.ldr, v.sto], v.csr, v.fabric, v.traps⟩

/-- Puts a context on a tile; the accumulator panel becomes FP32 +0 (R173). -/
def putContext (v : Tile) (c : Context) : Tile :=
  { v with ctl := c.cores.getD 0 Core.reset, ldr := c.cores.getD 1 Core.reset, sto := c.cores.getD 2 Core.reset
           csr := c.csr, fabric := c.fabric, traps := c.traps, mx := Mx.reset, acc := [], accPoison := [] }

/-- The tile loses its task: cores stopped, nothing resident. -/
def clearTile (v : Tile) : Tile := { putContext v ⟨[], CtlCsr.reset, Fabric.reset, []⟩ with resident := none }

/-- An access held by a `READY` that came while its task was away is tried again (R64). -/
def Core.retryReady (k : Core) : Core :=
  if k.held.any (·.ready) then { k with held := none, stat := if k.stat = .held then .run else k.stat } else k

/-- The same of a port. -/
def Port.retryReady (p : Port) : Port := if p.held.any (·.ready) then { p with held := none } else p

/-- The same of a copy; one that no `READY` has covered is tried once more all the same (R63). -/
def Copy.retry (c : Copy) : Copy := { c with held := c.held.map (fun h => { h with ready := true }) }

def Context.retryReady (c : Context) : Context :=
  { c with
    cores := c.cores.map Core.retryReady
    fabric := { c.fabric with ports := c.fabric.ports.map (fun p => (p.1, p.2.retryReady)) } }

/-- The held access has been swapped out (R64). -/
def Held.out (h : Held) : Held := { h with swapped := true, ready := false }

/-- A core's held access has been swapped out; its instruction, retried, stays one that has (R64). -/
def Core.holdOut (k : Core) : Core :=
  if k.held.isSome then { k with held := k.held.map Held.out, out := some k.instret } else k

/-- The same of a port. -/
def Port.holdOut (x : Port) (out : Bool) : Port :=
  if x.held.isSome then { x with held := x.held.map Held.out, out := some (x.at' out) } else x

/-- Every held access of a tile's task has been swapped out. -/
def Tile.holdsOut (v : Tile) (slot : Nat) : Tile :=
  { v with
    ctl := v.ctl.holdOut, ldr := v.ldr.holdOut, sto := v.sto.holdOut
    fabric := { v.fabric with ports := v.fabric.ports.map (fun p => (p.1, p.2.holdOut (portOut p.1))) }
    copies := v.copies.map (fun c => if c.slot = slot then { c with held := c.held.map Held.out } else c) }

/-- Whether an access of a tile's task is held that has been swapped out already. -/
def Tile.wasOut (v : Tile) (slot : Nat) : Bool :=
  [v.ctl, v.ldr, v.sto].any (fun k => k.held.any (·.swapped)) || v.fabric.ports.any (fun p => p.2.held.any (·.swapped)) ||
    v.copies.any (fun c => c.slot == slot && c.held.any (·.swapped))

/-- Saves the context of a tile's task, with a state, and frees the tile (R62, R63): the fabric as it stands at its row boundary (R294),
both planes whole (R93), and in the task's context frame where it has one. -/
def saveTask (s : State) (t slot : Nat) (st : TaskStat) : State :=
  let v := standFabric (s.tile t)
  let c := contextOf { v with fabric := { v.fabric.cycleEnd with expanding := false } }
  let s1 := (s.modTask t slot (fun k => { k with saved := some c, stat := st, prio := k.basePrio, aged := 0 })).modTile t clearTile
  match s.task t slot with
  | some k => (match k.frame with
    | some n => s1.putFrame (ctxFrameAddr s (t / 512) n) (frameParts k (s.ext t slot) c)
    | none => s1)
  | none => s1

/-- What comes back to a tile with a task: the context that it was saved with, by way of its frame where it has one (R63, R439), or that of a task which
has never been resident; the steeping state and the binding slots. -/
def incoming (s : State) (t slot : Nat) (k : Task) : Context × SteepKeys × List (Nat × Binding) :=
  let e := s.ext t slot
  match k.saved, k.frame with
  | some c, some n => readFrame s (ctxFrameAddr s (t / 512) n) k e c
  | some c, none => (c, e.steep, e.binds)
  | none, _ => (freshContext s k e, e.steep, e.binds)

/-- The task that has come to a tile out of a frame with an uncorrectable word traps with `POISON`, as a fault, before its first instruction; the whole
task has read it (R431, R432; log entry 19). -/
def poisonTask (s : State) (t slot w : Nat) : State :=
  let stop (k : Core) : Core := if k.stat = .run ∨ k.stat = .trapped ∨ k.stat = .held then { k with stat := .faulted } else k
  let s1 := s.modTile t (fun v => stopFabric { v with ctl := stop v.ctl, ldr := stop v.ldr, sto := stop v.sto, fabric := v.fabric.markFrozen true })
  deliverFault s1 t (s1.taskLaunch t slot) (mkRec s1 t slot 0 (w1Core (s1.tile t).ctl.pc) ⟨cPOISON, w, 0x08, false⟩ true)

/-- Makes a task resident on a free tile: the accesses that were held are tried again (R63, R64), and a frame lent for a swap-out goes
back. -/
def loadTask (s : State) (t slot : Nat) : State :=
  match s.task t slot with
  | none => s
  | some k =>
    let x := incoming s t slot k
    let c := x.1.retryReady
    let bad := if k.saved.isNone then none else k.frame.bind (fun n => framePoison s (ctxFrameAddr s (t / 512) n))
    let s1 := ((strikeContext (s.modTile t (fun v =>
        { putContext v c with resident := some slot, copies := v.copies.map (fun c => if c.slot = slot then c.retry else c) })) t k.ctx).modTask t slot
      (fun k => { k with stat := .resident, saved := none, fresh := false, frame := if k.lent then none else k.frame, lent := false })).modExt
        t slot (fun e => { e with steep := x.2.1, binds := x.2.2, heldFor := 0 })
    match bad with
    | some w => poisonTask s1 t slot w
    | none => s1

/-- Numbers of the context frames of a die that are in use (R405). -/
def usedFrames (s : State) (d : Nat) : List Nat :=
  s.tiles.flatMap (fun v => if v.1 / 512 = d then v.2.tasks.filterMap (fun k => k.2.bind (·.frame)) else [])
/-- Context frames of a die that are in use (R405). -/
def framesUsed (s : State) (d : Nat) : Nat := (usedFrames s d).length
/-- Frames of a die's pool (`DIE_CTXF_POOL`). -/
def framePool (s : State) (d : Nat) : Nat := bitsOf (s.die d).ctxfPool.toNat 63 52

/-- Gives a task that holds none the lowest free frame of its die's pool, where there is one (log entry 19). -/
def giveFrame (s : State) (t slot : Nat) (lent : Bool) : State :=
  match (List.range (framePool s (t / 512))).find? (fun n => !(usedFrames s (t / 512)).contains n) with
  | some n => s.modTask t slot (fun k => if k.frame.isSome then k else { k with frame := some n, lent := lent })
  | none => s

/-! ## Choosing a task (R407 to R409) -/

/-- The group id of the barrier at which a control core is blocked, if it is. -/
def Core.barrier (k : Core) : Option Nat :=
  if k.blocked && k.stat == .run then
    match decodeFetched k.iword k.ilen with
    | .grWait _ a _ => some (bitsOf (k.rx a).toNat 7 0)
    | .grBar _ a _ => some (bitsOf (k.rx a).toNat 7 0)
    | _ => none
  else none

/-- Whether a member waits at a barrier of a group for its present phase, on its tile or saved (R409). -/
def memberWaits (s : State) (g : Grp) : Bool :=
  s.tiles.any (fun v => v.2.tasks.any (fun x => match x.2 with
    | some k =>
      let ctl : Option Core := if v.2.resident = some x.1 then some v.2.ctl else k.saved.bind (fun c => c.cores[0]?)
      k.launch == g.launch && g.members.contains k.lidx && mapGet none (v.2.ext x.1).arrived g.gid == some g.phase &&
        ctl.bind Core.barrier == some g.gid
    | none => false))

/-- Whether a task has yet to arrive where another member waits (R409). -/
def awaited (s : State) (k : Task) : Bool :=
  s.pkg.groups.any (fun e => match e.2 with
    | some g => g.launch == k.launch && g.members.contains k.lidx && !g.arrived.contains k.lidx && memberWaits s g
    | none => false)

/-- Order of a READY task: awaited ones first, then by level, then by age (R407 to R409). -/
def rankOf (s : State) (k : Task) : Nat × Nat := (if awaited s k then 0 else k.prio + 1, k.readyAt)
def rankBelow (a b : Nat × Nat) : Bool := a.1 < b.1 || (a.1 == b.1 && a.2 < b.2)

/-- In serial re-execution only the READY task of lowest logical index runs (R442). -/
def serialOk (s : State) (t slot : Nat) (k : Task) : Bool :=
  (s.lext k.launch).serial.isNone ||
    (s.tasksOf k.launch).all (fun x => (x.1 == t && x.2.1 == slot) || (x.2.2.stat != .resident && (x.2.2.stat != .ready || k.lidx < x.2.2.lidx)))

/-- Slots of a tile with a READY task that may run. -/
def readySlots (s : State) (t : Nat) : List (Nat × Task) :=
  (List.range 8).filterMap (fun sl => match s.task t sl with
    | some k => if k.stat == .ready && serialOk s t sl k && ((s.launch k.launch).map (·.stat) == some .running) then some (sl, k) else none
    | none => none)

/-- The first READY task of a tile. -/
def choose (s : State) (t : Nat) : Option Nat :=
  ((readySlots s t).foldl (fun (b : Option (Nat × (Nat × Nat))) x =>
    let r := rankOf s x.2
    match b with
    | some y => if rankBelow r y.2 then some (x.1, r) else some y
    | none => some (x.1, r)) none).map (·.1)

/-- Whether a task of a launch may become resident: in the serial re-execution of a launch that runs on other packages too, only while no task of it
is resident on any of them and none there is READY below it (R442). How a package learns that the manual does not say: it is free (log entry 83). -/
def mayRun (s : State) (q : Nat) : State × Bool :=
  if (s.lext q).serial.isNone ∨ (s.otherPkgs q).isEmpty = true then (s, true)
  else let d := s.draw; (d.2, d.1 % 2 == 1)

/-- TASK_SWITCH (R407): a tile whose fabric and cores are free makes its first READY task resident, the task that last held it
being saved. One that holds the tile still is not bound to the fabric anew: its accumulator panel stays (log entry 159). -/
def execTaskSwitch (t : Nat) (s : State) : Host.Outcome State Fault Refusal :=
  let s1 := markReady s t
  let v := s1.tile t
  let last : Option Task := v.resident.bind v.task
  .next <|
    if (match last with | some k => k.stat == TaskStat.resident | none => false) then s
    else match choose s1 t with
    | none => s1
    | some sl =>
      let go := mayRun s1 (s1.taskLaunch t sl)
      if !go.2 then go.1
      else if v.resident = some sl then go.1.modTask t sl (fun k => { k with stat := .resident })
      else
        let s2 := match v.resident, last with
          | some o, some k => if k.stat = TaskStat.ended then go.1.modTile t clearTile else saveTask go.1 t o k.stat
          | _, _ => go.1
        loadTask s2 t sl

/-- TASK_PROMOTION (R408). -/
def execTaskPromotion (t slot : Nat) (s : State) : Host.Outcome State Fault Refusal :=
  .next <| match s.task t slot with
  | some k =>
    if k.stat = .ready ∧ 2 ^ 16 ≤ k.aged ∧ 0 < k.prio then
      { s.modTask t slot (fun k => { k with prio := k.prio - 1, aged := 0, readyAt := s.stamp }) with stamp := s.stamp + 1 }
    else s
  | none => s

/-- Whether every copy of a task in flight is held, its sequencer is idle and no expansion is in progress, so that its context can be
saved (R63, R93, R173). -/
def savable (v : Tile) (slot : Nat) : Bool :=
  !v.mx.busy && !v.fabric.expanding && v.copies.all (fun c => c.slot != slot || c.held.any (fun h => !h.ready))

/-- Whether the resident task of a tile has been held past THRESH, by no access that was swapped out before (R62, R64). -/
def swapDue (s : State) (t slot : Nat) : Bool :=
  let th := bitsOf (s.die (t / 512)).swapCtl.toNat 23 0
  let v := s.tile t
  v.taskHeld && th != 0 && decide (th < (v.ext slot).heldFor) && !v.wasOut slot

/-- SWAP_OUT (R62 to R64): a task held past THRESH is saved, where it has a frame or the pool a free one; in serial
re-execution a blocked task is saved at once (R442). A frame is not taken while a round is open (R399). -/
def execSwapOut (t : Nat) (s : State) : Host.Outcome State Fault Refusal :=
  let v := s.tile t
  .next <| match v.resident with
  | none => s
  | some sl => match v.task sl with
    | none => s
    | some k =>
      let due := swapDue s t sl
      let serial := (s.lext k.launch).serial.isSome && v.ctl.blocked
      let s1 := if s.pkg.round.isSome then s else giveFrame s t sl true
      if k.stat = .resident ∧ (due || serial) = true ∧ savable v sl = true ∧ (s1.task t sl).any (fun k => k.frame.isSome) = true then
        if due then (saveTask (s1.modTile t (fun v => v.holdsOut sl)) t sl .saved).modExt t sl (fun e => { e with heldFor := 0 })
        else (saveTask s1 t sl .ready).modExt t sl (fun e => { e with heldFor := 0 })
      else s

/-! ## Firings (R190, R40, R286, R330) -/

/-- The configuration of a region whole in the idle plane, as a firing start needs it (R40, R306). -/
def wholeRegion (s : State) (t : Nat) (c : List NofSection) (n : Nat) : State :=
  let f := (s.tile t).fabric
  let s1 := if f.staged ∧ (f.plane f.idle).conf = n then s else stageOn s t (contImgs c n) n
  s1.modTile t (fun v => { v with fabric := { v.fabric with expanding := false } })

/-- Stages and installs the configuration of a region on a tile, as a firing start does (R40, R306). -/
def residentRegion (s : State) (t : Nat) (c : List NofSection) (region : Nat) : State :=
  match (if region = 0xFF then none else regionConf c region) with
  | none => s
  | some n => installOn (wholeRegion s t c n) t

/-- Whether a port binding of a spawned task's region has another page size than its tensor, which no launch validation has looked at (R58). -/
def spawnPageFail (s : State) (t slot : Nat) (k : Task) (region : Nat) : Bool :=
  let c := s.container k.container
  match (if !k.spawned ∨ region = 0xFF then none else regionConf c region) with
  | none => false
  | some n => stagedPageFail (wholeRegion s t c n) t slot

/-- Stages the successor's configuration in the idle plane (R40). -/
def stageRegion (s : State) (t : Nat) (c : List NofSection) (region : Nat) : State :=
  match (if region = 0xFF then none else regionConf c region) with
  | none => s
  | some n => stageOn s t (contImgs c n) n

/-- A core starts its part of a firing (R190). -/
def Core.start (k : Core) (off : Nat) : Core :=
  { k with pc := BitVec.ofNat 64 (coreBase + off), stat := .run, blocked := false, waited := 0, held := none, machine := false }

/-- The counts of the monitored windows of a firing begin at 0 (R329). -/
def zeroCounts (s : State) (q : Nat) (l : Launch) (g : Graph) (t x : Nat) : State :=
  let s1 := (g.inArcs x).foldl (fun s a => s.modWin t (windowKey q a) (fun w => { w with cCount := 0 })) s
  (g.outArcs x).foldl (fun s a => match arcEnd l a with
    | some u => s.modProd t u (windowKey q a) (fun p => { p with pCount := 0 })
    | none => s) s1

/-- Index of the sequencing entry of a task's next firing. -/
def nextEntry (s : State) (k : Task) : Option Nat :=
  if k.spawned then some k.firstEntry
  else match s.launch k.launch, s.graph k.launch with
  | some l, some g => entryFor (s.container k.container) k.firstEntry k.actor k.phase (modeOf g l k.actor)
  | _, _ => none

/-- Begins a firing of the resident task (R190, R312). A spawned task's region whose port pages do not fit is not installed: its control core takes
`CFGREJECT` at its first instruction (R58; log entry 141). -/
def startFiring (s : State) (t slot : Nat) (k : Task) (i : Nat) (e : SeqEntry) : State :=
  let c := s.container k.container
  let s1 := match s.launch k.launch, s.graph k.launch with
    | some l, some g => if k.spawned then s else zeroCounts s k.launch l g t k.actor
    | _, _ => s
  let bad := spawnPageFail s1 t slot k e.region
  let s2 := if bad then s1 else stageRegion (residentRegion s1 t c e.region) t c e.succ
  let s3 := (List.range 3).foldl (fun s j => s.modTile t (fun v => v.modCore j (fun x =>
    if e.starts j then
      let y := x.start (e.offs.getD j 0)
      if j = 0 ∧ v.traps.any (fun r => r.2 == 0) then { y with stat := .trapped } else y
    else { x with stat := .off }))) s2
  let s4 := s3.modTask t slot (fun k =>
    { k with firing := some ⟨k.phase, i, bit01 (e.starts 0) + 2 * bit01 (e.starts 1) + 4 * bit01 (e.starts 2), 0⟩ })
  if bad then raiseTrap s4 t slot 0 (w1Core (s4.tile t).ctl.pc) (tCfgDesc 17 0) else s4

/-- FIRING_START (R312): the resident task's next firing begins. -/
def execFiringStart (t slot : Nat) (s : State) : Host.Outcome State Fault Refusal :=
  .next <| match s.task t slot with
  | none => s
  | some k =>
    if (s.tile t).resident != some slot || k.stat != .resident || !enabled s t slot then s
    else match nextEntry s k with
    | none => s
    | some i => match (seqEntries (s.container k.container))[i]? with
      | some e => startFiring s t slot k i e
      | none => s

/-- Whether a firing starts the control core. -/
def Firing.ctl (f : Firing) : Bool := bitOf f.named 0

/-- Whether every condition of R286 holds, the cores whose part has ended given by `ended`. -/
def firingQuiet (s : State) (t slot : Nat) (f : Firing) : Bool :=
  let v := s.tile t
  let e := v.ext slot
  (List.range 3).all (fun j => !bitOf f.named j || (v.core j).stat == .ended) && v.traps.isEmpty && quiescent v &&
    v.copies.all (fun c => c.slot != slot) && v.fabric.ports.all (fun p => !portOut p.1 || p.2.queue.isEmpty) &&
    e.cmds.all (fun c => c.inSect.isSome) && e.sect.isNone && e.rollback.isNone

/-- The first monitored end at which a firing has moved fewer tokens than declared: its `RATE` (R330). Ends are taken by
window, the consumer's before the producer's. -/
def shortfall (s : State) (t : Nat) (k : Task) : Option Trap :=
  match s.launch k.launch, s.graph k.launch with
  | some l, some g =>
    if k.spawned then none
    else
      let ins := (g.inArcs k.actor).filterMap (fun a => (s.win t (windowKey k.launch a)).bind (fun w =>
        let d := declaredCount s k a false
        if w.mon && decide (w.cCount < d) then some (tRate s k a false true d w.cCount) else none))
      let outs := (g.outArcs k.actor).filterMap (fun a => (arcEnd l a).bind (fun u => (s.win u (windowKey k.launch a)).bind (fun w =>
        let d := declaredCount s k a true
        let n := (s.prod t u (windowKey k.launch a)).pCount
        if w.mon && decide (n < d) then some (tRate s k a true true d n) else none)))
      (ins ++ outs).head?
  | _, _ => none

/-- Closes the windows that a task has opened itself (R221). -/
def closeOwn (s : State) (t slot : Nat) : State :=
  (s.tile t).wins.foldl (fun s w => match w.2 with
    | some x => if x.launch.isNone && x.owner == slot then closeWindow s t w.1 else s
    | none => s) s

/-- Whether nothing will move a token of an arc's window any more. Its consumer is a compute actor whose task has ended, and so has the stream that
its producer pushes, which in a component without a memory actor only the producer's own package knows; or a sink that has taken the last
eclipse (R221, R318, R322; log entry 84). -/
def arcOver (s : State) (q : Nat) (l : Launch) (g : Graph) (a : Nat) : Bool :=
  (g.arcs[a]?).any (fun y =>
    if (g.actor y.cons).kind = 0 then
      (s.taskOfActor q y.cons).all (fun p => (s.task p.1 p.2).any (fun k => k.stat == .ended)) &&
        (g.hasMem y.cons || (s.mine l y.prod && (s.actorSt q y.prod).stopped))
    else (g.actor y.prod).kind == 0 && l.modeReq.isNone && (s.actorSt q y.cons).stopped)

/-- A window or proxy of a launch closes before the launch does; a restore opens it again (R221). -/
def closeArc (s : State) (q t a : Nat) : State :=
  match s.win t (windowKey q a) with
  | some w => (closeWindow s t (windowKey q a)).modLext q (fun e => { e with closed := e.closed ++ [(a, w)] })
  | none => s

/-- Closes the windows that a launch has bound to an actor's task, or whose last tokens it pushed, where nothing moves in them any more, and the
proxies that the ended task filled, whose tokens have all left; the tokens left are discarded (R221, R311, R318, R322). -/
def closeBound (s : State) (q : Nat) (l : Launch) (g : Graph) (x : Nat) : State :=
  let s1 := (g.inArcs x ++ g.outArcs x).foldl (fun s a => match l.arcTile.find? (fun p => p.1 == a) with
    | some p => if arcOver s q l g a then closeArc s q p.2 a else s
    | none => s) s
  (g.outArcs x).foldl (fun s a => match l.proxyTile.find? (fun p => p.1 == a) with
    | some p => (match s.win p.2 (windowKey q a) with
      | some w => if w.occ = 0 then closeArc s q p.2 a else s
      | none => s)
    | none => s) s1

/-- A task ends: its record is cleared, its digest kept, its records dropped, its groups told (R259, R406). -/
def endTask (s : State) (t slot : Nat) : State :=
  match s.task t slot with
  | none => s
  | some k =>
    let s1 := ((closeOwn s t slot).modLext k.launch (fun e => { e with finals := mapInsert e.finals k.lidx (s.ext t slot).digest })).modTask t slot
      (fun k => { k with stat := .ended, firing := none, saved := none, frame := none, lent := false })
    let s1 := match s1.launch k.launch, s1.graph k.launch with
      | some l, some g => if k.spawned then s1 else closeBound s1 k.launch l g k.actor
      | _, _ => s1
    let s2 := (endInGroups s1 k.launch k.lidx).modTile t (fun v =>
      { v with events := v.events.filter (fun r => r.slot != slot), pending := v.pending.filter (fun r => r.slot != slot) })
    if (s2.tile t).resident = some slot then s2.modTile t clearTile else s2

/-- Whether a firing is its task's last (R288, R322). -/
def lastFiring (s : State) (k : Task) : Bool :=
  k.spawned || (match s.launch k.launch, s.graph k.launch with
    | some l, some g => (match firingLimit s k.launch l g k.actor with | some n => decide (n ≤ k.firings + 1) && !g.hasMem k.actor | none => false)
    | _, _ => false)

/-- Whether a launch takes checkpoints (R358). -/
def takesCheckpoints (s : State) (q : Nat) : Bool := match s.launch q with | some l => l.interval != 0 | none => false

/-- A firing has ended: counters advance, the future of a spawned task is resolved, a last firing ends its task. -/
def finishFiring (s : State) (t slot : Nat) (k : Task) : State :=
  let s1 := s.modTask t slot (fun k =>
    { k with firing := none, firings := k.firings + 1, prio := k.basePrio, aged := 0, stat := .waiting
             phase := match s.graph k.launch with | some g => (k.phase + 1) % (g.actor k.actor).phases | none => 0 })
  let s2 := s1.modTile t (fun v => { v with csr := { v.csr with tstat := v.csr.tstat &&& ~~~(1 : DWord) } })
  if k.spawned then endTask (resolveFuture s2 (t, slot) (handleOf (s.ext t slot).future) ((s.tile t).ctl.rx 10) false) t slot
  else if lastFiring s k then endTask (s2.modActor k.launch k.actor (fun a => { a with stopped := true })) t slot
  else markReady s2 t

/-- Closes an explicit section that a `sys.end` left decided, once every target has acknowledged its commit (R275). -/
def closeDecided (s : State) (t slot : Nat) : State :=
  match (s.ext t slot).sect with
  | some x => if x.decided && x.pendingAck.isEmpty then closeSection s t slot true x else s
  | none => s

/-- FIRING_END (R286, R330, R278): a decided section closes; then the comparison of the counts, the commit that must come first, and the end. -/
def execFiringEnd (t slot : Nat) (s0 : State) : Host.Outcome State Fault Refusal :=
  let ending : Bool := (s0.tile t).ctl.stat == .ended && (s0.tile t).resident == some slot
  let s := if ending then closeDecided s0 t slot else s0
  .next <| match s.task t slot with
  | none => s
  | some k => match k.firing with
    | none => s
    | some f =>
      if (s.tile t).resident != some slot || k.stat != .resident || !firingQuiet s t slot f then s
      else match shortfall s t k with
      | some tr =>
        if f.ctl then raiseTrap s t slot 0 (w1Core (s.tile t).ctl.pc) tr
        else
          deliverFault (stopSource s t f.last .faulted) t k.launch (mkRec s t slot f.last (w1Core ((s.tile t).core f.last).pc) tr true)
      | none =>
        if (lastFiring s k || !takesCheckpoints s k.launch) && (s.ext t slot).implicit.isSome then
          let r := commitStep s t slot false
          if r.2 then finishFiring r.1 t slot k else r.1
        else finishFiring s t slot k

/-! ## System forms (R203, R286 to R289) -/

/-- A handler of a fabric trap that ends with `sys.end` leaves the contexts which that trap froze FROZEN: no later `sys.eret` resumes them (R429).
Another fabric trap that still waits keeps its own. -/
def Tile.endHandler (v : Tile) : Tile :=
  if v.csr.busy && bitsOf v.csr.tstat.toNat 5 4 == 3 && !v.traps.any (fun x => x.2 == 3) then
    { v with fabric := { v.fabric with trapFroze := [] } }
  else v

/-- What a `sys.end` of the control core does with an open explicit section: one whose commit is decided stays, to be completed (R275); another is
discarded, without the rollback that may wait (R202, R276). -/
def endSection (s : State) (t slot : Nat) : State :=
  if (s.ext t slot).sect.any (·.decided) then s else (discardSection s t slot true).modExt t slot (fun e => { e with rollback := none })

/-- SYS_END (R286, R202, R330). -/
def execSysEnd (s : State) : Host.Outcome State Fault Refusal :=
  let t := s.ft
  let slot := s.fslot
  let s1 := if s.fc = 0 then endSection s t slot else s
  let s2 := ((s1.modCur (fun k => { k with stat := .ended, instret := k.instret + 1, blocked := false, waited := 0 })).modTask t slot
    (fun k => { k with firing := k.firing.map (fun f => { f with last := s.fc }) })).modTile t
    (fun v => if s.fc = 0 then { v.endHandler with csr := { v.csr with tstat := v.csr.tstat &&& ~~~(1 : DWord) } } else v)
  perform <| match s.task t slot with
  | none => .go s2
  | some k => match k.firing with
    | none => .go s2
    | some f =>
      if firingQuiet s2 t slot f && (s.fc == 0 || !f.ctl) then
        match shortfall s2 t k with
        | some tr =>
          if s.fc = 0 then .go (raiseTrap s1 t slot 0 (w1Core s.cur.pc) tr)
          else .go (deliverFault (stopSource s t s.fc .faulted) t k.launch (mkRec s t slot s.fc (w1Core s.cur.pc) tr true))
        | none => .go s2
      else .go s2

/-- SYS_YIELD (R287): the control core's task is saved when another is ready at its level or above; it waits for copies in
flight and the sequencer first (R63, R173). -/
def execSysYield (s : State) : Host.Outcome State Fault Refusal :=
  let t := s.ft
  let s1 := markReady s t
  perform <|
    if s.fc ≠ 0 then .done s
    else match s.task t s.fslot with
    | none => .done s
    | some k =>
      if !((readySlots s1 t).any (fun x => x.1 != s.fslot && (awaited s1 x.2 || decide (x.2.prio ≤ k.prio)))) then .done s
      else if !savable (s.tile t) s.fslot then .wait s
      else
        let s2 := s1.modCur Core.advance
        .go ({ (saveTask s2 t s.fslot .ready).modTask t s.fslot (fun k => { k with readyAt := s.stamp + 8 }) with stamp := s.stamp + 9 })

/-- Dies of a mask. -/
def maskDies (m : BitVec 24) : List Nat := (List.range 24).filter (fun d => m.getLsbD d)

/-- Dies of a mask that take tasks: before the substrate links are trained the head die alone (R399, R451). -/
def takingDies (s : State) (m : BitVec 24) : List Nat := if s.regs.stage < 5 then (maskDies m).take 1 else maskDies m

/-- Dies that take tasks now. -/
def activeDies (s : State) : List Nat := takingDies s s.pkg.dieMask

/-- Tiles of some dies that are not quarantined, in increasing order (R403). -/
def tilesOf (ds : List Nat) (out : List (Nat × Bool)) : List Nat :=
  (ds.map (fun d => ((List.range 16).map (fun c => (List.range 24).map (fun i =>
    d * 512 + c * 32 + i))).flatten)).flatten.filter (fun t => !(mapGet false out t))

/-- The eligible tiles of a package (R403). -/
def eligible (s : State) : List Nat := tilesOf (activeDies s) s.pkg.quarantined

/-- The active die mask by which entries are validated: the open round's (R399). -/
def roundMask (s : State) : BitVec 24 := match s.pkg.round with | some r => r.dies | none => s.pkg.dieMask

/-- The eligible tiles under the masks that the open round carries (R399). -/
def roundTiles (s : State) : List Nat :=
  tilesOf (takingDies s (roundMask s)) (match s.pkg.round with | some r => r.out | none => s.pkg.quarantined)

/-- Whether a tile is eligible. -/
def eligibleTile (s : State) (t : Nat) : Bool := (activeDies s).contains (t / 512) && !mapGet false s.pkg.quarantined t

/-- Draw of instance L at attempt n among T eligible tiles (R403). -/
def placeDraw (seed lidx n tiles : Nat) : Nat := (gleam ⟨lidx % 2 ^ 32, n, 0, 0x20000000⟩ seed).x0 * tiles / 2 ^ 32

/-- The tile that Gleam draws for a spawned task of a launch (R288, R403). -/
def spawnTile (s : State) (q lidx dflt : Nat) : Nat :=
  let ts := eligible s
  ts.getD (placeDraw (s.seed q) lidx 0 ts.length) dflt

/-- SYS_SPAWN (R288). -/
def execSysSpawn (d a b : Reg) (s : State) : Host.Outcome State Fault Refusal :=
  let x := s.rn a
  let e := s.ext s.ft s.fslot
  perform <| ctlOnly s <|
    if bitsOf x 63 18 ≠ 0 then .illegal s
    else match (seqEntries s.myContainer)[bitsOf x 15 0]? with
    | none => .trap (tCfgDesc 0 0) s
    | some y =>
      if !y.starts 0 then .trap (tCfgDesc 0 0) s
      else if 256 ≤ e.spawns then .resource s
      else match newFuture s s.ft (s.taskLaunch s.ft s.fslot) with
      | none => .resource s
      | some (h, _) =>
        let s1 := takeFuture s h
        let q := s.taskLaunch s.ft s.fslot
        let lidx := 2 ^ 31 + s.taskLidx s.ft s.fslot % 2 ^ 23 * 2 ^ 8 + e.spawns
        let req : SpawnReq :=
          ⟨lidx, spawnTile s q lidx s.ft, bitsOf x 15 0, bitsOf x 17 16, s.rx b, h.word, e.part, none⟩
        .retN ((s1.modLext q (fun l => { l with spawnQ := l.spawnQ ++ [req] })).modExt s.ft s.fslot
          (fun e => { e with spawns := e.spawns + 1 })) d h.word

/-- Every spawned task that waits, with its launch (R411). -/
def spawnReqs (s : State) : List (Nat × SpawnReq) := (s.pkg.launchExts.map (fun e => e.2.spawnQ.map (fun r => (e.1, r)))).flatten

/-- Slots of a tile with no bound task; `all`: an ended task's record counts as clear (R404). -/
def freeSlots (s : State) (t : Nat) (all : Bool) : List Nat :=
  (List.range 8).filter (fun i => match s.task t i with | none => true | some k => all && k.stat == .ended)

/-- Bound tasks of a tile that have not ended. -/
def liveTasks (s : State) (t : Nat) : List (Nat × Task) :=
  (List.range 8).filterMap (fun i => match s.task t i with | some k => if k.stat != .ended then some (i, k) else none | none => none)

/-- Frames that a new task on a tile needs (R405). -/
def framesNeeded (s : State) (t : Nat) : Nat :=
  let ks := liveTasks s t
  if ks.isEmpty then 0 else 1 + (ks.filter (fun k => k.2.frame.isNone)).length

/-- Gives every bound task of a shared tile a frame of its own, which it keeps until it ends. -/
def takeFrames (s : State) (t : Nat) : State :=
  if (liveTasks s t).length < 2 then s
  else (liveTasks s t).foldl (fun s k => (giveFrame s t k.1 false).modTask t k.1 (fun x => { x with lent := false })) s

/-- A bind record in force (R404): the task and its zeroed state; no record of an earlier task of the slot is left in the queue (R358, R404). -/
def bindTask (s : State) (t slot : Nat) (k : Task) (e : TaskExt) : State :=
  takeFrames (s.modTile t (fun v =>
    { v with
      tasks := mapSet none v.tasks slot (some k), exts := mapSet TaskExt.zero v.exts slot e
      events := v.events.filter (fun r => r.slot != slot), pending := v.pending.filter (fun r => r.slot != slot) })) t

/-! ## Returning to a recorded part (R419, R439) -/

/-- The fabric with the configuration of a sequencing entry's region resident; a part records nothing else of the fabric. -/
def regionFabric (c : List NofSection) (entry : Nat) : Fabric :=
  match ((seqEntries c)[entry]?).bind (fun e => if e.region = 0xFF then none else regionConf c e.region) with
  | none => Fabric.reset
  | some n => (Fabric.reset.stage (contImgs c n) n).install (bindEnts c)

/-- A task as a part records it: ended, unstarted, or at its recorded place (R419). -/
def Task.fromPart (k : Task) (p : CkPart) (c : List NofSection) : Task :=
  { k with
    stat := if p.ended then .ended else if p.firing.isSome then .ready else .waiting
    frame := if p.ended then none else k.frame, lent := !p.ended && k.lent
    prio := k.basePrio, aged := 0, firing := if p.ended then none else p.firing, phase := p.phase, firings := p.firings, fresh := p.unstarted
    saved := if p.ended || p.unstarted then none
      else some ⟨p.cores, p.csr, match p.firing with | some f => regionFabric c f.entry | none => Fabric.reset, []⟩ }

/-- The rest of a task as a part records it; no section and no command is open (R439). -/
def TaskExt.fromPart (e : TaskExt) (p : CkPart) : TaskExt :=
  { TaskExt.zero with
    steep := p.steep, binds := p.binds, tcNext := p.tickets.1, xcNext := p.tickets.2.1, spawns := p.tickets.2.2, arrived := p.arrived
    part := p.number, digest := p.digest, future := e.future, arg := e.arg, born := e.born }

/-- Reopens the windows that a task had opened itself. -/
def restoreOwn (s : State) (q t slot : Nat) (e : Nat × Window × List (Byte × Bool)) : State :=
  let w := { e.2.1 with owner := slot }
  let key := windowKey q e.1
  let s1 := (s.modTile t (fun v => v.setWin key (some w))).modProd w.pTile t key (fun _ => ⟨w.wr, w.rd, w.occ, w.lap, 0, w.arrived⟩)
  (List.range w.occ).foldl (fun s i =>
    writeRow s (memWho t q) [.all] [] [⟨spadBase t + w.slotOff (w.rd + i), w.tok⟩] ((e.2.2.drop (i * w.tok)).take w.tok)) s1

/-- What a task's part records of its tile comes back: its event records and the windows that it had opened itself (R437). -/
def restoreHeld (s : State) (q t slot : Nat) (p : CkPart) : State :=
  (p.wins.filter (fun w => w.2.1.launch.isNone)).foldl (fun s w => restoreOwn s q t slot w)
    (s.modTile t (fun v => p.events.foldl (fun v r => v.event { r with slot := slot }) v))

/-- The recorded part at which a waiting request resumes; none for a task that starts at its beginning (R439). -/
def spawnedPart (s : State) (q : Nat) (r : SpawnReq) : Option CkPart :=
  let n := (s.lext q).complete
  (if r.born < n then s.partNo q r.lidx n else none).filter (fun p => p.firing.isSome)

/-- The task that a waiting request binds, at its beginning or at its recorded part (R288, R411, R439). -/
def spawnedTask (s : State) (q : Nat) (l : Launch) (r : SpawnReq) : Task × TaskExt :=
  let k : Task :=
    { spawned := true, lidx := r.lidx, launch := q, container := l.container, actor := 0xFFFF, firstEntry := r.entry
      basePrio := r.prio, prio := r.prio, ctx := l.ctx, groups := [], wins := 0, sbase := 0, ssize := 0, tbase := 0, tsize := 0
      stat := .waiting, readyAt := 0, aged := 0, frame := none, lent := false, firing := none, phase := 0, firings := 0
      fresh := true, saved := none }
  let e : TaskExt := { TaskExt.zero with future := r.future, arg := r.arg, part := r.born, born := r.born }
  match spawnedPart s q r with
  | some p => (k.fromPart p (s.container k.container), e.fromPart p)
  | none => (k, e)

/-- A slot is taken from an ended task, whose launch may yet return to a checkpoint at which it had not ended (R406, R419). -/
def clearSlot (s : State) (t slot : Nat) : State :=
  match s.task t slot with
  | some k => if k.spawned then s else s.modLext k.launch (fun e => { e with cleared := e.cleared ++ [(t, slot, k)] })
  | none => s

/-- A task that has been restored for serial re-execution takes `DIGEST` before its first instruction (R442); where its handler was running, the record
goes to the die manager (R200). -/
def digestTask (s : State) (t slot : Nat) (m : DWord × DWord) : State :=
  match s.task t slot with
  | none => s
  | some k =>
    if k.stat = .ended then s
    else
      let tr : Trap := ⟨cDIGEST, m.1.toNat, m.2.toNat, false⟩
      let c := match k.saved with | some c => c | none => freshContext s k (s.ext t slot)
      let stop (st : CoreStat) : List Core := c.cores.modify 0 (fun y => if y.stat = .run then { y with stat := st } else y)
      let w1 := w1Core (c.cores.getD 0 Core.reset).pc
      if c.csr.busy then
        deliverFault (s.modTask t slot (fun x => { x with saved := some { c with cores := stop .faulted } })) t k.launch (mkRec s t slot 0 w1 tr true)
      else s.modTask t slot (fun x => { x with saved := some { c with traps := [(mkRec s t slot 0 w1 tr false, 0)], cores := stop .trapped } })

/-- SPAWNED_TASK_BIND (R411): the manager of its die binds the i-th spawned task that waits once its tile has a slot and the frames, while no round
is open (R399). One whose tile has been lost is placed again under the new masks (R415). -/
def execSpawnedTaskBind (i : Nat) (s : State) : Host.Outcome State Fault Refusal :=
  .next <| match (spawnReqs s)[i]? with
  | none => s
  | some (q, r) =>
    match s.launch q with
    | none => s
    | some l =>
      if l.stat != .running || s.pkg.round.isSome then s
      else if !eligibleTile s r.tile then
        s.modLext q (fun e => { e with spawnQ := e.spawnQ.map (fun x => if x = r then { r with tile := spawnTile s q r.lidx r.tile } else x) })
      else if !(s.die (r.tile / 512)).runs then s
      else match (freeSlots s r.tile true).head? with
      | none => s
      | some slot =>
        if framePool s (r.tile / 512) < framesUsed s (r.tile / 512) + framesNeeded s r.tile then s
        else
          let k := spawnedTask s q l r
          let s0 := (bindTask (clearSlot s r.tile slot) r.tile slot k.1 k.2).modLext q (fun e => { e with spawnQ := e.spawnQ.erase r })
          let s1 := match spawnedPart s q r with | some p => restoreHeld s0 q r.tile slot p | none => s0
          match r.digest with
          | some m => digestTask s1 r.tile slot m
          | none => s1

/-- SYS_BRK (R289). -/
def execSysBrk (s : State) : Host.Outcome State Fault Refusal := perform (.trap (tBreak 0) s)
/-- SYS_TRAP (R289). -/
def execSysTrap (a : Reg) (s : State) : Host.Outcome State Fault Refusal :=
  perform (if bitsOf (s.rn a) 63 16 ≠ 0 then .illegal s else .trap (tBreak (s.rn a)) s)

/-- SYS_ERET (R203, R276): a rollback that waited for the handler is made once it has returned. -/
def execSysEret (s : State) : Host.Outcome State Fault Refusal :=
  let t := s.ft
  perform <|
    if s.fc ≠ 0 ∨ !(s.tile t).csr.busy then .illegal s
    else
      .go (takeRollback (s.modTile t Tile.eret) t s.fslot)

/-! ## Buckets (R283) -/

/-- BK_SEL (R283): the smallest padded count of the bucket that is at least the count; its target's configuration is staged. -/
def execBkSel (d a b : Reg) (s : State) : Host.Outcome State Fault Refusal :=
  let x := s.rn a
  let mine := ((s.lext (s.taskLaunch s.ft s.fslot)).buckets).filter (fun r => r.1 == x)
  let fits := mine.filter (fun r => decide (s.rn b ≤ r.2.2.1))
  perform <| ctlOnly s <|
    if 8 ≤ x then .illegal s
    else if mine.isEmpty then .resource s
    else match fits.foldl (fun (m : Option (Nat × Nat × Nat × Nat)) r => match m with
        | some y => if r.2.2.1 < y.2.2.1 then some r else some y
        | none => some r) none with
    | none => .ret s d allOnes64
    | some r =>
      let v := BitVec.ofNat 64 (r.2.1 * 2 ^ 48 + r.2.2.2 * 2 ^ 32 + r.2.2.1)
      match ((seqEntries s.myContainer)[r.2.2.2]?).bind (fun e => if e.region = 0xFF then none else regionConf s.myContainer e.region) with
      | none => .ret s d v
      | some n => stageAct s d v (contImgs s.myContainer n) n

end Sys2Proof.Machine
end

