-- ==== Sys2Proof/Machine/MemActors.lean ====
section
/-! DEFINITION. Machine/MemActors.lean: memory actors (R12 to R19), the eclipse (R316), quiescence and the change of rate set
(R317, R318, R322). -/

namespace Sys2Proof.Machine

/-- The arc of a memory actor (R12). -/
def memArc (g : Graph) (x : Nat) : Option Nat := (g.inArcs x ++ g.outArcs x).head?

/-! ## Rows (R12, R13, R15) -/

/-- Coordinates of the n-th point of some extents, row-major. -/
def unravel : List Nat → Nat → List Nat
  | [], _ => []
  | _ :: es, n => let m := es.foldl (· * ·) 1; n / m :: unravel es (n % m)

/-- Layout offsets of the elements of row n of a view, in order. -/
def rowOffsets (b : Bind) (d : TDesc) (n : Nat) : List Nat :=
  let lead := List.zipWith (· + ·) (unravel (b.extent.take (d.rank - 1)) n) b.origin
  (List.range (b.extent.getD (d.rank - 1) 0)).map (fun j =>
    d.offset (lead ++ [b.origin.getD (d.rank - 1) 0 + j]) + if d.layout = 3 then 2048 * b.b0 else 0)

/-- Elements of `z` bytes joined into contiguous runs of (offset, length). -/
def runsOf (z : Nat) : List Nat → List (Nat × Nat)
  | [] => []
  | o :: r =>
    match runsOf z r with
    | (a, n) :: t => if o + z = a then (o, n + z) :: t else (o, z) :: (a, n) :: t
    | [] => [(o, z)]

/-- The longest reachable prefix of a run, and the trap of the byte after it (R230). -/
def runReach (s : State) (ctx id off : Nat) (acc : Acc) : Nat → Nat × Option Trap
  | 0 => (0, none)
  | n + 1 =>
    match (xlate s ctx id off (n + 1) acc kTCOPY 0).res with
    | .ok _ => (n + 1, none)
    | .error tr =>
      let r := runReach s ctx id off acc n
      (r.1, match r.2 with | some t => some t | none => some tr)

/-- The runs of a row that can be reached, each with its translation, and the trap that stops it. -/
def planRuns (s : State) (ctx id : Nat) (acc : Acc) : List (Nat × Nat) → List (Nat × Nat × XOut) × Option Trap
  | [] => ([], none)
  | (o, n) :: r =>
    let k := runReach s ctx id o acc n
    let x := (o, k.1, xlate s ctx id o k.1 acc kTCOPY 0)
    match k.2 with
    | some tr => ([x], some tr)
    | none => let q := planRuns s ctx id acc r; (x :: q.1, q.2)

/-- A memory actor's firing is stopped by a trap: held by `NOTPRESENT`, when its copy keeps its slot, else a fault of its launch
(R14, R231). -/
def memStop (s : State) (q x u a : Nat) (g : Graph) (tr : Trap) : State :=
  let lidx := (lidxOfArc g a).getD 0xFFFFFFFF
  let r : TrapRec := ⟨recWord0 tr.cause 3 0 u lidx true false, BitVec.ofNat 64 (w1Unit kTCOPY), BitVec.ofNat 64 tr.w2, BitVec.ofNat 64 tr.w3⟩
  let s1 :=
    if tr.cause = cNOTPRESENT then (s.modActor q x (fun k => { k with held := some tr.hold })).modTile u (fun v => { v with memHeld := v.memHeld ++ [(q, x)] })
    else s.modActor q x (fun k => { k with stopped := true })
  s1.modDie (u / 512) (fun d => { d with faults := d.faults ++ [(r, q, some x)] })

/-! ## Markers (R316) -/

/-- Tokens of a window on their way to its consumer. -/
def inTransit (s : State) (t w : Nat) : Nat := ((mapGet [] s.msgs (winNo t w)).map (fun m => if m.advance then m.n else 0)).foldl (· + ·) 0

/-- Places the eclipse marker after the last token of an arc; at a proxy it goes as a control frame (R348). One behind which its consumer has recorded a
part may belong to that part (R335). -/
def placeMark (s : State) (q : Nat) (l : Launch) (a : Nat) : State :=
  match l.proxyTile.find? (fun p => p.1 == a) with
  | some p => (match s.win p.2 (windowKey q a) with
    | some w => s.sendControlTo q 1 0 w.cPkg
    | none => s)
  | none => match l.arcTile.find? (fun p => p.1 == a) with
    | some p => (match s.win p.2 (windowKey q a) with
      | some w =>
        let m := w.occ + inTransit s p.2 (windowKey q a)
        (logMark s w m).modWin p.2 (windowKey q a) (fun w => { w with marks := w.marks ++ [m] })
      | none => s)
    | none => s

/-- Whether an arc lies on a cycle of the graph: its consumer feeds its producer. Its marker cannot come before its consumer has placed its own, so
that an actor receives the eclipse without the markers of such windows, once it has made its last firing (R318, R319; log entry 152). -/
def Graph.cyclic (g : Graph) (a : Nat) : Bool :=
  match g.arcs[a]? with
  | none => false
  | some y =>
    let more (xs : List Nat) : List Nat := (xs ++ xs.flatMap (fun x => (g.outArcs x).filterMap (fun b => (g.arcs[b]?).map (·.cons)))).eraseDups
    ((List.range g.actors.length).foldl (fun xs _ => more xs) [y.cons]).contains y.prod

/-- Whether a window holds no more tokens than the arc's delay. -/
def settled (g : Graph) (s : State) (q t a : Nat) : Bool :=
  match s.win t (windowKey q a) with
  | some w => decide (w.occ ≤ ((g.arcs[a]?).map (·.delay)).getD 0)
  | none => true

/-- Whether a window holds a marker (its tokens before the marker have come), and no more tokens than the arc's delay. -/
def eclipsed (g : Graph) (s : State) (q t a : Nat) : Bool :=
  match s.win t (windowKey q a) with
  | some w => w.marks.any (fun m => decide (m ≤ w.occ)) && decide (w.occ ≤ ((g.arcs[a]?).map (·.delay)).getD 0)
  | none => (s.lext q).closed.any (fun x => x.1 == a)

/-- Arcs of a launch that come from another package, whose windows hold no marker yet. -/
def unmarkedFrom (s : State) (q : Nat) (l : Launch) (src : Nat) : List (Nat × Nat) :=
  l.arcTile.filter (fun p => match s.win p.2 (windowKey q p.1) with
    | some x => x.pPkg == src && x.marks.isEmpty
    | none => false)

/-- Whether every token of an arc ahead of the next eclipse has come to its window (R316, R319). -/
def arcWhole (s : State) (q : Nat) (l : Launch) (g : Graph) (p : Nat × Nat) : Bool :=
  match s.win p.2 (windowKey q p.1) with
  | some w => arcTotal s q l g p.1 == some (w.arrived - w.initial)
  | none => false

/-- Arcs whose markers an actor has had, itself or by way of its producers, when it places its own (R316). -/
def upstreamArcs (g : Graph) : Nat → List Nat → List Nat
  | 0, as => as
  | n + 1, as => upstreamArcs g n (as ++ ((as.filterMap (fun a => (g.arcs[a]?).map (·.prod))).flatMap (fun x =>
      (g.inArcs x).filter (fun a => !g.cyclic a && !as.contains a))).eraseDups)

/-- Whether the producer of an arc from another package can have placed its marker: its component runs to an eclipse, and every window here upstream of
it holds its marker already. -/
def markCanBe (s : State) (q : Nat) (l : Launch) (g : Graph) (a : Nat) : Bool :=
  (g.arcs[a]?).any (fun y => g.hasMem y.cons) &&
    ((upstreamArcs g g.arcs.length [a]).filter (fun b => b != a)).all (fun b => match l.arcTile.find? (fun p => p.1 == b) with
      | some p => (s.win p.2 (windowKey q b)).all (fun w => !w.marks.isEmpty)
      | none => true)

/-- One pass of `settleMarks`. -/
def settleOnce (s : State) (q : Nat) (l : Launch) (g : Graph) : State :=
  (s.lext q).marksDue.foldl (fun s src =>
    match (unmarkedFrom s q l src).find? (fun p => markCanBe s q l g p.1 && arcWhole s q l g p) with
    | some p => (s.modWin p.2 (windowKey q p.1) (fun w => { w with marks := w.marks ++ [w.occ] })).modLext q
        (fun e => { e with marksDue := e.marksDue.erase src })
    | none => s) s

/-- Eclipse markers that have come from other packages take their places: the frame does not name its arc, but a marker stands behind
all of its arc's tokens, and behind the markers of the arcs upstream, so it belongs to an arc for which both have come (R316). One for which no arc is
left has come before: it was carried again after a restore (R334); one of a package that has reported its quiescence is of the next eclipse. -/
def settleMarks (s : State) (q : Nat) : State :=
  match s.launch q, s.graph q with
  | some l, some g =>
    let s1 := (List.range (s.lext q).marksDue.length).foldl (fun s _ => settleOnce s q l g) s
    let stays (p : Nat) : Bool := (s1.lext q).quiet.contains p || (unmarkedFrom s1 q l p).any (fun y => (g.arcs[y.1]?).any (fun a => g.hasMem a.cons))
    s1.modLext q (fun e => { e with marksDue := e.marksDue.filter stays })
  | _, _ => s

/-! ## Source firings -/

/-- The row of a source becomes a token of its window; its tag is the view's element format, the scaled flag clear (R12, R13). -/
def sourceToken (s : State) (q x u a : Nat) (l : Launch) (w : Window) (rows fmt : Nat) (ds : List (Byte × Bool)) : State :=
  let slot := (s.prod u u (windowKey q a)).wr
  let s1 := writeRow s (memWho u q) [.all] [] [⟨spadBase u + w.slotOff slot, ds.length⟩] ds
  let s2 := takeSlots s1 u u (windowKey q a) 1
  let s3 := (applyAdvance s2 u (windowKey q a) 1 ((w.wr + 1) % w.cap)).modWin u (windowKey q a) (fun w =>
    { w with tags := mapSet 0 w.tags slot (fmt + 1) })
  let n := (s3.actorSt q x).rows + 1
  let s4 := s3.modActor q x (fun k => { k with rows := n })
  if sourceLimit l rows ≤ n then placeMark (s4.modActor q x (fun k => { k with stopped := true })) q l a else s4

/-- What a memory actor needs to fire: launch, graph, its arc, the arc's tile and window, and its bind; it is of a kind, runs,
and a copy slot of the tile is free or is its own already (R12, R14). -/
structure MemCtx where
  l : Launch
  g : Graph
  a : Nat
  u : Nat
  w : Window
  b : Bind
deriving DecidableEq, Repr, Inhabited

def memCtx (s : State) (q x kind : Nat) : Option MemCtx :=
  match s.launch q, s.graph q with
  | some l, some g =>
    let st := s.actorSt q x
    if (g.actor x).kind != kind || !s.mine l x || l.stat != .running || st.stopped || st.held.isSome then none
    else
      (memArc g x).bind (fun a =>
        ((l.arcTile.find? (fun p => p.1 == a)).map (·.2)).bind (fun u =>
          (s.win u (windowKey q a)).bind (fun w =>
            (l.binds.find? (fun b => b.actor == x)).bind (fun b =>
              if (s.tile u).slotFree || (s.tile u).memHeld.contains (q, x) then some ⟨l, g, a, u, w, b⟩ else none))))
  | _, _ => none

/-- The trap of a tensor whose descriptor is no longer valid (R57). -/
def descTrap (b : Bind) (acc : Acc) : Trap := trapAperture (2 ^ 63 + b.tensor * 2 ^ 47) kTCOPY acc

/-- The slot that a memory actor's held copy has kept is its own again (R231). -/
def dropMemHeld (s : State) (q x u : Nat) : State := s.modTile u (fun v => { v with memHeld := v.memHeld.erase (q, x) })

/-- HBMSRC_FIRING (R12 to R14, R19). -/
def execHbmsrcFiring (q x : Nat) (s : State) : Host.Outcome State Fault Refusal :=
  .next <| match memCtx s q x 1 with
  | none => s
  | some c =>
    let s0 := dropMemHeld s q x c.u
    match descOf s c.l.ctx c.b.tensor with
    | none => memStop s0 q x c.u c.a c.g (descTrap c.b .read)
    | some d =>
      let n := (s.actorSt q x).rows
      let rows := viewRows c.b d.rank
      if rows ≤ n ∨ freeCount c.w (s.prod c.u c.u (windowKey q c.a)) < 1 then s
      else
        let p := planRuns s c.l.ctx c.b.tensor .read (runsOf d.z (rowOffsets c.b d n))
        let s1 := p.1.foldl (fun s r => s.cache r.2.2) s0
        match p.2 with
        | some tr => memStop s1 q x c.u c.a c.g tr
        | none =>
          let ds := (p.1.map (fun r => rowData s (.tile c.u 4) ⟨partsOf r.2.2, [], none, r.2.1⟩)).flatten
          sourceToken s1 q x c.u c.a c.l c.w rows d.fmt ds

/-! ## Sink firings -/

/-- Folds a memory actor's write into the digest of its window's producer task, or of its instance (R440, R443). -/
def foldRow (s : State) (q a : Nat) (l : Launch) (g : Graph) (id off : Nat) (bs : List Byte) : State :=
  let x := digestStore l.seed.toNat id off bs
  let s1 := s.touchUnits q l.ctx id off bs.length
  match lidxOfArc g a with
  | some n => s1.addFinal q n x
  | none => match (g.arcs[a]?).bind (fun y => s.taskOfActor q y.prod) with
    | some (t, slot) =>
      if ((s.task t slot).map (·.stat)) = some .ended then s1.addFinal q (s.taskLidx t slot) x else s1.addDigest t slot x
    | none => s1

/-- Writes the runs of a row in order. -/
def writeSink (q u a ctx : Nat) (l : Launch) (g : Graph) (id : Nat) : State → List (Nat × Nat × XOut) → List (Byte × Bool) → State
  | s, [], _ => s
  | s, (off, n, x) :: r, ds =>
    let s1 := (writeRow s (memWho u q) [] [] (partsOf x) (ds.take n)).cache x
    writeSink q u a ctx l g id (foldRow s1 q a l g id off ((ds.take n).map (·.1))) r (ds.drop n)

/-- HBMSINK_FIRING (R12 to R14, R19): the oldest token becomes the next row of the view. -/
def execHbmsinkFiring (q x : Nat) (s : State) : Host.Outcome State Fault Refusal :=
  .next <| match memCtx s q x 2 with
  | none => s
  | some c =>
    let s0 := dropMemHeld s q x c.u
    match descOf s c.l.ctx c.b.tensor with
    | none => memStop s0 q x c.u c.a c.g (descTrap c.b .write)
    | some d =>
      let n := (s.actorSt q x).rows
      if viewRows c.b d.rank ≤ n ∨ c.w.occ = 0 then s
      else
        let from' := spadBase c.u + c.w.slotOff c.w.rd
        let ds := rowData s (.tile c.u 4) ⟨[⟨from', c.w.tok⟩], [], none, c.w.tok⟩
        let p := planRuns s c.l.ctx c.b.tensor .write (runsOf d.z (rowOffsets c.b d n))
        match p.2 with
        | some tr =>
          if tr.cause = cNOTPRESENT then memStop s0 q x c.u c.a c.g tr
          else memStop (writeSink q c.u c.a c.l.ctx c.l c.g c.b.tensor s0 p.1 ds) q x c.u c.a c.g tr
        | none =>
          (consume (writeSink q c.u c.a c.l.ctx c.l c.g c.b.tensor s0 p.1 ds) c.u (windowKey q c.a) 1).modActor q x
            (fun k => { k with rows := k.rows + 1 })

/-! ## Receiving the eclipse (R316, R318) -/

/-- Whether an actor stands at a boundary between periods with its inputs drained, and where its task is bound. -/
def canEclipse (s : State) (q x : Nat) (l : Launch) (g : Graph) : Option (Option (Nat × Nat)) :=
  let st := s.actorSt q x
  if l.stat != .running || st.stopped || !s.mine l x || !g.hasMem x then none
  else if (g.actor x).kind = 0 then
    match s.taskOfActor q x with
    | none => none
    | some (t, slot) => match s.task t slot with
      | none => none
      | some k =>
        let done := if (g.inArcs x).isEmpty then (match firingLimit s q l g x with | some n => decide (n ≤ k.firings) | none => false)
          else (g.inArcs x).all (fun a => if g.cyclic a then settled g s q t a else eclipsed g s q t a) &&
            (!(g.inArcs x).any g.cyclic || (match firingLimit s q l g x with | some n => decide (n ≤ k.firings) | none => false))
        if k.firing.isNone && k.phase == 0 && done then some (some (t, slot)) else none
  else if (g.actor x).kind = 2 then
    match (memArc g x).bind (fun a => (l.arcTile.find? (fun p => p.1 == a)).map (fun p => (a, p.2))) with
    | some (a, u) => if eclipsed g s q u a then some none else none
    | none => none
  else none

/-- ECLIPSE_RECEIPT (R316): the actor marks its outputs and stops. When no change of rate set is to follow, its task commits
its implicit section and ends, or its sink's window closes (R221, R278, R318, R406). -/
def execEclipseReceipt (q x : Nat) (s : State) : Host.Outcome State Fault Refusal :=
  .next <| match s.launch q, s.graph q with
  | some l, some g =>
    match canEclipse s q x l g with
    | none => s
    | some at' =>
      let stop (s : State) : State := (g.outArcs x).foldl (fun s a => placeMark s q l a) (s.modActor q x (fun k => { k with stopped := true }))
      match l.modeReq, at' with
      | none, some (t, slot) =>
        let r := commitStep s t slot false
        if r.2 then endTask (stop r.1) t slot else r.1
      | none, none => closeBound (stop s) q l g x
      | _, _ => stop s
  | _, _ => s

/-! ## Quiescence and the switch (R317) -/

/-- Arcs whose window or proxy lies here, with the tile. -/
def Launch.ends (l : Launch) : List (Nat × Nat) := l.arcTile ++ l.proxyTile

/-- Whether every part of the checkpoints that have fallen due is recorded here: an actor that has stopped reaches its part as soon as
the checkpoint falls due, ahead of any change of rate set (R334, R335). -/
def partsSettled (s : State) (q : Nat) : Bool :=
  let e := s.lext q
  (s.tasksOf q).all (fun k => decide (e.due ≤ (s.ext k.1 k.2.1).part)) &&
    (decide (e.due ≤ e.complete) || e.pkgParts.any (fun p => p.number == e.due))

/-- Whether this package's share is quiescent: its actors have stopped, its firings have ended, its windows hold their declared
initial tokens and nothing of it is in transit. A component with no memory actor keeps what its windows hold (R322). -/
def locallyQuiet (s : State) (q : Nat) (l : Launch) (g : Graph) : Bool :=
  (List.range g.actors.length).all (fun x => !s.mine l x || (s.actorSt q x).stopped) &&
    (s.tasksOf q).all (fun k => k.2.2.firing.isNone) && partsSettled s q &&
    l.arcTile.all (fun p => (match s.win p.2 (windowKey q p.1), g.arcs[p.1]? with
      | some w, some a => !g.hasMem a.cons || (w.occ == a.delay && inTransit s p.2 (windowKey q p.1) == 0)
      | _, _ => (s.lext q).closed.any (fun x => x.1 == p.1))) &&
    l.proxyTile.all (fun p => (match s.win p.2 (windowKey q p.1) with | some w => w.occ == 0 | none => (s.lext q).closed.any (fun x => x.1 == p.1))) &&
    s.net.tx.all (fun f => f.2.unacked.all (fun x => !(x.launch == some q && x.frame.opcode == 0x0B)))

/-- Packages of a launch: this one and the others of its map. -/
def launchPkgs (s : State) (q : Nat) : List Nat := s.pkg.num :: s.otherPkgs q

/-- Whether every package of a launch has reported quiescence (R317, R318). -/
def allQuiet (s : State) (q : Nat) : Bool := (launchPkgs s q).all (fun p => (s.lext q).quiet.contains p)

/-- Removes the markers of a launch's windows. -/
def clearMarks (s : State) (q : Nat) (l : Launch) : State :=
  l.arcTile.foldl (fun s p => s.modWin p.2 (windowKey q p.1) (fun w => { w with marks := [] })) s

/-- An actor resumes at phase 0 under the new rate set; a source that has no row left, or stands at the next request's switch
count, marks its window and stays stopped. -/
def resumeActor (s : State) (q : Nat) (l : Launch) (g : Graph) (x : Nat) : State :=
  if !s.mine l x || !g.hasMem x then s
  else if (g.actor x).kind = 0 then
    match s.taskOfActor q x with
    | some (t, slot) => (s.modActor q x (fun k => { k with stopped := false })).modTask t slot (fun k => { k with phase := 0 })
    | none => s
  else
    let spent := decide (sourceLimit l (rowsOf s l x) ≤ (s.actorSt q x).rows)
    if (g.actor x).kind = 1 ∧ spent = true then (match memArc g x with | some a => placeMark s q l a | none => s)
    else s.modActor q x (fun k => { k with stopped := false })

/-- RATE_SET_SWITCH (R317, R318): this package reports its quiescence once; when every package has, a launch with a request
takes the new rate set and the request completes. A peer may switch first and report its next quiescence: each report counts once. -/
def execRateSetSwitch (q : Nat) (s : State) : Host.Outcome State Fault Refusal :=
  .next <| match s.launch q, s.graph q with
  | some l, some g =>
    if l.stat != .running then s
    else if !(s.lext q).quiet.contains s.pkg.num then
      if locallyQuiet s q l g then (s.modLext q (fun e => { e with quiet := e.quiet ++ [s.pkg.num] })).sendControl q 2 0 else s
    else match l.modeReq with
    | none => s
    | some m =>
      if !(allQuiet s q && partsSettled s q) then s
      else
        let next := (s.lext q).reqs[(s.lext q).reqsDone + 1]?
        let l1 := { l with mode := m.newMode, modeReq := next }
        let s1 := (clearMarks s q l).modLext q (fun e => { e with quiet := (launchPkgs s q).foldl (fun r p => r.erase p) e.quiet, reqsDone := e.reqsDone + 1 })
        let s2 := s1.modLaunch q (fun l => { l with mode := m.newMode, modeReq := next })
        let s3 := (List.range g.actors.length).foldl (fun s x => resumeActor s q l1 g x) s2
        let s4 := complete s3 m.record.toNat ⟨0, 0, 0, 2, 0, m.seq, none, 0⟩
        l.place.foldl (fun s p => markReady s p.2) (settleMarks s4 q)
  | _, _ => s

end Sys2Proof.Machine
end

