-- ==== Sys2Proof/Machine/Checkpoint.lean ====
section
/-! DEFINITION. Machine/Checkpoint.lean: recording the parts of a checkpoint and what a package records beside them (R284, R334,
R417, R419, R437, R438). -/

namespace Sys2Proof.Machine

/-! ## The windows of a part (R334) -/

/-- Windows of a launch on a tile that one actor's task holds: those it consumes, those whose consumer is a memory actor that
it feeds, and the proxies it fills. -/
def heldArcs (g : Graph) (l : Launch) (t x : Nat) : List (Nat × Bool) :=
  (l.arcTile.filter (fun p => p.2 == t && (match g.arcs[p.1]? with
    | some a => a.cons == x || ((g.actor a.cons).kind != 0 && a.prod == x)
    | none => false))).map (fun p => (p.1, false)) ++
  (l.proxyTile.filter (fun p => p.2 == t && (g.arcs[p.1]?).any (fun a => a.prod == x))).map (fun p => (p.1, true))

/-- Tokens of a window that stand in a part: where the producer, a task of this package, has recorded its own part of the same
number already, only those it had pushed by then, with the marker that it had placed. Those of them still on their way are recorded as they come. -/
def keptTokens (s : State) (q n a : Nat) (g : Graph) (w : Window) : Nat × List Nat :=
  match (g.arcs[a]?).bind (fun y => if (g.actor y.prod).kind = 0 ∧ (g.actor y.cons).kind = 0 then
      (lidxOfActor g y.prod).bind (fun i => (s.partNo q i n).map (fun p => (y, p))) else none) with
  | some (y, p) =>
    let ahead := (mapGet ProdCopy.zero p.prods a).total - w.consumed
    (min w.occ ahead, if (mapGet ActorSt.zero p.actors y.prod).stopped then w.marks.filter (fun m => decide (m ≤ ahead)) else [])
  | none => (w.occ, w.marks)

/-- A window as a part records it, with the bytes of its occupied slots. Of a proxy, every token that its producer does not
know consumed is recorded, since its slot keeps it until it is filled again (R311). -/
def recordWindow (s : State) (q n t : Nat) (g : Graph) (a : Nat) (proxy : Bool) : Option (Nat × Window × List (Byte × Bool)) :=
  (s.win t (windowKey q a)).map (fun w =>
    if proxy then
      let p := s.prod t t (windowKey q a)
      (a, { w with rd := p.rdMirror, occ := p.occ, cCount := (w.cCount + 2 ^ 32 + w.occ - p.occ) % 2 ^ 32 }, tokenBytes s t w p.rdMirror p.occ)
    else
      let k := keptTokens s q n a g w
      (a, { w with next := (w.laps * w.cap + w.rd + k.1 - w.initial) % 2 ^ 32, occ := k.1, wr := (w.rd + k.1) % w.cap, marks := k.2 },
        tokenBytes s t w w.rd k.1))

/-- Windows that a task has opened itself, with their bytes. -/
def ownWindows (s : State) (t slot : Nat) : List (Nat × Window × List (Byte × Bool)) :=
  (s.tile t).wins.filterMap (fun w => match w.2 with
    | some x => if x.launch.isNone && x.owner == slot then some (w.1 % 64, x, tokenBytes s t x x.rd x.occ) else none
    | none => none)

/-! ## A part (R437) -/

/-- The three cores and the CSRs of a task, on the tile or saved. -/
def coresOf (s : State) (t slot : Nat) (k : Task) : List Core × CtlCsr :=
  let v := s.tile t
  if v.resident = some slot then ([v.ctl, v.ldr, v.sto], v.csr)
  else match k.saved with
    | some c => (c.cores, c.csr)
    | none => let c := freshContext s k (s.ext t slot); (c.cores, c.csr)

/-- The block of a tile for a checkpoint number, in the stacks of die (d + 12) mod 24, where that die's store is set up. -/
def ckptBlock (s : State) (t n : Nat) : Option Nat :=
  let h := (t / 512 + 12) % 24
  let i := t % 512 / 32 * 24 + t % 32
  let b := (s.die h).ckptBase.toNat
  if bitOf b 0 then some ((2 * h + i / 192) * 2 ^ 36 + bitsOf b 35 21 * 2 ^ 21 + 2 ^ 23 * (i % 192) + 2 ^ 22 * (n % 2)) else none

/-- Part `n` of a task. -/
def makePart (s : State) (t slot n : Nat) (k : Task) : CkPart :=
  let e := s.ext t slot
  let c := coresOf s t slot k
  let lg := (s.launch k.launch).bind (fun l => (s.graph k.launch).map (fun g => (l, g)))
  let held : List (Nat × Bool) := match lg with | some (l, g) => if k.spawned then [] else heldArcs g l t k.actor | none => []
  let mems : List Nat := match lg with
    | some (_, g) => (held.filterMap (fun h => g.arcs[h.1]?)).flatMap (fun a => [a.prod, a.cons].filter (fun x => (g.actor x).kind != 0))
    | none => []
  let actors := if k.spawned then [] else k.actor :: mems
  { number := n, cores := c.1, csr := c.2, steep := e.steep, binds := e.binds, arrived := e.arrived
    tickets := (e.tcNext, e.xcNext, 0)
    events := ((s.tile t).events ++ (s.tile t).pending).filter (fun r => r.slot == slot)
    wins := (match lg with | some (_, g) => held.filterMap (fun h => recordWindow s k.launch n t g h.1 h.2) | none => []) ++ ownWindows s t slot
    prods := (match lg with
      | some (l, g) => if k.spawned then [] else (g.outArcs k.actor).filterMap (fun a => (arcEnd l a).map (fun u => (a, s.prod t u (windowKey k.launch a))))
      | none => [])
    actors := actors.map (fun x => (x, s.actorSt k.launch x))
    phase := k.phase, firings := k.firings, firing := k.firing, digest := e.digest
    ended := k.stat == .ended, unstarted := k.fresh
    req := if k.spawned && k.stat != .ended then some ⟨k.lidx, t, k.firstEntry, k.basePrio, e.arg, e.future, e.born, none⟩ else none
    area := (ckptBlock s t n).map (fun b => b + 0x20000 * slot) }

/-! ## The checkpoint store (R438) -/

/-- A window's pointers and counters in 64 bytes, with its key and flags. -/
def windowBytes (a : Nat) (w : Window) : List Byte :=
  leBytes 2 (a + 64 * bit01 w.proxy + 128 * bit01 w.mon + 256 * bit01 w.pace + 512 * bit01 w.launch.isNone) ++ leBytes 2 w.wr ++ leBytes 2 w.rd ++
    leBytes 2 w.lap ++ leBytes 4 w.occ ++ leBytes 4 w.cCount ++ leBytes 8 w.laps ++ leBytes 4 w.next ++ leBytes 4 w.base ++ leBytes 4 w.tok ++
    leBytes 4 w.cap ++ leBytes 2 w.inWord ++ leBytes 2 w.outWord ++ leBytes 4 w.marks.length ++ fitBytes 16 (w.marks.flatMap (leBytes 4))

/-- A producer copy in 32 bytes. -/
def prodBytes (a : Nat) (p : ProdCopy) : List Byte :=
  leBytes 2 a ++ leBytes 2 p.wr ++ leBytes 2 p.rdMirror ++ leBytes 2 p.lapMirror ++ leBytes 4 p.occ ++ leBytes 4 p.pCount ++ leBytes 16 p.total

/-- A part of a task as it stands in its area of the block; the places within it are the model's (log entry 147). -/
def ckptParts (k : Task) (e : TaskExt) (p : CkPart) : List FramePart :=
  (0, leBytes 4 1 ++ leBytes 4 k.lidx ++ leBytes 8 k.launch ++ leBytes 4 p.number ++ leBytes 1 (bit01 p.ended + 2 * bit01 p.unstarted) ++ leBytes 1 p.phase ++
      leBytes 2 (match p.firing with | some f => 1 + 2 * f.named + 16 * f.last + 256 * f.phase | none => 0) ++ leBytes 8 p.firings ++ leBytes 8 p.digest.toNat ++
      leBytes 4 p.tickets.1 ++ leBytes 4 p.tickets.2.1 ++ leBytes 4 p.tickets.2.2 ++ leBytes 4 ((p.firing.map (·.entry)).getD 0)) ::
    csrPart p.csr :: (extParts e ++
    p.cores.zipIdx.flatMap (fun c => (coreParts c.1 c.2).filter (fun x => decide (x.1 < 0x2000)) ++ c.1.dmem.map (fun b => (0x4000 * (c.2 + 1) + b.1, [b.2]))) ++
    p.arrived.map (fun g => (0x3200 + 4 * g.1, leBytes 4 (match g.2 with | some ph => ph + 1 | none => 0))) ++
    [(0x10000, p.events.flatMap EvRec.bytes), (0x12000, p.wins.flatMap (fun w => windowBytes w.1 w.2.1)), (0x14000, p.prods.flatMap (fun a => prodBytes a.1 a.2))])

/-- Writes a task's part to its tile's block, and the tokens of its windows behind the areas of the eight slots; where the store is not set up nothing is
written (log entry 147). -/
def writePart (s : State) (t slot : Nat) (k : Task) (p : CkPart) : State :=
  match ckptBlock s t p.number with
  | none => s
  | some b =>
    p.wins.foldl (fun s w => s.putArea (b + 0x200000 + w.2.1.base) (w.2.1.cap * w.2.1.tok) [(0, w.2.2.map (·.1))])
      (s.putArea (b + 0x20000 * slot) 0x20000 (ckptParts k (s.ext t slot) p))

/-- The first uncorrectable word of a part in the checkpoint store. -/
def partPoison (s : State) (p : CkPart) : Option Nat := p.area.bind (fun a => areaPoison s a 0x20000)

/-- Records a task's next part, and writes it to the checkpoint store; its sections and spawns are counted from here (R277, R288). The two newest are
kept (R438). -/
def recordPart (s0 : State) (t slot : Nat) : State :=
  match s0.task t slot with
  | none => s0
  | some k =>
    let n := (s0.ext t slot).part + 1
    let p := makePart s0 t slot n k
    let s := writePart s0 t slot k p
    (s.modLext k.launch (fun e => { e with parts := mapInsert e.parts k.lidx (p :: (mapGet [] e.parts k.lidx).take 1) })).modExt t slot
      (fun e => { e with part := n, sections := 0, spawns := 0 })

/-- Whether a task can record its next part: it is due, and the block that it reuses is free (R438). -/
def partDue (s : State) (t slot : Nat) (k : Task) : Bool :=
  let p := (s.ext t slot).part
  decide (p < (s.lext k.launch).due) && decide (p ≤ (s.lext k.launch).complete) &&
    ((s.launch k.launch).map (·.stat) == some .running)

/-! ## What a package records (R437, R438) -/

/-- The package's record of checkpoint `n`. -/
def makePkgPart (s : State) (q n : Nat) (l : Launch) (g : Graph) : CkPkg :=
  let e := s.lext q
  let inst := (memArcs g).filterMap (fun a => (l.arcTile.find? (fun p => p.1 == a)).map (fun p => (a, p.2)))
  { number := n
    futures := (s.pkg.futures.filter (fun f => f.2.launch == q && !e.futs.any (fun x => x.1 == f.1)) ++ e.futs).filter (fun f => f.2.stat != .empty)
    groups := s.pkg.groups.filterMap (fun x => match x.2 with | some y => if y.launch = q then some (y.gid, y.phase) else none | none => none)
    wins := inst.filterMap (fun p => (s.win p.2 (windowKey q p.1)).map (fun w => (p.1, w, tokenBytes s p.2 w w.rd w.occ)))
    actors := (inst.flatMap (fun p => match g.arcs[p.1]? with | some a => [a.prod, a.cons] | none => [])).map (fun x => (x, s.actorSt q x))
    finals := e.finals, mode := l.mode, reqsDone := e.reqsDone
    spawnQ := e.spawnQ.filter (fun r => decide (r.born < n)) ++
      e.parts.filterMap (fun x => (x.2.find? (fun p => p.number == n)).bind (·.req))
    committed := s.net.committed.filter (fun c => Config.keyLaunch c.2 == l.home) }

/-- The package that holds the pacing window (R333, R438). -/
def pacePkg (s : State) (l : Launch) (g : Graph) : Nat := l.pkgOf s.pkg.num (((g.arcs[l.pace]?).map (·.cons)).getD 0)

end Sys2Proof.Machine
end

