-- ==== Sys2Proof/Machine/Crypto.lean ====
section
/-! DEFINITION. Machine/Crypto.lean: the public functions that the manual names by their standards: SHA-512/256 (R443), SHA-512 and
RSASSA-PSS over it (R453, R454), and AES-256-GCM with a 96-bit nonce and a 128-bit tag (R349). -/

namespace Sys2Proof.Machine

/-! ## SHA-512/256 -/

/-- Whether a number is a prime, by trial division. -/
def isPrime (n : Nat) : Bool := decide (2 ≤ n) && (List.range n).all (fun d => decide (d < 2) || n % d != 0)

/-- The first 80 primes: those below 410. -/
def shaPrimes : List Nat := (List.range 410).filter isPrime

/-- The greatest x below `2^n` with `x^k ≤ v`, bit by bit from the top. -/
def rootBits (k v : Nat) : Nat → Nat
  | 0 => 0
  | n + 1 =>
    let hi := rootBits k (v / 2 ^ k) n * 2
    if (hi + 1) ^ k ≤ v then hi + 1 else hi

/-- The round constants: the first 64 bits behind the point of the cube roots of the primes. -/
def shaConstants : List DWord := shaPrimes.map (fun p => BitVec.ofNat 64 (rootBits 3 (p * 2 ^ 192) 67))

/-- The initial value of SHA-512: the same of the square roots of the first eight primes. -/
def shaRoots : List DWord := (shaPrimes.take 8).map (fun p => BitVec.ofNat 64 (rootBits 2 (p * 2 ^ 128) 69))

/-- A message padded to whole blocks of 128 bytes, its length in bits last. -/
def shaPad (m : List Byte) : List Byte :=
  m ++ [0x80] ++ List.replicate ((239 - m.length % 128) % 128) 0 ++ (leBytes 16 (m.length * 8)).reverse

/-- The XOR of three right rotations of a word. -/
def xorTurns (i j k : Nat) (x : DWord) : DWord := [i, j, k].foldl (fun y n => y ^^^ x.rotateRight n) 0

/-- The XOR of two right rotations and a right shift. -/
def xorTurnShift (i j k : Nat) (x : DWord) : DWord := x >>> k ^^^ (x.rotateRight i ^^^ x.rotateRight j)

/-- A block's schedule, newest word first, grown by one word: each is made of the words 2, 7, 15 and 16 before it. -/
def shaGrow (w : List DWord) : List DWord :=
  match w[1]?, w[6]?, w[14]?, w[15]? with
  | some w2, some w7, some w15, some w16 => (xorTurnShift 19 61 6 w2 + w7 + (xorTurnShift 1 8 7 w15 + w16)) :: w
  | _, _, _, _ => w

/-- The 80 words of a block's schedule from its 16 words, oldest first. -/
def shaSchedule (w : List DWord) : List DWord := (Nat.repeat shaGrow 64 w.reverse).reverse

/-- The working variables as two runs of four, newest first: the upper run a to d, the lower e to h. -/
structure ShaRuns where
  upper : List DWord
  lower : List DWord
deriving DecidableEq, Repr

/-- Bits of y where m is 1, of z where it is 0. -/
def bitPick (m y z : DWord) : DWord := z ^^^ (m &&& (y ^^^ z))

/-- One round with the sum of its constant and its schedule word: each run takes a new word and drops its oldest. -/
def ShaRuns.round (r : ShaRuns) (kw : DWord) : ShaRuns :=
  let u (i : Nat) := r.upper.getD i 0
  let l (i : Nat) := r.lower.getD i 0
  let fresh := kw + l 3 + bitPick (l 0) (l 1) (l 2) + xorTurns 14 18 41 (l 0)
  ⟨(fresh + xorTurns 28 34 39 (u 0) + bitPick (u 0 ^^^ u 1) (u 2) (u 1)) :: r.upper.take 3, (u 3 + fresh) :: r.lower.take 3⟩

/-- The compression of one block into the chaining value of eight words. -/
def shaBlock (h : List DWord) (b : List Byte) : List DWord :=
  let w := (List.range 16).map (fun i => BitVec.ofNat 64 (leNat (((b.drop (8 * i)).take 8).reverse)))
  let r := (List.zipWith (· + ·) shaConstants (shaSchedule w)).foldl ShaRuns.round ⟨h.take 4, h.drop 4⟩
  List.zipWith (· + ·) h (r.upper ++ r.lower)

/-- The chaining value after a message's blocks, from an initial value. -/
def shaDigest (h0 : List DWord) (m : List Byte) : List DWord :=
  let bs := shaPad m
  (List.range (bs.length / 128)).foldl (fun h i => shaBlock h ((bs.drop (128 * i)).take 128)) h0

/-- The initial value of SHA-512/256: SHA-512 of its name, from the initial value of SHA-512 with each byte XORed with 0xA5. -/
def shaInit : List DWord :=
  shaDigest (shaRoots.map (· ^^^ 0xA5A5A5A5A5A5A5A5)) [0x53, 0x48, 0x41, 0x2D, 0x35, 0x31, 0x32, 0x2F, 0x32, 0x35, 0x36]

/-- SHA-512/256 of a byte string (FIPS 180-4). -/
def sha512t256 (m : List Byte) : BitVec 256 :=
  BitVec.ofNat 256 (leNat ((shaDigest shaInit m).take 4 |>.flatMap (fun w => (leBytes 8 w.toNat).reverse)).reverse)

/-- SHA-512 of a byte string (FIPS 180-4): 64 bytes. -/
def sha512 (m : List Byte) : List Byte := (shaDigest shaRoots m).flatMap (fun w => (leBytes 8 w.toNat).reverse)

/-! ## RSASSA-PSS -/

/-- Bytes as a number, most significant byte first. -/
def beNat (b : List Byte) : Nat := leNat b.reverse

/-- A power modulo a number, by the bits of the exponent from the top. -/
def powMod (b e m : Nat) : Nat :=
  (List.range (Nat.log2 e + 1)).foldr (fun i x => x * x % m * (if e.testBit i then b else 1) % m) 1

/-- The mask generation of RFC 8017, with SHA-512. -/
def mgf1 (seed : List Byte) (n : Nat) : List Byte :=
  ((List.range (ceilDiv n 64)).flatMap (fun i => sha512 (seed ++ beBytes 4 i))).take n

/-- Whether an encoded message of 512 bytes is a PSS encoding of a message's hash, under a modulus of 4,096 bits, with a salt of 64 bytes: the
trailer, the separator, and the hash of the padded hash and salt. -/
def pssEncodes (em hash : List Byte) : Bool :=
  let h := (em.drop 447).take 64
  match List.zipWith (· ^^^ ·) (em.take 447) (mgf1 h 447) with
  | [] => false
  | x :: rest =>
    let db := (x &&& 0x7F) :: rest
    em.length == 512 && em.getD 511 0 == 0xBC && !(em.getD 0 0).getLsbD 7 && db.take 383 == List.replicate 382 0 ++ [1] &&
      h == sha512 (List.replicate 8 0 ++ hash ++ db.drop 383)

/-- Whether a signature of 512 bytes over a message holds under an RSA-4096 public key (RFC 8017). -/
def pssVerify (n e : Nat) (m sig : List Byte) : Bool :=
  sig.length == 512 && decide (beNat sig < n) && decide (Nat.log2 n < 4096) && pssEncodes (beBytes 512 (powMod (beNat sig) e n)) (sha512 m)

/-- Whether the vendor's key is the one whose hash stands in mask ROM, and every image carries its signature by it (R453). What of the key is
hashed the manual does not say: its modulus, most significant byte first, then its exponent (log entry 145). -/
def bootSigned (f : BootFlash) : Bool :=
  sha512 (beBytes 512 f.keyMod ++ leBytes 4 f.keyExp) == beBytes 64 f.romHash.toNat && !f.images.isEmpty &&
    f.images.all (fun i => pssVerify f.keyMod f.keyExp i.bytes i.sig)

/-! ## AES-256 -/

/-- Multiplication by x in GF(2^8) modulo x^8 + x^4 + x^3 + x + 1. -/
def aesDouble (a : Byte) : Byte := if a.getLsbD 7 then (a <<< 1) ^^^ 0x1B else a <<< 1

/-- Multiplication in GF(2^8). -/
def aesMul (a b : Byte) : Byte :=
  ((List.range 8).foldl (fun (p : Byte × Byte) i => (if b.getLsbD i then p.1 ^^^ p.2 else p.1, aesDouble p.2)) (0, a)).1

/-- The inverse in GF(2^8), 0 of 0: the 254th power. -/
def aesInv (a : Byte) : Byte :=
  let p2 := aesMul a a
  let p4 := aesMul p2 p2
  let p8 := aesMul p4 p4
  let p16 := aesMul p8 p8
  let p32 := aesMul p16 p16
  let p64 := aesMul p32 p32
  let p128 := aesMul p64 p64
  aesMul p2 (aesMul p4 (aesMul p8 (aesMul p16 (aesMul p32 (aesMul p64 p128)))))

/-- The S-box. -/
def aesSub (a : Byte) : Byte :=
  let x := aesInv a
  x ^^^ x.rotateLeft 1 ^^^ x.rotateLeft 2 ^^^ x.rotateLeft 3 ^^^ x.rotateLeft 4 ^^^ 0x63

def aesXor (a b : List Byte) : List Byte := (a.zip b).map (fun p => p.1 ^^^ p.2)

/-- The round constant of a step of the key schedule. -/
def aesRcon (n : Nat) : Byte := (List.range n).foldl (fun x _ => aesDouble x) 1

/-- The 60 words of the key schedule of a 32-byte key, newest first. -/
def aesWords (key : List Byte) : List (List Byte) :=
  (List.range 52).foldl (fun w j =>
    let i := j + 8
    let t := w.headD []
    let u := if i % 8 = 0 then (match (t.drop 1 ++ t.take 1).map aesSub with
        | x :: r => (x ^^^ aesRcon (i / 8 - 1)) :: r
        | [] => [])
      else if i % 8 = 4 then t.map aesSub else t
    aesXor (w.getD 7 []) u :: w) ((List.range 8).map (fun i => (key.drop (4 * i)).take 4)).reverse

/-- The 15 round keys of 16 bytes. -/
def aesKeys (key : List Byte) : List (List Byte) :=
  let w := (aesWords key).reverse
  (List.range 15).map (fun r => ((w.drop (4 * r)).take 4).flatten)

/-- ShiftRows on 16 bytes in column order. -/
def aesShift (b : List Byte) : List Byte := (List.range 16).map (fun i => b.getD ((i + 4 * (i % 4)) % 16) 0)

/-- MixColumns. -/
def aesMix (b : List Byte) : List Byte :=
  (List.range 16).map (fun i =>
    let g (k : Nat) : Byte := b.getD (i / 4 * 4 + (i + k) % 4) 0
    aesDouble (g 0) ^^^ (aesDouble (g 1) ^^^ g 1) ^^^ g 2 ^^^ g 3)

/-- One block of 16 bytes under the round keys (FIPS 197). -/
def aesBlock (ks : List (List Byte)) (b : List Byte) : List Byte :=
  let b1 := ((ks.drop 1).take 13).foldl (fun b k => aesXor (aesMix (aesShift (b.map aesSub))) k) (aesXor b (ks.headD []))
  aesXor (aesShift (b1.map aesSub)) (ks.getD 14 [])

/-! ## GCM -/

/-- Multiplication in GF(2^128), bit 127 the coefficient of 1. -/
def gcmMul (a b : BitVec 128) : BitVec 128 :=
  ((List.range 128).foldl (fun (p : BitVec 128 × BitVec 128) i =>
    (if a.getLsbD (127 - i) then p.1 ^^^ p.2 else p.1,
      if p.2.getLsbD 0 then (p.2 >>> 1) ^^^ (0xE1#128 <<< 120) else p.2 >>> 1)) (0, b)).1

/-- Bytes as a number, most significant first. -/
def beBlock (b : List Byte) : BitVec 128 := BitVec.ofNat 128 (leNat b.reverse)

/-- Cuts into blocks of 16 bytes, the last filled with zeros. -/
def gcmBlocks (b : List Byte) : List (BitVec 128) :=
  (List.range (ceilDiv b.length 16)).map (fun i =>
    let c := (b.drop (16 * i)).take 16
    beBlock (c ++ List.replicate (16 - c.length) 0))

/-- GHASH. -/
def ghash (h : BitVec 128) (bs : List (BitVec 128)) : BitVec 128 := bs.foldl (fun y b => gcmMul (y ^^^ b) h) 0

/-- The counter mode of GCM from counter 2. -/
def gcmCtr (ks : List (List Byte)) (nonce b : List Byte) : List Byte :=
  ((List.range (ceilDiv b.length 16)).map (fun i =>
    aesXor ((b.drop (16 * i)).take 16) (aesBlock ks (nonce ++ (leBytes 4 (i + 2)).reverse)))).flatten

/-- The tag of a ciphertext. -/
def gcmTag (ks : List (List Byte)) (nonce aad c : List Byte) : BitVec 128 :=
  let h := beBlock (aesBlock ks (List.replicate 16 0))
  let len : BitVec 128 := BitVec.ofNat 128 (aad.length * 8 * 2 ^ 64 + c.length * 8)
  ghash h (gcmBlocks aad ++ gcmBlocks c ++ [len]) ^^^ beBlock (aesBlock ks (nonce ++ [0, 0, 0, 1]))

def keyBytes (k : BitVec 256) : List Byte := (leBytes 32 k.toNat).reverse
def nonceBe (n : BitVec 96) : List Byte := (leBytes 12 n.toNat).reverse

/-- AES-256-GCM encryption: ciphertext and tag (SP 800-38D). The 8-byte header is taken in the order of memory (R2). -/
def gcmSeal (key : BitVec 256) (nonce : BitVec 96) (hdr : BitVec 64) (pt : List Byte) : List Byte × BitVec 128 :=
  let ks := aesKeys (keyBytes key)
  let c := gcmCtr ks (nonceBe nonce) pt
  (c, gcmTag ks (nonceBe nonce) (leBytes 8 hdr.toNat) c)

/-- AES-256-GCM decryption: the plaintext, when the tag holds. -/
def gcmOpen (key : BitVec 256) (nonce : BitVec 96) (hdr : BitVec 64) (c : List Byte) (tag : BitVec 128) : Option (List Byte) :=
  let ks := aesKeys (keyBytes key)
  if gcmTag ks (nonceBe nonce) (leBytes 8 hdr.toNat) c = tag then some (gcmCtr ks (nonceBe nonce) c) else none

end Sys2Proof.Machine
end

