-- ==== Sys2Proof/Machine/Recovery.lean ====
section
/-! DEFINITION. Machine/Recovery.lean: stopping a launch, returning it to a checkpoint (R334, R419, R439), aborting it (R430),
completing its share (R414), and what completes a checkpoint: digests, hash tree, serial re-execution (R441 to R443). -/

namespace Sys2Proof.Machine

/-! ## Stopping the tasks of a launch -/

/-- Takes a task's commands out of the copy engines' hands: what is on its way stays on its way, but completes nothing (R439). -/
def dropCmds (s : State) (t slot : Nat) : State :=
  let other (c : Nat × Nat × Nat) : Bool := !(c.1 == t && c.2.1 == slot)
  s.modNet (fun n => { n with
    tx := n.tx.map (fun f => (f.1, ⟨f.2.next, f.2.unacked.map (fun x => { x with cmds := x.cmds.filter other })⟩))
    fills := (n.fills.filter (fun f => f.cmds.any other)).map (fun f => { f with cmds := f.cmds.filter other }) })

/-- Discards a task's open sections that are not decided, the explicit one and the implicit one (R430, R439). -/
def discardBoth (s : State) (t slot : Nat) : State :=
  let go (s : State) (explicit : Bool) : State := match (s.ext t slot).section' explicit with
    | some x => if x.decided then s else discardSection s t slot explicit
    | none => s
  go (go s true) false

/-- Stops a task: sections discarded, copies and commands dropped, its records and windows gone, the tile freed; a step block
that runs is abandoned (R417). -/
def stopTask (s : State) (t slot : Nat) : State :=
  let s1 := dropCmds (discardBoth s t slot) t slot
  let s2 := (closeOwn s1 t slot).modTile t (fun v =>
    { v with
      copies := v.copies.filter (fun c => c.slot != slot)
      events := v.events.filter (fun r => r.slot != slot)
      pending := v.pending.filter (fun r => r.slot != slot) })
  let s3 := (s2.modExt t slot (fun e => { e with sect := none, implicit := none, cmds := [], rollback := none })).modTask t slot
    (fun k => if k.stat = .ended then k else { k with stat := .waiting, saved := none })
  if (s3.tile t).resident = some slot then s3.modTile t clearTile else s3

/-- Stops every task of a launch; the copies of its memory actors that are held give up their slots (R231). -/
def stopLaunch (s : State) (q : Nat) : State :=
  let s1 := (s.tasksOf q).foldl (fun s k => stopTask s k.1 k.2.1) s
  { s1 with tiles := s1.tiles.map (fun v => (v.1, { v.2 with memHeld := v.2.memHeld.filter (fun x => x.1 != q) })) }

/-! ## Windows of a launch (R310, R327) -/

/-- Initial tokens of an arc from the launch data (R41, R310). -/
def initialTokens (c : List NofSection) (a : Arc) : List Byte :=
  let n := a.delay * a.tok
  if a.data = 0xFFFFFFFF then List.replicate n 0 else ((((sectOf c 0x0C).getD []).drop a.data).take n)

/-- Opens a launch's window or proxy with no history, and puts the initial tokens in a window (R310, R327). -/
def openArc (s : State) (q : Nat) (c : List NofSection) (g : Graph) (u a : Nat) (x : Window) : State :=
  let y := { x with wr := 0, rd := 0, occ := 0, lap := 0, laps := 0, cCount := 0, marks := [], inWord := 0, outWord := 0, tags := [], next := 0 }
  let s1 := openWindow { s with msgs := mapSet [] s.msgs (winNo u (windowKey q a)) [] } u (windowKey q a) y
  match g.arcs[a]? with
  | some z => if x.proxy then s1 else s1.put (spadBase u + x.base) (initialTokens c z)
  | none => s1

/-- Every window and proxy of a launch as at its start. -/
def reopenArcs (s : State) (q : Nat) (l : Launch) (g : Graph) : State :=
  l.ends.foldl (fun s p => match (s.win p.2 (windowKey q p.1)).or (mapGet none ((s.lext q).closed.map (fun x => (x.1, some x.2))) p.1) with
    | some x => openArc s q (s.container l.container) g p.2 p.1 x
    | none => s) s

/-! ## Restoring (R334, R419, R439) -/

/-- Puts the recorded state of a window on the open one: pointers, markers and the bytes of its slots; the producer's copy of a
window of this package follows it. -/
def restoreWindow (s : State) (q : Nat) (l : Launch) (prods : List (Nat × ProdCopy)) (e : Nat × Window × List (Byte × Bool)) : State :=
  let a := e.1
  let w := e.2.1
  match l.ends.find? (fun p => p.1 == a) with
  | none => s
  | some (_, u) =>
    let key := windowKey q a
    match s.win u key with
    | none => s
    | some x =>
      let y := { x with wr := w.wr, rd := w.rd, occ := w.occ, lap := w.lap, laps := w.laps, cCount := w.cCount, marks := w.marks
                        inWord := w.inWord, outWord := w.outWord, tags := w.tags, next := w.next }
      let s1 := (List.range w.occ).foldl (fun s i =>
        writeRow s (memWho u q) [.all] [] [⟨spadBase u + y.slotOff (w.rd + i), y.tok⟩] ((e.2.2.drop (i * y.tok)).take y.tok))
        (s.modWin u key (fun _ => y))
      let p := mapGet ProdCopy.zero prods a
      if y.proxy then drainProxy (s1.modProd u u key (fun _ => p)) u key
      else if y.pPkg = s.pkg.num then
        s1.modProd y.pTile u key (fun _ => ⟨y.wr, y.rd, y.occ, y.lap, p.pCount, w.laps * w.cap + w.rd + w.occ⟩)
      else s1

/-- A task returns to its recorded part, or to its beginning where it has none; records that units have made for it since it stopped go
(R358, R439). An uncorrectable word of the part in the checkpoint store is a memory `POISON` of the task (R430, R431; log entry 147). On a shared tile it holds a frame again (R405). -/
def restoreTask (s : State) (q n : Nat) (l : Launch) (t slot : Nat) (k : Task) : State :=
  let put (s : State) (k : Task) (e : TaskExt) : State :=
    s.modTile t (fun v => { v with
      tasks := mapSet none v.tasks slot (some k), exts := mapSet TaskExt.zero v.exts slot e
      events := v.events.filter (fun r => r.slot != slot), pending := v.pending.filter (fun r => r.slot != slot) })
  let s' := match (if n = 0 then none else s.partNo q k.lidx n) with
  | none =>
    put s { k with stat := .waiting, prio := k.basePrio, aged := 0, firing := none, phase := 0, firings := 0, fresh := true, saved := none }
      TaskExt.zero
  | some p =>
    let s1 := put s (k.fromPart p (s.container l.container)) ((s.ext t slot).fromPart p)
    let s3 := restoreHeld s1 q t slot p
    match partPoison s p with
    | some w => deliverFault s3 t q (mkRec s3 t slot 0 (w1Core ((p.cores.getD 0 Core.reset).pc)) ⟨cPOISON, w, 0x08, false⟩ true)
    | none => s3
  takeFrames s' t

/-- The actors of a part return to their recorded state; an access that was held is tried afresh, and its window's copy holds no slot (R419). -/
def restoreActors (s : State) (q : Nat) (as : List (Nat × ActorSt)) : State :=
  as.foldl (fun s a => s.modActor q a.1 (fun _ => { a.2 with held := none })) s

/-- Slots of a tile that a returning task of a launch can take: those with no task, or with an ended one of another launch. -/
def returnSlot (s : State) (q t : Nat) : Option Nat :=
  (List.range 8).find? (fun i => match s.task t i with | none => true | some k => k.stat == .ended && k.launch != q)

/-- The tasks of a launch that had not ended at a checkpoint and have lost their slots since are bound again (R406, R419); none where a tile has no
slot for one. -/
def rebindCleared (s : State) (q n : Nat) : Option State :=
  let back (x : Nat × Nat × Task) : Bool := match (if n = 0 then none else s.partNo q x.2.2.lidx n) with | some p => !p.ended | none => true
  let old := (s.lext q).cleared
  (old.filter back).foldl (fun o x => o.bind (fun s => (returnSlot s q x.1).map (fun i =>
    (clearSlot s x.1 i).modTile x.1 (fun v =>
      { v with tasks := mapSet none v.tasks i (some x.2.2), exts := mapSet TaskExt.zero v.exts i TaskExt.zero }))))
    (some (s.modLext q (fun e => { e with cleared := old.filter (fun x => !back x) })))

/-- Continuation nodes in use, by cluster, as the futures hold them. -/
def recountNodes (s : State) : State :=
  s.modPkg (fun p => { p with nodes := p.futures.foldl (fun m f => mapSet 0 m (f.1 / 4096) (mapGet 0 m (f.1 / 4096) + f.2.conts.length)) [] })

/-- The launch's futures return to their recorded states; those created since are dropped (R437). -/
def restoreFutures (s : State) (q : Nat) (fs : List (Nat × Fut)) : State :=
  let s1 := s.pkg.futures.foldl (fun s f =>
    if f.2.launch = q && f.2.stat != .empty && !(fs.any (fun x => x.1 == f.1)) then dropFuture s ⟨f.2.gen, f.1 / 4096, f.1 % 4096⟩ else s) s
  recountNodes (fs.foldl (fun s f =>
    let cur := s.fut f.1
    if cur.stat = .empty ∨ cur.launch = q then s.setFut f.1 f.2 else s) s1)

/-- The launch's groups return to their recorded phases; who has arrived and who has ended follows from the tasks. -/
def restoreGroups (s : State) (q : Nat) (gs : List (Nat × Nat)) : State :=
  let ks := s.tasksOf q
  s.modPkg (fun p => { p with groups := p.groups.map (fun e => (e.1, e.2.map (fun g =>
    if g.launch ≠ q then g
    else
      let ph := mapGet 0 gs g.gid
      { g with
        phase := ph
        arrived := (ks.filter (fun k => mapGet none (s.ext k.1 k.2.1).arrived g.gid == some ph)).map (fun k => k.2.2.lidx)
        ended := ((ks.filter (fun k => k.2.2.stat == .ended)).map (fun k => k.2.2.lidx) ++ (s.lext q).cleared.map (fun x => x.2.2.lidx)).filter
          (fun m => g.members.contains m) }))) })

/-- Whether an infuser command of a launch is still in a queue (R368, R369). -/
def infuserBusy (s : State) (q : Nat) : Bool := s.hbm.any (fun k => k.2.queue.any (fun p => p.cmd.launch == q))

/-- Some logical indices, each with a digest that is free. -/
def freeDigests (s : State) (is : List Nat) : State × List (Nat × DWord) :=
  is.foldl (fun r i => let d := r.1.draw; (d.2, r.2 ++ [(i, BitVec.ofNat 64 d.1)])) (s, [])

/-- Free logical indices of spawned tasks, as many as are asked for. -/
def freeIndices (s : State) (n : Nat) : State × List Nat :=
  (List.range n).foldl (fun r _ => let d := r.1.draw; (d.2, r.2 ++ [2 ^ 31 + d.1 % 2 ^ 31])) (s, [])

/-- The digests of a launch's tasks on other packages, which no message brings here: those of the instances placed there, and of the tasks they have
spawned, are free (R441; log entry 83). -/
def remoteDigests (s : State) (q : Nat) : State × List (Nat × DWord) :=
  match s.launch q, s.graph q with
  | some l, some g =>
    if (s.otherPkgs q).isEmpty then (s, [])
    else
      let cs := (computeActors g).zipIdx.filterMap (fun x => if s.mine l x.1 then none else some x.2)
      let ms := (memArcs g).zipIdx.filterMap (fun x =>
        if s.mine l (((g.arcs[x.1]?).map (·.prod)).getD 0) then none else some ((computeActors g).length + x.2))
      let d := s.draw
      let is := freeIndices d.2 (d.1 % 2 ^ 16)
      freeDigests is.1 (cs ++ ms ++ is.2)
  | _, _ => (s, [])

/-- Forms the launch digest from the digests of this package's tasks and those of the others', in logical-index order (R441). -/
def formDigest (s : State) (q : Nat) (ds : List (Nat × DWord)) : State × Nat :=
  let r := remoteDigests s q
  (r.1, chainDigest (s.seed q) (r.2.foldl (fun m d => mapInsert m d.1 d.2) ds))

/-- The recorded digests of a checkpoint by logical index. -/
def recordedDigests (s : State) (q n : Nat) : List (Nat × DWord) :=
  let e := s.lext q
  let inst := ((e.pkgParts.find? (fun p => p.number == n)).map (·.finals)).getD []
  e.parts.foldl (fun m x => match x.2.find? (fun p => p.number == n) with
    | some p => mapInsert m x.1 p.digest
    | none => m) inst

/-- What comes back beside the tasks: the package's record, or the start of the launch (R334, R437). -/
def restorePkg (s : State) (q n : Nat) (l : Launch) : State :=
  match (if n = 0 then none else (s.lext q).pkgParts.find? (fun p => p.number == n)) with
  | none =>
    (((restoreGroups (restoreFutures s q []) q []).modLext q (fun e => { e with finals := [], spawnQ := [], reqsDone := 0, due := 0, complete := 0
                                                                                parts := [], pkgParts := [], digest := 0, digests := [] })).modLaunch q
      (fun x => { x with mode := l.startMode, modeReq := (s.lext q).reqs[0]? }))
  | some p =>
    let s0 := s.modNet (fun x => { x with committed := x.committed ++ p.committed.filter (fun c => !x.committed.contains c) })
    let s1 := restoreActors s0 q p.actors
    let s2 := p.wins.foldl (fun s w => restoreWindow s q l [] w) s1
    ((restoreGroups (restoreFutures s2 q p.futures) q p.groups).modLext q (fun e =>
      { e with finals := p.finals, spawnQ := p.spawnQ, reqsDone := p.reqsDone, due := n, complete := n
               digest := mapGet 0 e.digests n, digests := e.digests.filter (fun x => decide (x.1 ≤ n))
               parts := e.parts.map (fun x => (x.1, x.2.filter (fun y => decide (y.number ≤ n))))
               pkgParts := e.pkgParts.filter (fun y => decide (y.number ≤ n)) })).modLaunch q
      (fun x => { x with mode := p.mode, modeReq := (s.lext q).reqs[p.reqsDone]? })

/-- Every task of a launch takes its `DIGEST`, those that wait to be bound again as they are bound (R442). -/
def digestTraps (s : State) (q : Nat) : State :=
  match (s.lext q).mismatch with
  | none => s
  | some m =>
    ((s.tasksOf q).foldl (fun s k => digestTask s k.1 k.2.1 m) s).modLext q (fun e =>
      { e with mismatch := none, spawnQ := e.spawnQ.map (fun r => { r with digest := some m }) })

/-- This package's restore is done (R439): its tasks resume, and the package that asked for it learns of it. -/
def restoreDone (s : State) (q : Nat) : State :=
  match (s.lext q).reportTo with
  | some p => (s.sendControlTo q 7 0 p).modLext q (fun e => { e with reportTo := none })
  | none => s.modLext q (fun e => { e with restored := if e.restored.contains s.pkg.num then e.restored else e.restored ++ [s.pkg.num] })

/-- Completes the pre-emption requests of a launch that stand, with a status and a cause (R401, R439). -/
def endPreempts (s : State) (q status cause : Nat) : State :=
  (s.lext q).preempt.foldl (fun s p => complete s p.2.toNat ⟨status, cause, 0, 3, 0, p.1, none, 0⟩) (s.modLext q (fun e => { e with preempt := [] }))

/-- Completes the pre-emption requests once every package has reported its restore (R439). -/
def preemptStep (s : State) (q : Nat) : State :=
  let e := s.lext q
  if (launchPkgs s q).all (fun p => e.restored.contains p) then
    endPreempts (s.modLext q (fun e => { e with restored := [] })) q 0 0
  else s

/-- The marker of a proxy whose actor had stopped by the checkpoint is carried again, behind its tokens (R334). -/
def remarkProxies (s : State) (q : Nat) (l : Launch) (g : Graph) : State :=
  l.proxyTile.foldl (fun s p => match g.arcs[p.1]? with
    | some a => if g.hasMem a.prod && (s.actorSt q a.prod).stopped then placeMark s q l p.1 else s
    | none => s) s

/-- Returns a stopped launch to its target checkpoint, once no infuser command of it is queued (R369, R439). -/
def finishRestore (s : State) (q : Nat) : State :=
  match s.launch q, s.graph q with
  | some l, some g =>
    if l.stat != .restoring || infuserBusy s q then s
    else
      let n := (s.lext q).target
      -- spawned tasks: those that live on wait again to be bound
      let s1 := ((s.tasksOf q).filter (fun k => k.2.2.spawned)).foldl (fun s k => s.modTile k.1 (fun v =>
        { v with tasks := mapSet none v.tasks k.2.1 none, exts := mapSet TaskExt.zero v.exts k.2.1 TaskExt.zero, events := v.events.filter (fun r => r.slot != k.2.1)
                 pending := v.pending.filter (fun r => r.slot != k.2.1) })) s
      match rebindCleared s1 q n with
      | none => s
      | some s1 =>
      let s2 := (reopenArcs s1 q l g).modLaunch q (fun l => { l with actors := [] })
      let rec' := l.place.filterMap (fun x => if n = 0 then none else s.partNo q x.1 n)
      let s3 := (s2.tasksOf q).foldl (fun s k => restoreTask s q n l k.1 k.2.1 k.2.2) (restoreActors s2 q (rec'.map (·.actors)).flatten)
      let prods := (rec'.map (·.prods)).flatten
      let s4 := (rec'.map (·.wins)).flatten.foldl (fun s w => if w.2.1.launch.isSome then restoreWindow s q l prods w else s) s3
      let s5 := restorePkg s4 q n l
      let s6 := (s5.modLext q (fun e => { e with written := [], quiet := [], marksDue := [], futs := [], closed := [] })).modLaunch q (fun x => { x with stat := .running })
      preemptStep (restoreDone (digestTraps (remarkProxies s6 q l g) q) q) q
  | _, _ => s

/-- Whether a launch is under way: it runs, or is to return to a checkpoint. -/
def LaunchStat.live (x : LaunchStat) : Bool := x == .running || x == .restoring || x == .unplaced

/-- Begins the return of a launch to a checkpoint: its tasks stop at once. One that waits to be placed again does not run before that (R415); one that
has completed or been aborted does not return. -/
def beginRestore (s : State) (q n : Nat) (report : Option Nat) : State :=
  if !((s.launch q).any (fun l => l.stat.live)) then s
  else ((stopLaunch s q).modLext q (fun e => { e with target := n, reportTo := report })).modLaunch q (fun l =>
    { l with stat := if l.stat = .unplaced then .unplaced else .restoring })

/-- A recovery that this package begins for a fault, a loss or a request: the other packages are told (R439). -/
def recoverLaunch (s : State) (q n : Nat) : State :=
  if !((s.launch q).any (fun l => l.stat.live)) then s else finishRestore ((beginRestore s q n none).sendControl q 4 0) q

/-! ## Completing a share (R401, R414, R430) -/

/-- Frees what a share holds beside its slots: windows, futures, group entries, jump table, waiting tasks. -/
def freeShare (s : State) (q : Nat) : State :=
  let l := s.launch q
  let s1 := ((l.map (·.ends)).getD []).foldl (fun s p => closeWindow s p.2 (windowKey q p.1)) s
  let s2 := s1.pkg.futures.foldl (fun s f =>
    if f.2.launch = q && f.2.stat != .empty then dropFuture s ⟨f.2.gen, f.1 / 4096, f.1 % 4096⟩ else s) s1
  (s2.modPkg (fun p => { p with groups := p.groups.filter (fun e => match e.2 with | some g => g.launch != q | none => false) })).modLext q
    (fun e => { e with buckets := [], spawnQ := [], groups := [], closed := [], cleared := [], dies := (List.range 24).filter (fun d => s.pkg.dieMask.getLsbD d) })

/-- Completes the mode requests of a launch that have not been, and its pre-emption requests, with its own status and cause: nothing else will ever
complete them (R401, R447; log entry 151). -/
def endRequests (s : State) (q status cause : Nat) : State :=
  let e := s.lext q
  endPreempts ((e.reqs.drop e.reqsDone).foldl (fun s r => complete s r.record.toNat ⟨status, cause, 0, 2, 0, r.seq, none, 0⟩)
    (s.modLext q (fun e => { e with reqsDone := e.reqs.length }))) q status cause

/-- A share completes: its tables are freed and its record written, once, and the requests that still stand end with it (R401, R414). -/
def completeShare (s : State) (q status cause idx : Nat) (val : Option Nat) (d : Nat) : State :=
  match s.launch q with
  | none => s
  | some l =>
    endRequests (complete ((freeShare s q).modLaunch q (fun l => { l with stat := if status = 0 then .completed else .aborted })) l.record.toNat
      ⟨status, cause, 0, 1, idx, q, val, d⟩) q status cause

/-- Aborts a launch (R430): every task stops, every open section is discarded, the share completes with status 0x21. -/
def abortLaunch (s : State) (q cause actor : Nat) (val : DWord) : State :=
  match s.launch q with
  | none => s
  | some l =>
    if l.stat = .aborted ∨ l.stat = .completed then s
    else
      let r := formDigest ((stopLaunch s q).modLext q (fun e => { e with abort := some (cause, actor, val) })) q (taskDigests s q)
      completeShare r.1 q 0x21 cause actor (some val.toNat) r.2

/-! ## The hash tree (R443) -/

/-- The 32 bytes of a hash. -/
def hashBytes (x : BitVec 256) : List Byte := (List.range 32).map (fun i => BitVec.ofNat 8 (x.toNat / 2 ^ (8 * (31 - i))))

/-- The bytes of a 2 MiB unit of a tensor, as far as the span and its present pages go. -/
def unitBytes (s : State) (u : Nat) : List Byte :=
  let ctx := u / 2 ^ 42
  let id := u / 2 ^ 26 % 2 ^ 16
  match descOf s ctx id with
  | none => []
  | some d =>
    let off := u % 2 ^ 26 * 2 ^ 21
    (List.range (min (2 ^ 21) (d.span - off))).map (fun i =>
      let e := pteOf s ctx d ((off + i) / pageBytes d.pg)
      if bitOf e 63 then s.homeByte (frameByte e (off + i) (pageBytes d.pg)) else 0)

/-- One level of the tree: pairs hashed, an odd node promoted. -/
def hashLevel : List (BitVec 256) → List (BitVec 256)
  | a :: b :: r => sha512t256 (hashBytes a ++ hashBytes b) :: hashLevel r
  | r => r

/-- The root of a tree of leaves. -/
def hashRoot (ls : List (BitVec 256)) : BitVec 256 := ((List.range (ls.length)).foldl (fun l _ => hashLevel l) ls).headD 0

/-- Writes the hash tree of a complete checkpoint, the header last. An entry of 40 bytes leaves 24 for the hash: its first ones (log entry 144). -/
def writeHashTree (s : State) (q n : Nat) : State :=
  let r := s.regs.plxHash.toNat
  if !bitOf r 0 then s
  else
    let base := bitsOf r 51 12 * 2 ^ 12
    let size := 2 ^ bitsOf r 63 58 * 4096
    let us := ((s.lext q).dirty.foldl (fun m u => mapInsert m u ()) []).map (·.1)
    let leaves := us.map (fun u => (u, sha512t256 (unitBytes s u)))
    let ent (x : Nat × BitVec 256) : List Byte :=
      leBytes 8 (x.1 / 2 ^ 26 % 2 ^ 16 + 2 ^ 16 * (x.1 / 2 ^ 42)) ++ leBytes 8 (x.1 % 2 ^ 26) ++ (hashBytes x.2).take 24
    let s1 := s.put (base + 64) ((leaves.take ((size - 64) / 40)).map ent).flatten
    s1.put base (leBytes 8 q ++ leBytes 8 n ++ leBytes 8 leaves.length ++ leBytes 8 0 ++ hashBytes (hashRoot (leaves.map (·.2))))

/-! ## A checkpoint is complete (R438, R441, R442) -/

/-- Checks a formed digest against its reference (R442): a first difference takes the launch back for serial re-execution until this digest is formed
again, a second aborts it. The flag tells that the digest stands. -/
def checkDigest (s : State) (q n back d : Nat) : State × Bool :=
  let stands : State := s.modLext q (fun e => { e with serial := if e.serial = some n then none else e.serial })
  match refDigest s q n with
  | none => (stands, true)
  | some r =>
    if d = r then (stands, true)
    else if (s.lext q).serial.isSome then (abortLaunch s q cDIGEST 0 (BitVec.ofNat 64 d), false)
    else (recoverLaunch (s.modLext q (fun e => { e with serial := some n, mismatch := some (BitVec.ofNat 64 d, BitVec.ofNat 64 r) })) q back, false)

/-- Checkpoint `n` of a launch is complete on this package (R438, R441 to R443, R277). -/
def completeCheckpoint (s : State) (q n : Nat) : State :=
  match s.launch q with
  | none => s
  | some l =>
    if l.stat != .running || n ≤ (s.lext q).complete then s
    else
      let r := formDigest s q (recordedDigests s q n)
      let d := r.2
      let s1 := r.1.modLext q (fun e => { e with complete := n, written := [], digest := BitVec.ofNat 64 d, digests := (n, BitVec.ofNat 64 d) :: e.digests.take 1 })
      let s2 := (writeHashTree s1 q n).modLext q (fun e => { e with dirty := [] })
      let s3 := s2.modNet (fun x => { x with committed := x.committed.filter (fun c => !(Config.keyLaunch c.2 == l.home && decide (Config.keyPart c.2 < n))) })
      (checkDigest s3 q n (n - 1) d).1

/-- The pacing package announces a checkpoint complete once every package has written its parts (R438). -/
def announceComplete (s : State) (q n : Nat) : State :=
  if (launchPkgs s q).all (fun p => (s.lext q).written.contains p) then completeCheckpoint (s.sendControl q 6 n) q n else s

/-- A package whose parts of the next checkpoint are all recorded records the rest and reports it (R438). -/
def checkpointStep (s : State) (q : Nat) : State :=
  match s.launch q, s.graph q with
  | some l, some g =>
    let e := s.lext q
    let n := e.complete + 1
    if l.stat != .running || decide (e.due < n) || e.pkgParts.any (fun p => p.number == n) ||
        (s.tasksOf q).any (fun k => decide ((s.ext k.1 k.2.1).part < n)) then s
    else
      let s1 := s.modLext q (fun e => { e with pkgParts := makePkgPart s q n l g :: e.pkgParts.take 1, futs := [] })
      if pacePkg s l g = s.pkg.num then announceComplete (s1.modLext q (fun e => { e with written := e.written ++ [s.pkg.num] })) q n
      else s1.sendControlTo q 5 n (pacePkg s l g)
  | _, _ => s

/-- What every launch has waiting: a restore that can be done, a checkpoint whose parts are recorded. -/
def launchSteps (s : State) : State := (s.pkg.launches.map (·.1)).foldl (fun s q => checkpointStep (finishRestore s q) q) s

/-! ## The forms and the agent's step (R284, R285) -/

/-- CK_TAKE (R284). -/
def execCkTake (d : Reg) (s : State) : Host.Outcome State Fault Refusal :=
  let t := s.ft
  let sl := s.fslot
  perform <| ctlOnly s <|
    if (s.ext t sl).sect.isSome then .resource s
    else match s.task t sl with
    | none => .ret s d 0
    | some k =>
      if (s.tile t).mx.busy then .wait s
      else if (s.lext k.launch).due ≤ (s.ext t sl).part then .ret s d 0
      else if !partDue s t sl k then .wait s
      else
        let r := commitStep s t sl false
        if r.2 then
          .go (checkpointStep (recordPart (((r.1.wx d (BitVec.ofNat 64 ((s.ext t sl).part + 1)))).modCur Core.advance) t sl) k.launch)
        else .wait r.1

/-- CK_DIGEST (R285). -/
def execCkDigest (d a : Reg) (s : State) : Host.Outcome State Fault Refusal :=
  let x := s.rn a
  let q := s.taskLaunch s.ft s.fslot
  perform <| ctlOnly s <|
    if 4 ≤ x then .illegal s
    else .ret s d (
      if x = 0 then (s.ext s.ft s.fslot).digest
      else if x = 1 then ((s.newestPart q (s.taskLidx s.ft s.fslot)).map (·.digest)).getD 0
      else if x = 2 then (s.lext q).digest
      else BitVec.ofNat 64 (s.lext q).complete)

end Sys2Proof.Machine
end

