-- ==== Sys2Proof/Machine/Launch.lean ====
section
/-! DEFINITION. Machine/Launch.lean: what the launch journal's entries say (R314, R395 to R397, R447) and the validation of a
launch packet: its checks in order, its placement, and what each tile can hold (R69, R315, R323, R398, R402 to R405). -/

namespace Sys2Proof.Machine

/-! ## The journal (R395, R447, R448) -/

/-- The 256 bytes of a journal entry. -/
def entryBytes (s : State) (q : Nat) : List Byte :=
  let r := s.regs.jbase.toNat
  s.bytesAt (.engine 0) (bitsOf r 51 12 * 2 ^ 12 + 256 * (q % 2 ^ bitsOf r 4 0)) 256

def entryType (s : State) (q : Nat) : Nat := fieldAt (entryBytes s q) 0 1

/-- Which doorbell write exposed an entry (R315). -/
def groupOfEntry (s : State) (q : Nat) : Option Nat := s.pkg.doorbells.findIdx? (fun v => decide (q < v))

/-- The fields of a mode request (R314). -/
structure ModePkt where
  newMode : Nat
  count : Nat
  target : Nat
  record : DWord
  ok : Bool
deriving DecidableEq, Repr, Inhabited

def parseMode (bs : List Byte) : ModePkt :=
  let f := fieldAt bs
  ⟨f 1 1, f 4 4, f 8 8, BitVec.ofNat 64 (f 0x10 8),
    f 1 1 < 8 && f 2 2 == 0 && f 4 4 != 0 && f 0x18 232 == 0 && (recordAddr (f 0x10 8)).isSome⟩

/-- The entries that one doorbell write exposed, an entry's own among them, in order (R315). -/
def groupEntries (s : State) (q : Nat) : List Nat :=
  match groupOfEntry s q with
  | none => []
  | some i =>
    let lo := match i with | 0 => 0 | j + 1 => (s.pkg.doorbells[j]?).getD 0
    (List.range ((s.pkg.doorbells[i]?).getD 0 - lo)).map (fun k => lo + k)

/-- The mode requests that are validated together with a launch packet: those of its doorbell group that target it, before it or behind it (R315). -/
def requestsOf (s : State) (q : Nat) : List (Nat × ModePkt) :=
  (groupEntries s q).filterMap (fun e =>
    let m := parseMode (entryBytes s e)
    if e ≠ q ∧ entryType s e = 2 ∧ m.target = q then some (e, m) else none)

/-- Whether a mode request stands before its target in one doorbell group: it is validated with that launch, in the launch's round (R315). -/
def deferred (s : State) (q : Nat) : Bool :=
  let t := (parseMode (entryBytes s q)).target
  decide (q < t) && (groupEntries s q).contains t && entryType s t == 1

/-- Puts a request among others, behind those of its switch count and below. -/
def insertReq (r : ModeReq) : List ModeReq → List ModeReq
  | [] => [r]
  | x :: xs => if r.count < x.count then r :: x :: xs else x :: insertReq r xs

/-- The requests of a doorbell group as they stand in their launch: by rising switch count. -/
def chainOf (rs : List (Nat × ModePkt)) : List ModeReq :=
  rs.foldl (fun l m => insertReq ⟨m.1, m.2.newMode, m.2.count, m.2.record⟩ l) []

/-- A chain of requests as the checks of a graph take it. -/
def switches (rs : List ModeReq) : List (Nat × Nat) := rs.map (fun r => (r.newMode, r.count))

/-- The fields of a launch packet (R396). -/
structure LaunchPkt where
  flags : Nat
  prio : Nat
  mode : Nat
  container : Nat
  graph : Nat
  pace : Nat
  interval : Nat
  ctx : Nat
  seed : DWord
  seq : Nat
  record : DWord
  bindAddr : Nat
  bindCount : Nat
  template : Nat
  replica : Nat
  map : List Nat
  home : Nat
  rsv : Nat
deriving DecidableEq, Repr, Inhabited

def parsePkt (bs : List Byte) : LaunchPkt :=
  let f := fieldAt bs
  { flags := f 1 1, prio := f 2 1, mode := f 3 1, container := f 4 4, graph := f 8 2, pace := f 0x0A 2, interval := f 0x0C 2
    ctx := f 0x0E 2, seed := BitVec.ofNat 64 (f 0x10 8), seq := f 0x18 8, record := BitVec.ofNat 64 (f 0x20 8), bindAddr := f 0x28 8
    bindCount := f 0x30 2, template := f 0x32 2, replica := f 0x38 8, map := (List.range 128).map (fun i => f (0x40 + i) 1)
    home := f 0xC0 8, rsv := f 0x34 4 + f 0xC8 56 }

def LaunchPkt.noPace (p : LaunchPkt) : Bool := bitOf p.flags 0
def LaunchPkt.hasMap (p : LaunchPkt) : Bool := bitOf p.flags 1

/-- A bind record (R397), with whether the fields that it alone decides hold. -/
def parseBindRec (bs : List Byte) : Bind × Bool :=
  let f := fieldAt bs
  (⟨f 0 2, f 2 2, f 4 2, f 6 1, (List.range 5).map (fun i => f (8 + 4 * i) 4), (List.range 5).map (fun i => f (0x1C + 4 * i) 4),
    (List.range 4).map (fun i => f (0x30 + 2 * i) 2), (List.range 4).map (fun i => sext 32 (f (0x38 + 4 * i) 4))⟩,
   f 4 2 ≤ 1023 && f 6 1 ≤ 4 && f 7 1 == 0)

/-- The bind records in force: the packet's table, or the template's (R396). -/
def bindRecs (s : State) (p : LaunchPkt) (template : List (List Byte)) : List (Bind × Bool) :=
  if p.bindAddr = 0 then template.map parseBindRec
  else (List.range p.bindCount).map (fun i => parseBindRec (s.homeBytes (p.bindAddr + 72 * i) 72))

/-- The template that a packet names. -/
def templateOf (s : State) (p : LaunchPkt) : Option (List (List Byte)) :=
  (sectOf (s.container p.container) 0x0B).bind (fun bs => Config.templateBinds bs p.template)

/-! ## Rejections (R398, R401) -/

/-- Why an entry is rejected: field code, index, the offending value where the manual states one, cause. -/
structure VFail where
  field : Nat
  idx : Nat
  val : Option Nat
  cause : Nat
deriving DecidableEq, Repr, Inhabited

/-- Bytes of module HBM. -/
def hbmEnd : Nat := 3 * 2 ^ 40

/-- Order 1: what the packet alone decides. -/
def packetOk (s : State) (q : Nat) (p : LaunchPkt) : Bool :=
  p.flags < 4 && p.prio < 4 && p.mode < 8 && p.rsv == 0 && p.seq == q &&
    (if p.noPace then p.pace == 0xFFFF && p.interval == 0 else 1 ≤ p.interval) &&
    p.ctx < 4096 && (ctxEntry s p.ctx).isSome && (recordAddr p.record.toNat).isSome &&
    p.bindAddr % 8 == 0 && decide (p.bindAddr + 72 * p.bindCount ≤ hbmEnd) && p.bindCount ≤ 255 && (p.bindAddr != 0 || p.bindCount == 0) &&
    p.replica % 64 == 0 && decide (p.replica + 16384 ≤ hbmEnd) && p.map.all (fun x => decide (x < 64)) &&
    (p.hasMap || (p.map.all (· == 0) && p.home == q)) && (p.bindAddr == 0 || (bindRecs s p []).all (·.2))

/-- Order 2, the fields that depend on the graph. -/
def graphFieldsOk (s : State) (q : Nat) (p : LaunchPkt) (g : Graph) (binds : List Bind) : Bool :=
  let used := p.map.take g.actors.length
  p.mode < g.modes && (p.noPace || p.pace < g.arcs.length) &&
    (!p.hasMap || (decide (g.actors.length ≤ 128) && used.contains s.pkg.num &&
      (p.home == q || used.any (fun x => decide (x < s.pkg.num))))) &&
    binds.length == (memActors g).length && (memActors g).all (fun x => (binds.filter (fun b => b.actor == x)).length == 1)

/-- The launch that a packet describes, not placed yet. -/
def pktLaunch (s : State) (p : LaunchPkt) (g : Graph) (binds : List Bind) : Launch :=
  { prio := p.prio, nopace := p.noPace, hasMap := p.hasMap, container := p.container, graph := p.graph, template := p.template
    pace := p.pace, interval := p.interval, ctx := p.ctx, seed := p.seed, record := p.record
    map := if p.hasMap then p.map.take g.actors.length else [], home := p.home
    replica := if p.replica = 0 then [] else s.homeBytes p.replica 16384
    binds := binds, mode := p.mode, startMode := p.mode, stat := .validating, place := [], arcTile := [], proxyTile := [], actors := []
    modeReq := none }

/-! ## Binds (order 4: R13, R15, R17, R51, R56, R58) -/

/-- A bank-striped view fits its frame by the two tests of R15; a view of another layout has no frame to fit. -/
def viewFits (d : TDesc) (b : Bind) : Bool :=
  d.layout != 3 || (decide (b.b0 + d.p ≤ 1024) && decide (ceilDiv (b.extent.getD 0 0) d.p * d.q ≤ 2048))

/-- The pages of a pinned tensor are present and well formed (R56). -/
def pinnedOk (s : State) (d : TDesc) : Bool :=
  !d.pin || (List.range d.pages).all (fun i => let e := pteFresh s d i; bitOf e 63 && !pteMalformed d e)

/-- The other bind of an arc that joins two memory actors, where it stands earlier in table order. -/
def otherBind (g : Graph) (binds : List Bind) (i x : Nat) : Option Bind :=
  ((memArc g x).bind (fun a => g.arcs[a]?)).bind (fun a =>
    let y := if a.prod = x then a.cons else a.prod
    (binds.take i).find? (fun b => b.actor == y))

/-- The first failing check of one bind. -/
def bindFail (s : State) (l : Launch) (g : Graph) (i : Nat) (b : Bind) : Option VFail :=
  let x := b.actor
  match descOf s l.ctx b.tensor with
  | none => some ⟨0x24, x, some b.tensor, 0⟩
  | some d =>
    let last := b.extent.getD (d.rank - 1) 0
    let tok := (((memArc g x).bind (fun a => g.arcs[a]?)).map (·.tok)).getD 0
    let other := (otherBind g l.binds i x).bind (fun o => (descOf s l.ctx o.tensor).map (fun e => (o, e)))
    if d.layout = 3 ∧ !d.cc then some ⟨0x25, x, some b.tensor, 0⟩
    else if d.layout ≠ 3 ∧ b.b0 ≠ 0 then some ⟨0x19, x, some b.b0, 0⟩
    else if !pinnedOk s d then some ⟨0x26, x, some b.tensor, 0⟩
    else if !viewFits d b then some ⟨0x20, x, some b.b0, cBOUNDARY⟩
    else if last * d.z ≠ tok then some ⟨0x21, x, some (last * d.z), 0⟩
    else if other.any (fun o => o.2.fmt != d.fmt) then some ⟨0x22, x, some d.fmt, 0⟩
    else if other.any (fun o => viewRows o.1 o.2.rank != viewRows b d.rank) then some ⟨0x23, x, some (viewRows b d.rank), 0⟩
    else none

/-- Configurations that the firings of an actor make resident or stage (R40). -/
def actorConfs (c : List NofSection) (g : Graph) (x : Nat) : List Nat :=
  let a := g.actor x
  let es := (List.range a.phases).flatMap (fun ph => (List.range g.modes).filterMap (fun m =>
    (entryFor c a.entry x ph m).bind (fun i => (seqEntries c)[i]?)))
  ((es.flatMap (fun e => [e.region, e.succ])).filter (fun r => r != 0xFF)).filterMap (regionConf c)

/-- Port bindings of the configurations that a graph's compute actors use, in table order, each with the first actor that does. -/
def graphPorts (c : List NofSection) (g : Graph) : List (Nat × BindEnt) :=
  (bindEnts c).filterMap (fun b => ((computeActors g).find? (fun x =>
    match regionConf c b.region with | some n => (actorConfs c g x).contains n | none => false)).map (fun x => (x, b)))

/-- The first failing check of one port binding of the graph (R39, R51, R56, R58; log entry 12). -/
def portFail (s : State) (l : Launch) (p : Nat × BindEnt) : Option VFail :=
  match descOf s l.ctx p.2.tensor with
  | none => some ⟨0x24, p.1, some p.2.tensor, 0⟩
  | some d =>
    if d.layout = 3 ∧ !d.cc then some ⟨0x25, p.1, some p.2.tensor, 0⟩
    else if !pinnedOk s d then some ⟨0x26, p.1, some p.2.tensor, 0⟩
    else if p.2.pageCode ≠ d.pg then some ⟨0x27, p.1, some p.2.pageCode, 0⟩
    else none

/-! ## Placement (order 5: R359, R402, R403, R310) -/

/-- The instances of a launch on this package: logical index and actor; a memory arc's instance has none. -/
def instances (s : State) (l : Launch) (g : Graph) : List (Nat × Option Nat) :=
  ((computeActors g).zipIdx.filter (fun x => s.mine l x.1)).map (fun x => (x.2, some x.1)) ++
    ((memArcs g).zipIdx.filter (fun x => s.mine l (((g.arcs[x.1]?).map (·.prod)).getD 0))).map
      (fun x => ((computeActors g).length + x.2, none))

/-- Whether two actors belong to one group. -/
def shareGroup (gs : List GroupRec) (x y : Option Nat) : Bool :=
  match x, y with
  | some a, some b => gs.any (fun r => r.members.contains a && r.members.contains b)
  | _, _ => false

/-- The position of one instance among `ts` tiles: a draw that no member of its groups holds, else the next free one. -/
def placeOne (gs : List GroupRec) (seed ts lidx : Nat) (actor : Option Nat) (placed : List (Nat × Nat × Option Nat)) : Option Nat :=
  let clash (i : Nat) : Bool := placed.any (fun p => p.2.1 == i && shareGroup gs p.2.2 actor)
  match ((List.range 256).map (fun n => placeDraw seed lidx n ts)).find? (fun i => !clash i) with
  | some i => if ts = 0 then none else some i
  | none =>
    let i := placeDraw seed lidx 255 ts
    ((List.range ts).map (fun k => (i + 1 + k) % ts)).find? (fun j => !clash j)

/-- Places the instances in order: logical index, position, actor; or the one that cannot be placed. -/
def placeAll (gs : List GroupRec) (seed ts : Nat) : List (Nat × Option Nat) → List (Nat × Nat × Option Nat) → Except Nat (List (Nat × Nat × Option Nat))
  | [], acc => .ok acc.reverse
  | (l, x) :: r, acc =>
    match placeOne gs seed ts l x acc with
    | some i => placeAll gs seed ts r ((l, i, x) :: acc)
    | none => .error (x.getD 0)

/-- Where each instance, window and proxy of a launch lies on this package. -/
structure Placed where
  /-- logical index, tile, actor -/
  inst : List (Nat × Nat × Option Nat)
  /-- arc and tile of its window; of its proxy -/
  arcs : List (Nat × Nat)
  proxies : List (Nat × Nat)
deriving DecidableEq, Repr, Inhabited

/-- Tile of an instance. -/
def tileOfLidx (inst : List (Nat × Nat × Option Nat)) (n : Option Nat) : Option Nat :=
  n.bind (fun i => (inst.find? (fun p => p.1 == i)).map (fun p => p.2.1))

/-- Windows and proxies of a placed launch (R310, R311). -/
def placeArcs (s : State) (l : Launch) (g : Graph) (inst : List (Nat × Nat × Option Nat)) : Placed :=
  let here (x : Nat) : Bool := s.mine l x
  let tileOf (x : Nat) : Option Nat := tileOfLidx inst (lidxOfActor g x)
  let win (a : Nat) : Option (Nat × Nat) := (g.arcs[a]?).bind (fun y =>
    if !here y.cons then none
    else if (g.actor y.cons).kind = 0 then (tileOf y.cons).map (fun t => (a, t))
    else if (g.actor y.prod).kind = 0 then (tileOf y.prod).map (fun t => (a, t))
    else (tileOfLidx inst (lidxOfArc g a)).map (fun t => (a, t)))
  let proxy (a : Nat) : Option (Nat × Nat) := (g.arcs[a]?).bind (fun y =>
    if here y.prod && !here y.cons then (tileOf y.prod).map (fun t => (a, t)) else none)
  ⟨inst, (List.range g.arcs.length).filterMap win, (List.range g.arcs.length).filterMap proxy⟩

/-- The placement of a launch, or the actor at which order 5 fails. -/
def placeLaunch (s : State) (l : Launch) (g : Graph) : Except VFail Placed :=
  let ts := roundTiles s
  match placeAll (groupRecs (s.container l.container)) l.seed.toNat ts.length (instances s l g) [] with
  | .error x => .error ⟨0x0A, x, none, 0⟩
  | .ok ps => .ok (placeArcs s l g (ps.map (fun p => (p.1, ts.getD p.2.1 0, p.2.2))))

/-! ## What one tile can hold (order 6: R69, R404) -/

/-- The lowest free range of a size: a multiple of `al`, at or above no used range, that clears each of them and ends by `top`. -/
def lowestFree (used : List (Nat × Nat)) (al n top : Nat) : Option Nat :=
  let up (x : Nat) : Nat := ceilDiv x al * al
  let cands := 0 :: used.map (fun u => up (u.1 + u.2))
  let ok (b : Nat) : Bool := decide (b + n ≤ top) && used.all (fun u => u.2 == 0 || n == 0 || decide (b + n ≤ u.1) || decide (u.1 + u.2 ≤ b))
  (cands.filter ok).foldl (fun (m : Option Nat) b => match m with | some x => some (min x b) | none => some b) none

/-- Fits items one after another: the bases, or none when one finds no range. -/
def fitAll (al top : Nat) : List (Nat × Nat) → List Nat → Option (List Nat)
  | _, [] => some []
  | used, n :: r => (lowestFree used al n top).bind (fun b => (fitAll al top ((b, n) :: used) r).map (fun l => b :: l))

/-- Jump-table entries that bound launches have loaded on a die (R412). -/
def bucketsUsed (s : State) (d : Nat) : Nat :=
  (s.pkg.launchExts.map (fun e => if (s.tasksOf e.1).any (fun k => k.1 / 512 == d) then e.2.buckets.length else 0)).foldl (· + ·) 0

/-- Tasks of a tile that have not ended and hold no context frame (R405). -/
def framesLacking (s : State) (t : Nat) : Nat := ((liveTasks s t).filter (fun k => k.2.frame.isNone)).length

/-- The holdings of the module as they stand (R399, R404): what launches hold until they are released, slots with a bind record in force,
reserves that a queued query keeps (R369), frames, group and jump-table entries in use. -/
def holdingsOf (s : State) : Holdings :=
  let dies := (List.range 24).filter (fun d => s.pkg.dieMask.getLsbD d)
  { bound := (s.pkg.launches.filter (fun l => l.2.isSome)).map (·.1)
    shares := s.pkg.launchExts.flatMap (fun e => e.2.share)
    slots := s.tiles.flatMap (fun v => v.2.tasks.filterMap (fun k => k.2.bind (fun x =>
      if x.spawned && x.stat == .ended then none else some (v.1, k.1))))
    kept := s.hbm.flatMap (fun k => k.2.queue.filterMap (fun p => if p.cmd.isQuery then some (p.cmd.tile, p.cmd.reserve) else none))
    live := (s.tiles.map (fun v => (v.1, (liveTasks s v.1).length, framesLacking s v.1))).filter (fun x => x.2.1 != 0)
    frames := dies.map (fun d => (d, framesUsed s d))
    buckets := dies.map (fun d => (d, bucketsUsed s d))
    groups := (s.pkg.groups.filter (fun e => e.2.isSome)).length }

def Holdings.onTile (h : Holdings) (t : Nat) : List TileShare := h.shares.filter (fun x => x.tile == t)

/-- Scratchpad ranges in use on a tile: windows, proxies and reserves of bound launches, reserves that a queued query keeps. -/
def Holdings.spad (h : Holdings) (t : Nat) : List (Nat × Nat) :=
  let held := (h.onTile t).flatMap (·.spad)
  held ++ (h.kept.filterMap (fun x => if x.1 = t then some x.2 else none)).filter (fun r => !held.contains r)

/-- Tag-table ranges in use on a tile. -/
def Holdings.tags (h : Holdings) (t : Nat) : List (Nat × Nat) := (h.onTile t).flatMap (·.tags)

/-- Sizes of some ranges together. -/
def sizeSum (rs : List (Nat × Nat)) : Nat := (rs.map (·.2)).foldl (· + ·) 0

/-- The slots of a tile that no bound task has (R404). -/
def Holdings.freeSlots (h : Holdings) (t : Nat) : List Nat := (List.range 8).filter (fun i => !h.slots.contains (t, i))

/-- Arcs whose window or proxy a placement puts on a tile, in arc order. -/
def Placed.arcsOn (p : Placed) (t : Nat) : List Nat :=
  ((p.arcs ++ p.proxies).filter (fun x => x.2 == t)).foldl (fun m x => (m.takeWhile (fun y => decide (y < x.1))) ++ x.1 :: m.dropWhile (fun y => decide (y < x.1))) []

/-- Tasks that a placement puts on a tile: logical index and actor. -/
def Placed.tasksOn (p : Placed) (t : Nat) : List (Nat × Nat) :=
  p.inst.filterMap (fun x => if x.2.1 = t then x.2.2.map (fun a => (x.1, a)) else none)

/-- Sizes of a tile's new scratchpad items in the order of R404: windows and proxies, then reserves. -/
def spadItems (g : Graph) (p : Placed) (t : Nat) : List Nat :=
  (p.arcsOn t).map (fun a => match g.arcs[a]? with | some y => y.cap * y.tok | none => 0) ++
    (p.tasksOn t).map (fun x => (g.actor x.2).spad)
def tagItems (g : Graph) (p : Placed) (t : Nat) : List Nat := (p.tasksOn t).map (fun x => (g.actor x.2).tags)

/-- The limits 0x04 to 0x08: those that a container's configurations break on their own, and the rows and banks of a tile, which are summed. -/
def confLimit (c : List NofSection) (rows banks : Bool) : Option Nat :=
  let hs := (c.filter (fun x => x.typ == 1)).map (fun x => (x.link, parseImgHdr x.bytes))
  let confs := (hs.map (fun h => h.2.conf)).eraseDups
  let regs (n : Nat) : List (Nat × RegionHdr) := hs.filter (fun h => h.2.conf == n)
  let ports (n dir : Nat) : Nat := ((bindEnts c).filter (fun b => b.dir == dir && (regs n).any (fun h => h.1 == b.region))).length
  if confs.any (fun n => 8 < ports n 0 || 8 < ports n 1) then some 0x04
  else if confs.any (fun n => 8 < (regs n).length || ((regs n).any (fun h => h.2.matrix) &&
      ((regs n).length != 1 || (regs n).any (fun h => h.2.height != 16 || h.2.width != 16)))) then some 0x05
  else if rows then some 0x06
  else if confs.any (fun n => 16 < ((regs n).map (fun h => popNat 4 h.2.lcMask)).foldl (· + ·) 0) then some 0x07
  else if banks then some 0x08
  else none

/-- The region images of an actor's configurations: the header and the declaration record of each element. -/
def actorImages (c : List NofSection) (g : Graph) (x : Nat) : List (RegionHdr × List (Nat × ElemDecl)) :=
  (actorConfs c g x).eraseDups.flatMap (fun n => (contImgs c n).map (fun m => (m.hdr, m.elemDecls)))

/-- Rows that an actor's task needs in each plane: the most that one of its images has there (R69; log entry 148). -/
def actorRows (c : List NofSection) (g : Graph) (x : Nat) : Nat × Nat :=
  (actorImages c g x).foldl (fun r m => if m.1.plane = 0 then (max r.1 m.1.rows, r.2) else (r.1, max r.2 m.1.rows)) (0, 0)

/-- Live banks that an actor's task needs of each element: the most that one of its images declares (R69, R88; log entry 148). -/
def actorBanks (c : List NofSection) (g : Graph) (x : Nat) : List (Nat × Nat) :=
  (actorImages c g x).foldl (fun r m => m.2.foldl (fun r d => mapSet 0 r d.1 (max (mapGet 0 r d.1) (popNat 4 d.2.live))) r) []

/-- Demands added. -/
def addRows (a b : Nat × Nat) : Nat × Nat := (a.1 + b.1, a.2 + b.2)
def addBanks (a b : List (Nat × Nat)) : List (Nat × Nat) := b.foldl (fun r x => mapSet 0 r x.1 (mapGet 0 r x.1 + x.2)) a

/-- Rows and banks that a placement's tasks need on a tile. -/
def Placed.rowsOn (p : Placed) (c : List NofSection) (g : Graph) (t : Nat) : Nat × Nat :=
  (p.tasksOn t).foldl (fun r k => addRows r (actorRows c g k.2)) (0, 0)
def Placed.banksOn (p : Placed) (c : List NofSection) (g : Graph) (t : Nat) : List (Nat × Nat) :=
  (p.tasksOn t).foldl (fun r k => addBanks r (actorBanks c g k.2)) []

/-- Group memberships of the tasks that a placement puts on a tile. -/
def Placed.memberships (p : Placed) (c : List NofSection) (t : Nat) : Nat :=
  ((p.tasksOn t).map (fun k => ((groupRecs c).filter (fun r => r.members.contains k.2)).length)).foldl (· + ·) 0

/-- The first limit that a placement breaks on a tile, beside what the module holds (R69). -/
def tileLimit (s : State) (h : Holdings) (l : Launch) (g : Graph) (p : Placed) (t : Nat) : Option Nat :=
  let c := s.container l.container
  let ks := p.tasksOn t
  let held := h.onTile t
  let spad := spadItems g p t
  if 8 < ks.length + (h.slots.filter (fun x => x.1 == t)).length then some 0x01
  else if 2 ^ 21 < sizeSum (h.spad t) + spad.foldl (· + ·) 0 || (fitAll 64 (2 ^ 21) (h.spad t) spad).isNone then some 0x02
  else if 64 < (p.arcsOn t).length + (held.map (·.wins)).foldl (· + ·) 0 then some 0x03
  else match (if ks.isEmpty then none else
      let r := (held.map (·.rows)).foldl addRows (p.rowsOn c g t)
      confLimit c (decide (32 < r.1) || decide (32 < r.2)) (((held.map (·.banks)).foldl addBanks (p.banksOn c g t)).any (fun x => decide (4 < x.2)))) with
  | some f => some f
  | none =>
    if 1024 < sizeSum (h.tags t) + (tagItems g p t).foldl (· + ·) 0 then some 0x09
    else if 4 < (held.map (·.members)).foldl (· + ·) 0 + p.memberships c t then some 0x0A
    else none

/-- Tiles that a placement uses, in increasing order. -/
def Placed.tiles (p : Placed) : List Nat :=
  ((p.inst.map (fun x => x.2.1) ++ p.arcs.map (·.2) ++ p.proxies.map (·.2)).foldl (fun m t => mapInsert m t ()) []).map (·.1)

/-- The task that owns an arc's window or proxy: the consumer's, else the producer's. -/
def ownerActor (g : Graph) (a : Nat) (proxy : Bool) : Nat :=
  match g.arcs[a]? with
  | some y => if !proxy && (g.actor y.cons).kind == 0 then y.cons else y.prod
  | none => 0

/-- Logical index of the instance that an arc's window or proxy comes with. -/
def ownerLidx (g : Graph) (a : Nat) (proxy : Bool) : Nat :=
  ((lidxOfActor g (ownerActor g a proxy)).orElse (fun _ => lidxOfArc g a)).getD 0

/-- The instances of a placement up to a logical index, with their windows and proxies. -/
def Placed.upTo (p : Placed) (g : Graph) (n : Nat) : Placed :=
  ⟨p.inst.filter (fun x => decide (x.1 ≤ n)), p.arcs.filter (fun a => decide (ownerLidx g a.1 false ≤ n)),
    p.proxies.filter (fun a => decide (ownerLidx g a.1 true ≤ n))⟩

/-- Actor of an instance; of a memory arc's instance, its producer. -/
def actorOfLidx (g : Graph) (n : Nat) : Nat :=
  match (computeActors g)[n]? with
  | some x => x
  | none => (((memArcs g)[n - (computeActors g).length]?).bind (fun a => g.arcs[a]?)).map (·.prod) |>.getD 0

/-- The actor that R69 reports for a limit of a tile: instances are added in logical-index order, and it is the actor of the
highest index placed on the tile when the limit breaks. -/
def limitActor (s : State) (h : Holdings) (l : Launch) (g : Graph) (p : Placed) (t f : Nat) : Nat :=
  let ns := (p.inst.filter (fun x => x.2.1 == t)).map (·.1)
  actorOfLidx g ((ns.find? (fun n => tileLimit s h l g (p.upTo g n) t == some f)).getD (ns.getLast?.getD 0))

/-! ## Frames and module tables (orders 7 and 8: R405, R410, R412) -/

/-- The first actor for whose task, or for a task that it joins, the pools have no frame. -/
def frameFail (s : State) (h : Holdings) (p : Placed) : Option Nat :=
  let need (ks : List (Nat × Nat × Option Nat)) (t : Nat) : Nat :=
    let new := (ks.filter (fun k => k.2.1 == t && k.2.2.isSome)).length
    let old := mapGet (0, 0) h.live t
    if new = 0 ∨ new + old.1 < 2 then 0 else new + old.2
  let total (ks : List (Nat × Nat × Option Nat)) (d : Nat) : Nat :=
    (((p.tiles.filter (fun t => t / 512 == d)).map (need ks))).foldl (· + ·) (mapGet 0 h.frames d)
  (List.range p.inst.length).findSome? (fun i =>
    let ks := p.inst.take (i + 1)
    match p.inst[i]? with
    | some (_, t, some x) => if framePool s (t / 512) < total ks (t / 512) then some x else none
    | _ => none)

/-- Dies that hold a task of a placement. -/
def Placed.dies (p : Placed) : List Nat := ((p.inst.filter (fun x => x.2.2.isSome)).map (fun x => x.2.1 / 512)).eraseDups

/-- Orders 5 to 8 of R398, beside what the module holds without the launch. -/
def placeCheck (s : State) (h : Holdings) (l : Launch) (g : Graph) : Except VFail Placed :=
  match placeLaunch s l g with
  | .error e => .error e
  | .ok p =>
    match p.tiles.findSome? (fun t => (tileLimit s h l g p t).map (fun f => (t, f))) with
    | some (t, f) => .error ⟨f, limitActor s h l g p t f, some t, 0⟩
    | none =>
      match frameFail s h p with
      | some x => .error ⟨0x0B, x, none, 0⟩
      | none =>
        let c := s.container l.container
        if 256 - h.groups < (groupRecs c).length ∨ p.dies.any (fun d => decide (4096 < mapGet 0 h.buckets d + (bucketRecs c).length)) then
          .error ⟨0x17, 0, none, 0⟩
        else .ok p

/-! ## Services of bring-up (R451, R452) -/

/-- Tensors that a launch names: those of its binds and of its graph's port bindings. -/
def tensorsOf (s : State) (l : Launch) (g : Graph) : List Nat :=
  l.binds.map (·.tensor) ++ (graphPorts (s.container l.container) g).map (·.2.tensor)

/-- The pinned tensors among them, with their page counts (R56). -/
def pinnedOf (s : State) (l : Launch) (g : Graph) : List (Nat × Nat) :=
  (tensorsOf s l g).eraseDups.filterMap (fun id => (descOf s l.ctx id).bind (fun d => if d.pin then some (id, d.pages) else none))

/-- Whether every present page of a tensor lies in the two stacks of a die. -/
def onDieStacks (s : State) (ctx d id : Nat) : Bool :=
  match descOf s ctx id with
  | none => true
  | some t => (List.range t.pages).all (fun i =>
    let e := pteFresh s t i
    !bitOf e 63 || (bitsOf e 59 56 == 0 && stackOf (bitsOf e 51 16 * 2 ^ 16) / 2 == d))

/-- Whether the service that a launch needs is offered. -/
def serviceOk (s : State) (l : Launch) (g : Graph) : Bool :=
  let st := s.regs.stage
  let head := ((takingDies s (roundMask s)).head?).getD 0
  let cross := g.arcs.any (fun a => l.pkgOf s.pkg.num a.prod != l.pkgOf s.pkg.num a.cons)
  3 ≤ st && (!cross || 6 ≤ st) &&
    (5 ≤ st || (if st = 3 then (tensorsOf s l g).isEmpty else (tensorsOf s l g).all (onDieStacks s l.ctx head)))

/-! ## Validation in order (R398) -/

/-- The context of the graph checks for a launch. -/
def graphCtx (s : State) (l : Launch) (start : Nat) (reqs : List (Nat × Nat)) : GraphCtx :=
  { rows := rowsOf s l, pkg := l.pkgOf s.pkg.num, pace := if l.nopace then none else some l.pace, start := start, reqs := reqs }

/-- An accepted launch: what its packet says, its graph and its placement. -/
structure Accepted where
  l : Launch
  g : Graph
  p : Placed
deriving DecidableEq, Repr, Inhabited

/-- Orders 3 and 4, for a launch whose packet fields hold. -/
def checkBody (s : State) (l : Launch) (g : Graph) (reqs : List (Nat × Nat)) : Option VFail :=
  match graphFail g (graphCtx s l l.startMode reqs) with
  | some e => some ⟨e.field, e.idx, e.val, 0⟩
  | none => (l.binds.zipIdx.findSome? (fun b => bindFail s l g b.2 b.1)).orElse (fun _ =>
    (graphPorts (s.container l.container) g).findSome? (portFail s l))

/-- Validates the launch packet of an entry, with the mode requests of its group, beside what the module holds (R398, R399). -/
def validateLaunch (s : State) (h : Holdings) (q : Nat) : Except VFail Accepted :=
  let p := parsePkt (entryBytes s q)
  if s.regs.stage < 3 then .error ⟨0x1A, 0, none, 0⟩
  else if !(packetOk s q p && (requestsOf s q).all (fun m => m.2.ok)) then .error ⟨0x19, 0, none, 0⟩
  else match graphOf (s.container p.container) p.graph, templateOf s p with
  | some g, some tb =>
    let recs := bindRecs s p tb
    let binds := recs.map (·.1)
    if !(graphFieldsOk s q p g binds && recs.all (·.2)) then .error ⟨0x19, 0, none, 0⟩
    else
      let l := pktLaunch s p g binds
      if !serviceOk s l g then .error ⟨0x1A, 0, none, 0⟩
      else match checkBody s l g (switches (chainOf (requestsOf s q))) with
      | some e => .error e
      | none => (placeCheck s h l g).map (fun pl => ⟨l, g, pl⟩)
  | _, _ => .error ⟨0x18, 0, none, 0⟩

/-! ## Binding an accepted launch (R310, R404, R405, R410, R412) -/

/-- The window of an arc of a launch as it opens. It carries the arc's producer and consumer; `far` is the tile of an end that lies on
another package, which places it. -/
def arcWindow (s : State) (q : Nat) (l : Launch) (g : Graph) (p : Placed) (a base : Nat) (proxy : Bool) (owner far : Nat) : Window :=
  let y := (g.arcs[a]?).getD ⟨0, 0, 1, 1, 0, 0⟩
  let here := (((if proxy then p.proxies else p.arcs).find? (fun e => e.1 == a)).map (·.2)).getD 0
  let tileOf (x : Nat) : Nat := if s.mine l x then (tileOfLidx p.inst (lidxOfActor g x)).getD here else far
  { base := base, tok := y.tok, cap := y.cap, pTile := tileOf y.prod, pPkg := l.pkgOf s.pkg.num y.prod, cTile := tileOf y.cons
    cPkg := l.pkgOf s.pkg.num y.cons, proxy := proxy, mon := true, pace := !l.nopace && l.pace == a, initial := y.delay, arc := a
    wr := 0, rd := 0, occ := 0, lap := 0, laps := 0, cCount := 0, marks := [], inWord := 0, outWord := 0
    tags := [], next := 0, launch := some q, owner := owner }

/-- Slot of an actor's task on a tile; 8 where it has none. -/
def slotOfActor (s : State) (q x : Nat) : Nat := ((s.taskOfActor q x).map (·.2)).getD 8

/-- Bases of a tile's new tag ranges in logical-index order: the lowest free range that fits (R404). The limit of R69 is the sum alone: where no
range fits although the sum does, the manual gives no base, and it is free (log entry 131). -/
def tagBases (s : State) : List (Nat × Nat) → List Nat → State × List Nat
  | _, [] => (s, [])
  | used, n :: r =>
    let x : State × Nat := match lowestFree used 1 n 1024 with
      | some b => (s, b)
      | none => let d := s.draw; (d.2, d.1 % (1024 - n + 1))
    let y := tagBases x.1 ((x.2, n) :: used) r
    (y.1, x.2 :: y.2)

/-- Binds the tasks of a launch on one tile, in logical-index order: slot, reserve and tag range (R404). -/
def bindOnTile (s : State) (h : Holdings) (q : Nat) (l : Launch) (g : Graph) (p : Placed) (entries : List (Nat × Nat)) (t : Nat) : State :=
  let spad := ((fitAll 64 (2 ^ 21) (h.spad t) (spadItems g p t)).getD []).drop (p.arcsOn t).length
  let tb := tagBases s (h.tags t) (tagItems g p t)
  let c := s.container l.container
  let mine (a : Nat) (x : Nat) : Bool := (p.arcs.any (fun e => e.1 == a && e.2 == t) && ownerActor g a false == x) ||
    (p.proxies.any (fun e => e.1 == a && e.2 == t) && ownerActor g a true == x)
  ((p.tasksOn t).zipIdx.zip (h.freeSlots t)).foldl (fun s ks =>
    let k := ks.1
    let x := k.1.2
    let gs := ((groupRecs c).filter (fun r => r.members.contains x)).filterMap (fun r => (entries.find? (fun e => e.1 == r.id)).map (·.2))
    bindTask s t ks.2
      { spawned := false, lidx := k.1.1, launch := q, container := l.container, actor := x, firstEntry := (g.actor x).entry
        basePrio := l.prio, prio := l.prio, ctx := l.ctx, groups := gs
        wins := BitVec.ofNat 64 (((p.arcsOn t).filter (fun a => mine a x)).foldl (fun m a => m + 2 ^ a) 0)
        sbase := spad.getD k.2 0, ssize := (g.actor x).spad, tbase := tb.2.getD k.2 0, tsize := (g.actor x).tags, stat := .waiting
        readyAt := 0, aged := 0, frame := none, lent := false, firing := none, phase := 0, firings := 0, fresh := true, saved := none }
      TaskExt.zero) tb.1

/-- Opens the windows and proxies of a launch on one tile, in arc order (R310, R311, R404). Which tile another package gives its end of an
arc is not known here: it is free (log entry 132). -/
def openOnTile (s : State) (h : Holdings) (q : Nat) (l : Launch) (g : Graph) (p : Placed) (t : Nat) : State :=
  let bases := (fitAll 64 (2 ^ 21) (h.spad t) (spadItems g p t)).getD []
  (p.arcsOn t).zipIdx.foldl (fun s a =>
    let proxy := p.proxies.any (fun e => e.1 == a.1 && e.2 == t)
    let cross := (g.arcs[a.1]?).any (fun y => !(s.mine l y.prod && s.mine l y.cons))
    let d := if cross then s.draw else (0, s)
    openArc d.2 q (s.container l.container) g t a.1
      (arcWindow s q l g p a.1 (bases.getD a.2 0) proxy (slotOfActor s q (ownerActor g a.1 proxy)) (d.1 % 2 ^ 14))) s

/-- Takes the lowest free group entries for the groups of a launch: group id and entry (R410). Its members are the instances of the member
actors on every package of the map (R259; log entry 133). -/
def takeGroups (s : State) (q : Nat) (l : Launch) (g : Graph) : State × List (Nat × Nat) :=
  (groupRecs (s.container l.container)).foldl (fun (r : State × List (Nat × Nat)) gr =>
    match (List.range 256).find? (fun i => (mapGet none r.1.pkg.groups i).isNone) with
    | none => r
    | some i =>
      let ms := ((computeActors g).zipIdx.filter (fun x => gr.members.contains x.1)).map (·.2)
      (r.1.setGroup i ⟨q, gr.id, ms, gr.debug, 0, [], [], 0⟩, r.2 ++ [(gr.id, i)])) (s, [])

/-- What a bound launch holds of a tile (R69, R399). -/
def shareOn (s : State) (q : Nat) (c : List NofSection) (g : Graph) (p : Placed) (t : Nat) : TileShare :=
  let ks := (liveTasks s t).filter (fun k => k.2.launch == q)
  { tile := t
    spad := (p.arcsOn t).filterMap (fun a => (s.win t (windowKey q a)).map (fun w => (w.base, w.cap * w.tok))) ++ ks.map (fun k => (k.2.sbase, k.2.ssize))
    tags := ks.map (fun k => (k.2.tbase, k.2.tsize))
    wins := (p.arcsOn t).length
    members := p.memberships c t
    rows := p.rowsOn c g t
    banks := p.banksOn c g t }

/-- Binds a placed launch beside what the module holds: group entries, bind records, windows with their initial tokens, jump table. -/
def bindPlaced (s : State) (h : Holdings) (q : Nat) (a : Accepted) : State :=
  let l := { a.l with place := a.p.inst.map (fun x => (x.1, x.2.1)), arcTile := a.p.arcs, proxyTile := a.p.proxies }
  let c := s.container l.container
  let s1 := s.modPkg (fun p => { p with launches := mapSet none p.launches q (some l) })
  let gr := takeGroups s1 q l a.g
  let s2 := a.p.tiles.foldl (fun s' t => openOnTile (bindOnTile s' h q l a.g a.p gr.2 t) h q l a.g a.p t) gr.1
  s2.modLext q (fun e => { e with
    groups := gr.2.map (·.2), buckets := bucketRecs c, share := a.p.tiles.map (shareOn s2 q c a.g a.p), pinned := pinnedOf s l a.g })

/-- Accepts a launch (R398): it is bound and runs; the mode requests validated with it stand. -/
def acceptLaunch (s : State) (h : Holdings) (q : Nat) (a : Accepted) (rs : List ModeReq) : State :=
  let s1 := (bindPlaced s h q { a with l := { a.l with stat := .running, modeReq := rs[0]? } }).modLext q (fun e => { e with reqs := rs })
  a.p.tiles.foldl (fun s t => markReady s t) s1

end Sys2Proof.Machine
end

