-- ==== Sys2Proof/Machine/Containers.lean ====
section
/-! DEFINITION. Machine/Containers.lean: loading and unloading a container: the checks in order (R36 to R46). -/

namespace Sys2Proof.Machine

/-- Why a load fails: load status, section index, byte offset. -/
structure LoadFail where
  status : Nat
  sect : Nat
  off : Nat
deriving DecidableEq, Repr, Inhabited

/-- A section table entry (R37). -/
structure SecEnt where
  typ : Nat
  flags : Nat
  link : Nat
  off : Nat
  size : Nat
  crc : Nat
deriving DecidableEq, Repr, Inhabited

def parseSec (bs : List Byte) : SecEnt :=
  let f := fieldAt bs
  ⟨f 0 2, f 2 2, f 4 4, f 8 8, f 0x10 8, f 0x18 4⟩

/-- File offset of the section table, and its entries. -/
def tableOff (bs : List Byte) : Nat := fieldAt bs 0x18 8
def secEnts (bs : List Byte) : List SecEnt :=
  ((records 32 (bs.drop (tableOff bs))).take (fieldAt bs 8 4)).map parseSec

/-- A check's outcome as a list of (holds, offset) in order: the first that fails. -/
def firstBad (cs : List (Bool × Nat)) : Option Nat := (cs.find? (fun c => !c.1)).map (·.2)

/-- Order 1: the header (R36). -/
def headerFail (bs : List Byte) : Option LoadFail :=
  (firstBad [(decide (64 ≤ bs.length), 0), (fieldAt bs 0 4 == 0x1A464F4E, 0), (fieldAt bs 4 2 == 1, 4),
    (fieldAt bs 0x20 4 == crc32c (bs.take 0x20), 0x20), (fieldAt bs 0x10 8 == bs.length, 0x10)]).map (fun o => ⟨0x01, 0, o⟩)

/-- Order 2: the section table and where sections lie (R37). A section count outside 1 to 1,024 is reported here, and sections are tested against each
other only (log entry 120). -/
def layoutFail (bs : List Byte) : Option LoadFail :=
  let n := fieldAt bs 8 4
  let t := tableOff bs
  if n < 1 ∨ 1024 < n then some ⟨0x02, 0, 8⟩
  else if t % 8 ≠ 0 ∨ t < 0x40 ∨ bs.length < t + 32 * n then some ⟨0x02, 0, 0x18⟩
  else
    let es := secEnts bs
    (es.zipIdx.findSome? (fun e =>
      let bad := e.1.off % 8 != 0 || decide (bs.length < e.1.off + e.1.size) ||
        (es.take e.2).any (fun y => decide (y.off < e.1.off + e.1.size) && decide (e.1.off < y.off + y.size))
      if bad then some ⟨0x02, e.2, t + 32 * e.2 + 8⟩ else none))

/-- Order 3: the checksums. -/
def sumFail (bs : List Byte) : Option LoadFail :=
  (secEnts bs).zipIdx.findSome? (fun e =>
    if crc32c ((bs.drop e.1.off).take e.1.size) = e.1.crc then none else some ⟨0x03, e.2, e.1.off⟩)

/-- Sections of a container, in table order. -/
def sectionsOf (bs : List Byte) : List NofSection :=
  (secEnts bs).map (fun e => ⟨e.typ, e.flags, e.link, (bs.drop e.off).take e.size⟩)

/-- Tool sections, which the loader ignores (R38). -/
def NofSection.isTool (x : NofSection) : Bool := decide (0x8000 ≤ x.typ)

/-- Most sections of a type in a container (R38). -/
def maxCount (typ : Nat) : Nat := if typ = 1 then 255 else if typ = 4 ∨ typ = 5 ∨ typ = 6 then 3 else if typ = 7 then 16 else 1

/-- Order 4: types, counts and links (R38). Flag bits above the compressed flag are fields the loader does not know, and are
ignored (R45). -/
def sectionFail (bs : List Byte) (c : List NofSection) : Option LoadFail :=
  c.zipIdx.findSome? (fun e =>
    let x := e.1
    let before := (c.take e.2).filter (fun y => y.typ == x.typ)
    let bad :=
      if x.isTool then false
      else
        x.typ == 0 || decide (12 < x.typ) || decide (maxCount x.typ ≤ before.length) ||
          (if x.typ = 1 then decide (254 < x.link) || before.any (fun y => y.link == x.link)
           else if x.typ = 4 ∨ x.typ = 5 then decide (2 < x.link) || before.any (fun y => y.link == x.link)
           else if x.typ = 6 then !(c.any (fun y => y.typ == 4 && y.link == x.link)) || before.any (fun y => y.link == x.link)
           else x.link != 0)
    if bad then some ⟨0x04, e.2, tableOff bs + 32 * e.2⟩ else none)

/-! ## Order 5: field ranges (R34, R39 to R44) -/

/-- Whether a region index names a region of the container. -/
def hasRegion (c : List NofSection) (r : Nat) : Bool := c.any (fun x => x.typ == 1 && x.link == r)

/-- Whether a section is a whole number of records that each pass, as the offset of the first that does not. -/
def recordsFail (n : Nat) (p : List Byte → Bool) (bs : List Byte) : Option Nat :=
  if bs.length % n ≠ 0 then some (bs.length / n * n)
  else ((records n bs).findIdx? (fun r => !p r)).map (fun i => n * i)

/-- A port-binding entry holds to R39 and names a region that is there (log entry 120). -/
def bindEntOk (c : List NofSection) (r : List Byte) : Bool :=
  let b := parseBind r
  b.port < 16 && (b.dir == bit01 (decide (8 ≤ b.port))) && b.pageCode < 3 && 1 ≤ b.dims && b.dims ≤ 4 && hasRegion c b.region &&
    (b.counts.take b.dims).all (fun n => n != 0)

/-- A sequencing entry names regions and starts cores that are there (R40; log entry 120). -/
def seqOk (c : List NofSection) (r : List Byte) : Bool :=
  let e := parseSeq r
  (e.region == 0xFF || hasRegion c e.region) && (e.succ == 0xFF || hasRegion c e.succ) &&
    (List.range 3).all (fun i => !e.starts i || c.any (fun x => x.typ == 4 && x.link == i))

/-- The first count of a graph's rate vectors that stands beyond its actor's phases and is not zero, by its number (R41). -/
def countsPast (g : Graph) : Option Nat :=
  (List.range (g.modes * g.arcs.length)).findSome? (fun v =>
    let a := g.arcs.getD (v % g.arcs.length) default
    ((List.range 32).find? (fun j =>
      decide ((g.actor (if j < 16 then a.prod else a.cons)).phases ≤ j % 16) && fieldAt g.rates (64 * v + 2 * j) 2 != 0)).map (fun j => 32 * v + j))

/-- Offset of the first field of a graph section outside its values (R28, R41, R42). A token is a whole number of 8-byte words, as
the window that carries it must be (R325; log entry 120). -/
def graphRange (bs : List Byte) : Option Nat :=
  let g := parseGraph bs
  let na := fieldAt bs 2 2
  let nr := fieldAt bs 4 2
  let actorBad := g.actors.findIdx? (fun a => !(a.kind ≤ 2 && 1 ≤ a.phases && a.phases ≤ 16 && a.spad ≤ 2 ^ 21 && a.tags ≤ 1024 &&
    (a.kind == 0 || (a.spad == 0 && a.tags == 0))))
  let arcBad := g.arcs.findIdx? (fun a => !(decide (a.prod < na) && decide (a.cons < na) && 8 ≤ a.tok && a.tok % 8 == 0 && 1 ≤ a.cap &&
    decide (a.delay ≤ a.cap)))
  if bs.length < 16 ∨ bs.length < 16 + 8 * na + 16 * nr + 64 * g.modes * nr then some 0
  else if g.modes < 1 ∨ 8 < g.modes then some 6
  else match actorBad, arcBad with
  | some i, _ => some (16 + 8 * i)
  | none, some i => some (16 + 8 * na + 16 * i)
  | none, none => (countsPast g).map (fun i => 16 + 8 * na + 16 * nr + 2 * i)

/-- The values of R50 in a tensor-table entry, with no page table and no context yet (R43); a layout that R52 does not allow is refused here already
(log entry 120). -/
def tensorOk (r : List Byte) : Bool :=
  let d := parseDesc r
  1 ≤ d.rank && d.rank ≤ 5 && fmtValid d.fmt && d.layout ≤ 3 && d.pg ≤ 2 && bitsOf d.attr 6 5 == 0 && d.dims.all (fun e => 1 ≤ e) &&
    (d.exts.drop d.rank).all (fun e => e == 0) && d.layoutOk && d.pages == ceilDiv d.span (pageBytes d.pg) && d.ctxField == 0 && d.pt == 0

def bucketOk (c : List NofSection) (r : List Byte) : Bool :=
  fieldAt r 0 1 < 8 && fieldAt r 1 1 < 8 && decide (fieldAt r 4 2 < (seqEntries c).length)

/-- Whether the group records of a section end with it. -/
def groupsWhole (bs : List Byte) : Bool :=
  decide (((parseGroups bs.length bs).map (fun r => 4 + 2 * r.members.length)).foldl (· + ·) 0 == bs.length)

/-- The first byte of a section outside R34 and R39 to R44. The sizes that R38 gives a code section, a data section and a region map
are limits too, and are reported with these (log entry 120). -/
def rangeFail (c : List NofSection) (x : NofSection) : Option Nat :=
  if x.typ = 2 then recordsFail 48 (bindEntOk c) x.bytes
  else if x.typ = 3 then recordsFail 16 (seqOk c) x.bytes
  else if x.typ = 4 then
    if 65536 < x.bytes.length then some 65536 else if c.any (fun y => y.typ == 6 && y.link == x.link) then none else some 0
  else if x.typ = 5 then (if 16384 < x.bytes.length then some 16384 else none)
  else if x.typ = 6 then (if x.bytes.length = 32 then none else some 0)
  else if x.typ = 7 then graphRange x.bytes
  else if x.typ = 8 then recordsFail 64 tensorOk x.bytes
  else if x.typ = 9 then (if groupsWhole x.bytes then none else some 0)
  else if x.typ = 0x0A then (if 512 < x.bytes.length then some 512 else recordsFail 8 (bucketOk c) x.bytes)
  else none

def limitFail (bs : List Byte) (c : List NofSection) : Option LoadFail :=
  c.zipIdx.findSome? (fun e => (rangeFail c e.1).map (fun o => ⟨0x05, e.2, (((secEnts bs)[e.2]?).map (·.off)).getD 0 + o⟩))

/-! ## Order 6: the images (R85 to R93) -/

/-- The first image that a configuration rejects, as its section's index: a region index that is not its section's link (R87), a
part that does not parse, or a check of R94. The offset reported is the section's (log entry 93). -/
def imageFail (bs : List Byte) (c : List NofSection) : Option LoadFail :=
  let at' (n pos : Nat) : LoadFail :=
    let i := ((c.zipIdx.filter (fun e => e.1.typ == 1 && (parseImgHdr e.1.bytes).conf == n)).map (·.2)).getD pos 0
    ⟨0x06, i, (((secEnts bs)[i]?).map (·.off)).getD 0⟩
  let confs := ((c.filter (fun x => x.typ == 1)).map (fun x => (parseImgHdr x.bytes).conf)).eraseDups
  confs.findSome? (fun n =>
    match (confSections c n).findIdx? (fun x => (parseImgHdr x.bytes).index != x.link), parseImgs ((confSections c n).map sectReader) 0 with
    | some pos, _ => some (at' n pos)
    | none, .error r => some (at' n r.pos)
    | none, .ok ms =>
      let rs := (confSections c n).map (·.link)
      (checkConfig ms (boundPorts c rs 0) (boundPorts c rs 1)).map (fun r => at' n r.pos))

/-- The first failing check of a container (R45). -/
def loadFail (bs : List Byte) : Option LoadFail :=
  match headerFail bs with
  | some e => some e
  | none => match layoutFail bs with
    | some e => some e
    | none => match sumFail bs with
      | some e => some e
      | none =>
        let c := sectionsOf bs
        match sectionFail bs c with
        | some e => some e
        | none => match limitFail bs c with
          | some e => some e
          | none => imageFail bs c

/-- CONTAINER_LOAD (R45): every die manager makes the same checks; a container that passes gets a handle, the next number from 1
(log entry 161). Loading is offered from
stage 2 on (R451): what is handed over before it gets no answer (log entry 120). -/
def execContainerLoad (bs : List Byte) (s : State) : Host.Outcome State Fault Refusal :=
  .next <|
    if s.regs.stage < 2 then s
    else match loadFail bs with
    | some e => s.modPkg (fun p => { p with loadAns := (e.status, e.sect, e.off, 0) })
    | none =>
      let h := s.pkg.nextHandle
      s.modPkg (fun p => { p with
        containers := mapSet [] p.containers h ((sectionsOf bs).filter (fun x => !x.isTool)), nextHandle := h + 1, loadAns := (0, 0, 0, h) })

/-- Whether an accepted launch that has not completed names a container (R46). -/
def containerBusy (s : State) (h : Nat) : Bool :=
  s.pkg.launches.any (fun l => match l.2 with | some x => x.container == h && x.stat != .completed && x.stat != .aborted | none => false)

/-- CONTAINER_UNLOAD (R46). -/
def execContainerUnload (h : Nat) (s : State) : Host.Outcome State Fault Refusal :=
  .next <|
    if containerBusy s h then s.modPkg (fun p => { p with loadAns := (0x07, 0, 0, h) })
    else s.modPkg (fun p => { p with containers := mapSet [] p.containers h [], loadAns := (0, 0, 0, h) })

end Sys2Proof.Machine
end

