-- ==== Sys2Proof/Machine/Transport.lean ====
section
/-! DEFINITION. Machine/Transport.lean: transport frames as a package receives them: validity (R347, R348, R352), the reorder
window of a flow (R345), acknowledgements (R344, R346), staged operations and their commit (R272 to R277, R355), token rows
(R356, R357), arc tokens (R311) and the control frames between the shares of a launch (R348). -/

namespace Sys2Proof.Machine

/-! ## Validity (R347, R348, R352) -/

/-- Bits of the operation header that an opcode uses, as fields (lowest bit, width); bit 0 is bit 0 of byte 1 (R348). -/
def hdrFields (op : Nat) : List (Nat × Nat) :=
  if op = 0x01 ∨ op = 0x03 ∨ op = 0x04 then [(3, 1), (8, 12), (24, 16), (40, 47), (88, 32)]
  else if op = 0x02 then [(0, 4), (8, 12), (24, 16), (40, 47), (88, 32)]
  else if op = 0x05 then [(3, 1), (88, 32)]
  else if op = 0x06 ∨ op = 0x07 then [(88, 32)]
  else if op = 0x08 then [(8, 16), (24, 24)]
  else if op = 0x09 then [(8, 3), (88, 32)]
  else if op = 0x0A then [(3, 1), (8, 16), (24, 64), (88, 32)]
  else if op = 0x0B then [(3, 1), (8, 6), (24, 64), (88, 32)]
  else [(8, 8), (24, 64), (88, 32)]

/-- The bits of the header outside its fields are 0. -/
def hdrClean (op x : Nat) : Bool :=
  x == ((hdrFields op).map (fun f => x / 2 ^ f.1 % 2 ^ f.2 * 2 ^ f.1)).foldl (· + ·) 0

/-- Whether a field of the header holds a value that R273 or R348 reserves: OP 7, a control kind outside 1 to 7, an argument
where the kind has none. -/
def hdrValues (f : Frame) : Bool :=
  if f.opcode = 0x02 then hdrField f 1 1 % 8 != 7
  else if f.opcode = 0x0C then
    let k := hdrField f 2 1
    decide (1 ≤ k) && decide (k ≤ 7) && (k == 3 || k == 5 || k == 6 || hdrField f 12 4 == 0)
  else true

/-- A valid transport frame (R347, R352). -/
def frameOk (f : Frame) : Bool :=
  f.ethertype == 0x88B5 && decide (f.dst < 64) && decide (f.src < 64) && decide (f.cls < 4) && f.rsv == 0 &&
    decide (1 ≤ f.opcode) && decide (f.opcode ≤ 0x0C) && hdrClean f.opcode f.hdr && hdrValues f && decide (f.payload.length ≤ 8192)

/-- A frame dropped on receipt is counted (R347, R352). -/
def dropFrame (s : State) : State := s.modNet (fun n => { n with drops := n.drops + 1 })

/-- OTHER_FRAME_TYPE (R347, R352): a frame that is no valid transport frame is dropped and counted; one whose FCS or CRC-32C
fails is dropped. -/
def execOtherFrameType (f : Frame) (s : State) : Host.Outcome State Fault Refusal :=
  .next <| if !f.crcOk || frameOk f then s else dropFrame s

/-! ## Acknowledgements (R344 to R346) -/

/-- Relay buffer units of 8 KiB that are neither granted nor in use (R344): of 1 GiB. -/
def Net.freeCredit (n : Net) : Nat :=
  2 ^ 17 - (n.granted.map (·.2)).foldl (· + ·) 0 - (n.relayed.map (fun f => creditUnits f.payload.length)).foldl (· + ·) 0

/-- The last frame of a flow to acknowledge: the one before the oldest that is held back, else the last one delivered (R346). -/
def RxFlow.acked (r : RxFlow) : Nat := (((r.holds.head?).map (·.1)).getD r.expect + 2 ^ 24 - 1) % 2 ^ 24

/-- Acknowledges a flow (R344 to R346); how much relay credit goes with it is not fixed, none before stage 6 (R452). The acknowledgement waits for a port like any
other frame; one that still waits is merged into it. -/
def sendAck (s : State) (src cls : Nat) : State :=
  let d := s.draw
  let same (f : Frame) : Bool := f.dst == src && f.cls == cls
  let old := (((s.net.acks.find? same).map (fun f => hdrField f 2 2)).getD 0)
  let g := if s.regs.stage < 6 then 0 else d.1 % (min (65535 - old) s.net.freeCredit + 1)
  let fr : Frame :=
    { dst := src, src := s.pkg.num, cls := cls, relay := false, sect := false, rsv := 0, seq := 0, ethertype := 0x88B5
      opcode := 0x08, hdr := opHdr [(2, 2, old + g), (4, 4, (s.rx' (flowKey src cls)).acked)], payload := [], crcOk := true }
  (d.2.modNet (fun n => { n with
    acks := n.acks.filter (fun f => !same f) ++ [fr], granted := mapSet 0 n.granted src (mapGet 0 n.granted src + g) })).pump

/-- Holds back the acknowledgement of a flow from a delivered frame on. -/
def holdAck (s : State) (f : Frame) (tag : Nat) : State :=
  s.modRx (flowKey f.src f.cls) (fun r => { r with holds := r.holds ++ [(f.seq, tag)] })
/-- Lets the acknowledgement of a flow go on past the frames of a tag. -/
def freeAck (s : State) (k tag : Nat) : State := s.modRx k (fun r => { r with holds := r.holds.filter (fun h => h.2 != tag) })

/-- A command of a task completes at its source once its last frame is acknowledged (R272, R279, R355): a put, a reduction, a
signal or a framing form; a get completes by its data. -/
def cmdAcked (s : State) (cmd : Nat × Nat × Nat) : State :=
  match (s.ext cmd.1 cmd.2.1).cmds.find? (fun c => c.ticket == cmd.2.2) with
  | some c => if c.op = 0 || c.done || cmdPending s cmd then s else completeCmd s cmd.1 cmd.2.1 c c.poisonMoved c.len
  | none => s

/-- A target has acknowledged the commit of a section (R275). -/
def commitAcked (s : State) (t slot serial dst : Nat) : State :=
  let f (x : Option Sect) : Option Sect := x.map (fun x =>
    if x.serial = serial ∧ x.decided then { x with pendingAck := x.pendingAck.filter (fun p => p != dst) } else x)
  s.modExt t slot (fun e => { e with sect := f e.sect, implicit := f e.implicit })

/-- What the retirement of a frame does for one of its commands. -/
def retireCmd (dst : Nat) (s : State) (cmd : Nat × Nat × Nat) : State :=
  if 2 ^ 31 ≤ cmd.2.2 then commitAcked s cmd.1 cmd.2.1 (cmd.2.2 - 2 ^ 31) dst else cmdAcked s cmd

/-- What the retirement of a frame does on its own: the source of a refused section has its refusal, and the flow that carried the operation
is acknowledged (R355). -/
def retireFrame (src : Nat) (s : State) (x : TxFrame) : State :=
  let k := flowKey src x.frame.cls
  let tag := hdrField x.frame 12 4 + 1
  if x.frame.opcode = 0x07 ∧ (s.rx' k).holds.any (fun h => h.2 == tag) then sendAck (freeAck s k tag) src x.frame.cls else s

/-- ACKNOWLEDGEMENT (R344, R346): the frames of a flow up to the one named retire, their commands with them, and relay credit is
taken. -/
def ackArrived (s : State) (f : Frame) : State :=
  let k := flowKey f.src f.cls
  let n := hdrField f 4 4 % 2 ^ 24
  let fl := s.tx k
  let gone (x : TxFrame) : Bool := x.once && decide ((n + 2 ^ 24 - x.frame.seq) % 2 ^ 24 < 2 ^ 23)
  let cmds := (((fl.unacked.takeWhile gone).map (·.cmds)).flatten).eraseDups
  let s1 := (s.modTx k (fun fl => ⟨fl.next, fl.unacked.dropWhile gone⟩)).modNet (fun n =>
    { n with credit := mapSet 0 n.credit f.src (min 65535 (mapGet 0 n.credit f.src + hdrField f 2 2)) })
  ((fl.unacked.takeWhile gone).foldl (retireFrame f.src) (cmds.foldl (retireCmd f.src) s1)).pump

/-! ## Staged operations (R272 to R277, R355) -/

/-- The engine of this package that serves a flow. -/
def rxObs (f : Frame) : Obs := .engine (engineOf f.src f.cls)

def isStaging (f : Frame) (g : Staging) : Bool := g.src == f.src && g.key == hdrField f 12 4

/-- Changes the staging of a frame's section, which opens on the first operation. -/
def modStaging (s : State) (f : Frame) (h : Staging → Staging) : State :=
  s.modNet (fun n =>
    let l := if n.stagings.any (isStaging f) then n.stagings else n.stagings ++ [⟨f.src, hdrField f 12 4, [], false⟩]
    { n with stagings := l.map (fun g => if isStaging f g then h g else g) })

/-- The launch of a context here that a package shares in: what a frame from that package is for (R346). -/
def launchFor (s : State) (src ctx : Nat) : Option Nat :=
  s.pkg.launches.findSome? (fun e => match e.2 with
    | some l => if l.ctx = ctx ∧ l.map.contains src = true ∧ (l.stat = .running ∨ l.stat = .restoring) then some e.1 else none
    | none => none)

/-- Refuses a section (R355): its source learns of it by a discard frame of its key, and the refused operation is not acknowledged before
that frame is (log entry 13). -/
def refuseSection (s : State) (f : Frame) : State :=
  let s1 := modStaging s f (fun g => { g with refused := true })
  if s.net.stagings.any (fun g => isStaging f g && g.refused) then s1
  else (holdAck s1 f (hdrField f 12 4 + 1)).sendFrame f.src f.cls 0x07 (opHdr [(12, 4, hdrField f 12 4)]) [] true []
    (launchFor s f.src (hdrField f 2 2))

/-- Checks a staged operation and holds it under its section key; a trap of its translation refuses the section, and with it what follows
(R355). -/
def stageOp (s : State) (f : Frame) (kind : Nat) : State :=
  if s.net.stagings.any (fun g => isStaging f g && g.refused) then s
  else
  let ctx := hdrField f 2 2
  let id := hdrField f 4 2
  let off := hdrField f 6 6
  let x := xlate s ctx id off f.payload.length (if kind = 0 then .write else .atomic) kXCOPY 0
  let s1 := s.cache x
  match x.res with
  | .error _ => refuseSection s1 f
  | .ok ps => modStaging s1 f (fun g =>
      { g with ops := g.ops ++ [⟨kind, hdrField f 1 1 % 8, ctx, id, off, f.payload, ps.map (fun p => (p.addr, p.len))⟩] })

/-- The reduction of one element (R273). -/
def reduceElem (op old x : Nat) : Nat :=
  if op = 0 then (old + x) % 2 ^ 32
  else if op = 1 then (old + x) % 2 ^ 64
  else if op = 2 then floatArith 0x40 fmtFP32 0 false old x 0
  else if op = 3 then floatMinMax true fmtFP32 old x
  else if op = 4 then (if sext 32 old < sext 32 x then x else old)
  else if op = 5 then (if sext 32 x < sext 32 old then x else old)
  else floatArith 0x40 fmtBF16 0 false old x 0

/-- The bytes that an operation leaves where `old` bytes stood. -/
def opResult (o : StageOp) (old : List Byte) : List Byte :=
  if o.kind = 0 then o.data
  else
    let z := if o.kind = 2 then 8 else redBytes o.op
    let op := if o.kind = 2 then 1 else o.op
    (((records z o.data).zip (records z old)).map (fun p => leBytes z (reduceElem op (leNat p.2) (leNat p.1)))).flatten

/-- Writes bytes over parts in order, performed with respect to every observer. -/
def writePieces (o : Obs) (poison : Bool) : State → List (Nat × Nat) → List Byte → State
  | s, [], _ => s
  | s, (a, n) :: ps, bs =>
    writePieces o poison (s.addWrite ⟨a, bs.take n, o, kXCOPY, none, 0, true, [.all], [], 0, none, []⟩ poison) ps (bs.drop n)

/-- Applies one operation; a reduction of a poisoned word leaves it poisoned (R432). -/
def applyOp (o : Obs) (s : State) (x : StageOp) : State :=
  let old := (x.parts.map (fun p => s.homeBytes p.1 p.2)).flatten
  let bad := x.kind != 0 && x.parts.any (fun p => s.poisonIn p.1 p.2)
  let s1 := writePieces o bad s x.parts (opResult x old)
  let qs := s1.pkg.launches.filterMap (fun e => match e.2 with
    | some l => if l.ctx = x.ctx ∧ (l.stat = .running ∨ l.stat = .restoring) then some e.1 else none
    | none => none)
  qs.foldl (fun s q => s.touchUnits q x.ctx x.tensor x.off x.data.length) s1

/-- Drops the staging of a frame's section. -/
def dropStaging (s : State) (f : Frame) : State := s.modNet (fun n => { n with stagings := n.stagings.filter (fun g => !isStaging f g) })

/-- The open section of this package that a target names by its key: tile, slot, whether it is explicit (R276, R348). -/
def findSection (s : State) (src key : Nat) : Option (Nat × Nat × Bool) :=
  let hit (t slot : Nat) (y : Option Sect) : Bool := y.any (fun x => !x.decided && x.targets.contains src && sectKey s t slot x == key)
  s.tiles.findSome? (fun v => v.2.exts.findSome? (fun e =>
    if hit v.1 e.1 e.2.sect then some (v.1, e.1, true) else if hit v.1 e.1 e.2.implicit then some (v.1, e.1, false) else none))

/-- DISCARD (R276, R355): a source drops what it has staged here; from a target, it says that the section was refused there. -/
def discardArrived (s : State) (f : Frame) : State :=
  if s.net.stagings.any (isStaging f) then dropStaging s f
  else match findSection s f.src (hdrField f 12 4) with
    | some (t, slot, explicit) => if explicit then failExplicit s t slot 5 else failImplicit s t slot 5 0
    | none => s

/-- COMMIT (R275, R277): the staged operations of a section apply in issue order as one action; under a name already committed
they are dropped. -/
def commitStaging (s : State) (f : Frame) : State :=
  let key := hdrField f 12 4
  match s.net.stagings.find? (isStaging f) with
  | none => s
  | some g =>
    if g.refused || s.net.committed.contains (f.src, key) then dropStaging s f
    else
      let s1 := g.ops.foldl (applyOp (rxObs f)) s
      (dropStaging s1 f).modNet (fun n => { n with committed := n.committed ++ [(f.src, key)] })

/-! ## Gets (R272) -/

/-- GET_REQUEST (R272): the bytes as they stand, in frames of the request's class; a refused request is answered with one last
frame of no bytes (log entry 13). -/
def answerGet (s : State) (f : Frame) : State :=
  let x := xlate s (hdrField f 2 2) (hdrField f 4 2) (hdrField f 6 6) (leNat f.payload) .read kXCOPY 0
  let s1 := s.cache x
  match x.res with
  | .error _ => s1.sendData f.src f.cls 0x05 [(12, 4, hdrField f 12 4)] [] (launchFor s f.src (hdrField f 2 2))
  | .ok ps => s1.sendData f.src f.cls 0x05 [(12, 4, hdrField f 12 4)] ((ps.map (fun p => s1.dataAt (rxObs f) p.addr p.len)).flatten)
      (launchFor s f.src (hdrField f 2 2))

/-- The open get of a package and serial: tile, slot, command. -/
def findGet (s : State) (src serial : Nat) : Option (Nat × Nat × XcCmd) :=
  s.tiles.findSome? (fun v => v.2.exts.findSome? (fun e =>
    (e.2.cmds.find? (fun c => c.op == 0 && c.pkg == src && c.serial == serial && !c.done)).map (fun c => (v.1, e.1, c))))

def setCmd (s : State) (t slot : Nat) (c : XcCmd) : State :=
  s.modExt t slot (fun e => { e with cmds := e.cmds.map (fun x => if x.ticket = c.ticket then c else x) })

/-- Writes what a get has received to its local address (R272): held by `NOTPRESENT`, stopped by another trap, or complete with
its last byte, its writes then performed for every observer. Status bit 0 says that poison was moved. -/
def getProgress (s : State) (t slot : Nat) (c : XcCmd) : State :=
  let w := xcWho t slot c
  let a := (c.laddr + BitVec.ofNat 64 c.written).toNat
  let bs := c.data.drop c.written
  let x := s.find w a bs.length .write
  let s1 := s.cache x
  match x.res with
  | .error tr =>
    let r := mkRec s t slot 3 (w1Unit kXCOPY) tr true
    if tr.cause = cNOTPRESENT then
      deliverFault (setCmd s1 t slot { c with held := some tr.hold }) t (s.taskLaunch t slot) r
    else completeCmd (deliverFault s1 t (s.taskLaunch t slot) r) t slot c (2 + bit01 ((c.data.take c.written).any (·.2))) c.written
  | .ok ps =>
    let s2 := (writeRow s1 w [] [] ps bs).foldShared w a (bs.map (·.1))
    let c1 := { c with written := c.data.length, held := none }
    if c.last then
      completeCmd ((setCmd s2 t slot c1).perform (fun p => p.task == some (t, slot) && p.cls == kXCOPY && p.op == c.ticket) (.scope t 3)) t slot c1
        (bit01 (c.data.any (·.2))) c1.written
    else setCmd s2 t slot c1

/-- GET_DATA (R272); a frame of no bytes refuses the get, which fails with code 5 (R276). -/
def getArrived (s : State) (f : Frame) : State :=
  match findGet s f.src (hdrField f 12 4) with
  | none => s
  | some (t, slot, c) =>
    if f.payload.isEmpty then failCommand s t slot 5 c
    else
    let c1 := { c with data := c.data ++ f.data, last := bitOf (hdrField f 1 1) 3 }
    if c1.held.isSome then setCmd s t slot c1 else getProgress s t slot c1

/-! ## Token rows (R279, R356, R357) -/

/-- The destination that a route word's own fields name; none where they name no tile of this package (R279). -/
def fieldDest (s : State) (rw : Nat) : Option RowDest :=
  let die := bitsOf rw 33 29
  if 23 < die ∨ 23 < bitsOf rw 24 20 ∨ bitsOf rw 39 34 ≠ s.pkg.num then none
  else some ⟨bitsOf rw 39 34, die * 512 + bitsOf rw 28 25 * 32 + bitsOf rw 24 20, bitsOf rw 19 14⟩

/-- Windows of a number on a tile that a row from a package can be for: a row frame does not name its launch. -/
def rowKeys (s : State) (src tile w : Nat) : List Nat :=
  let ks := (s.tile tile).wins.filter (fun x => x.1 % 64 == w && x.2.isSome)
  let mine := ks.filter (fun x => match x.2 with | some y => y.pPkg == src | none => false)
  (if mine.isEmpty then ks else mine).map (·.1)

/-- The window that a row from a package goes to; which of several launches', the manual does not say (log entry 10). -/
def rowKey (s : State) (src tile w : Nat) : State × Nat :=
  match rowKeys s src tile w with
  | [] => (s, w)
  | [k] => (s, k)
  | ks => let d := s.draw; (d.2, ks.getD (d.1 % ks.length) w)

/-- Pushes a received row, or counts it as an error. -/
def landRow (s : State) (src e rw : Nat) (bs : List (Byte × Bool)) : State :=
  match fieldDest s rw with
  | some d => let k := rowKey s src d.tile d.w; pushRow k.1 e d.tile k.2 bs
  | none => s.modNet (fun n => { n with rowErrors := n.rowErrors + 1 })

def isGather (src serial kind : Nat) (g : Gather) : Bool := g.src == src && g.serial == serial && g.word.toNat / 2 ^ 56 == kind

/-- Whether the CRC-32C of a whole row frame holds (R356). -/
def rowFrameOk (bs : List Byte) : Bool := crc32c (bs.drop 0x20) == fieldAt bs 0x10 4

/-- Unpacks a whole row frame (R356): rows in index order. -/
def unpackRows (s : State) (src e : Nat) (data : List (Byte × Bool)) : State :=
  let bs := data.map (·.1)
  let n := fieldAt bs 2 2
  let z := fieldAt bs 4 4
  (List.range n).foldl (fun s i =>
    landRow s src e (fieldAt bs (0x20 + 8 * i) 8) ((data.drop (ceilDiv (0x20 + 8 * n) 16 * 16 + z * i)).take z)) s

/-- ROW_FRAME_PART (R356): the eight parts of a row frame gather, none acknowledged before all are there; the whole frame is unpacked. One
whose CRC-32C fails is discarded whole: its parts are due again, and its source sends them from its journal. -/
def rowPart (s : State) (f : Frame) : State :=
  let serial := hdrField f 12 4
  let p := hdrField f 2 1
  let old := (s.net.gathers.find? (isGather f.src serial 9)).getD ⟨f.src, serial, [], BitVec.ofNat 64 (9 * 2 ^ 56)⟩
  let parts := mapInsert old.parts p f.data
  let rest := s.net.gathers.filter (fun g => !isGather f.src serial 9 g)
  let k := flowKey f.src f.cls
  if parts.length = 8 then
    let data := (parts.map (·.2)).flatten
    let s1 := s.modNet (fun n => { n with gathers := rest })
    if rowFrameOk (data.map (·.1)) then unpackRows (freeAck s1 k 0) f.src (engineOf f.src f.cls) data
    else freeAck (s1.modRx k (fun r => { r with expect := (((r.holds.find? (fun h => h.2 == 0)).map (·.1)).getD r.expect) })) k 0
  else (if old.parts.isEmpty then holdAck s f 0 else s).modNet (fun n => { n with gathers := rest ++ [{ old with parts := parts }] })

/-- CELL (R357): the cells of a row gather in flow order; with its last cell, the row is pushed, or rejected for its size (R279). -/
def cellArrived (s : State) (f : Frame) : State :=
  let serial := hdrField f 12 4
  let rw := hdrField f 4 8
  let i := hdrField f 2 2
  let mine (g : Gather) : Bool := isGather f.src serial 10 g
  if i ≠ 0 ∧ !s.net.gathers.any mine then s
  else
    let old := (s.net.gathers.find? mine).getD ⟨f.src, serial, [], BitVec.ofNat 64 (10 * 2 ^ 56)⟩
    let rest := s.net.gathers.filter (fun g => !mine g)
    if bitOf (hdrField f 1 1) 3 then
      landRow (s.modNet (fun n => { n with gathers := rest })) f.src (engineOf f.src f.cls) rw ((old.parts.map (·.2)).flatten ++ f.data)
    else s.modNet (fun n => { n with gathers := rest ++ [{ old with parts := old.parts ++ [(i, f.data)] }] })

/-! ## Arc tokens (R311, R334) -/

/-- The launch that a home sequence names, among those of a package's peers (R309, R396). -/
def launchOfHome (s : State) (home src : Nat) : Option (Nat × Launch) :=
  s.pkg.launches.findSome? (fun e => match e.2 with
    | some l => if l.home = home ∧ l.map.contains src = true ∧ l.stat ≠ .validating then some (e.1, l) else none
    | none => none)

/-- What becomes of a frame between the shares of a launch that has come: it is kept until this package has accepted the launch, or
returned it to its checkpoint; it acts on a running one; of a launch that is over it is dropped. -/
def withLaunch (s : State) (f : Frame) (always : Bool) (act : Nat → State) : State :=
  match launchOfHome s (hdrField f 4 8) f.src with
  | some (q, l) =>
    if l.stat = .completed ∨ l.stat = .aborted then s
    else if l.stat = .running ∨ always = true then act q
    else s.modNet (fun n => { n with early := n.early ++ [f] })
  | none => s.modNet (fun n => { n with early := n.early ++ [f] })

/-- A whole token of an arc: one that has come before is a duplicate; one that is ahead of its turn waits for it; any other takes the next
slot (R311, R334). -/
def landArcToken (s : State) (q a src serial : Nat) (bs : List (Byte × Bool)) : State :=
  match (s.launch q).bind (fun l => (l.arcTile.find? (fun p => p.1 == a)).map (·.2)) with
  | none => s
  | some t => match s.win t (windowKey q a) with
    | none => s
    | some x =>
      let ahead := (serial + 2 ^ 32 - (x.arrived - x.initial) % 2 ^ 32) % 2 ^ 32
      if 2 ^ 31 ≤ (serial + 2 ^ 32 - x.next) % 2 ^ 32 ∨ x.tok ≠ bs.length ∨ x.cap ≤ x.occ then s
      else if 0 < ahead ∧ ahead < 2 ^ 31 then
        s.modNet (fun n => { n with gathers := n.gathers ++ [⟨src, serial, [(q, bs)], BitVec.ofNat 64 (13 * 2 ^ 56 + a)⟩] })
      else
        let w : PWrite := ⟨spadBase t + x.slotOff x.wr, [], .engine (engineOf src 0), kXCOPY, none, 0, true, [.all], [], 0, none, []⟩
        settleMarks ((applyAdvance (s.addData w bs) t (windowKey q a) 1 ((x.wr + 1) % x.cap)).modWin t (windowKey q a)
          (fun x => { x with next := (serial + 1) % 2 ^ 32 })) q

/-- The tokens of an arc that waited for their turn come again, each of those there are at most once for every one that lands. -/
def landWaiting (s : State) (q a : Nat) : State :=
  let mine (g : Gather) : Bool := g.word == BitVec.ofNat 64 (13 * 2 ^ 56 + a) && g.parts.any (fun p => p.1 == q)
  let again (s : State) : State := (s.net.gathers.filter mine).foldl (fun s g => landArcToken s q a g.src g.serial ((g.parts.map (·.2)).flatten))
    (s.modNet (fun n => { n with gathers := n.gathers.filter (fun g => !mine g) }))
  (List.range (s.net.gathers.filter mine).length).foldl (fun s _ => again s) s

/-- ARC_TOKEN (R311): the frames of a token gather; a whole token lands. -/
def tokenArrived (s : State) (f : Frame) : State :=
  let serial := hdrField f 12 4
  let a := hdrField f 2 1 % 64
  let word : DWord := BitVec.ofNat 64 (11 * 2 ^ 56 + a)
  let mine (g : Gather) : Bool := g.src == f.src && g.serial == serial && g.word == word
  withLaunch s f false (fun q =>
    let bs := (((s.net.gathers.find? mine).map (fun g => (g.parts.map (·.2)).flatten)).getD []) ++ f.data
    let rest := s.net.gathers.filter (fun g => !mine g)
    if bitOf (hdrField f 1 1) 3 then landWaiting (landArcToken (s.modNet (fun n => { n with gathers := rest })) q a f.src serial bs) q a
    else s.modNet (fun n => { n with gathers := rest ++ [⟨f.src, serial, [(0, bs)], word⟩] }))

/-! ## Control frames (R316, R317, R333, R438, R439) -/

/-- An eclipse marker of a package has come; it takes its place behind the tokens of its arc (R316). -/
def markArrived (s : State) (q src : Nat) : State := settleMarks (s.modLext q (fun e => { e with marksDue := e.marksDue ++ [src] })) q

/-- Drops every value of a list that equals one. -/
def without (l : List Nat) (x : Nat) : List Nat := l.filter (fun y => y != x)

/-- Drops what is kept of a launch's frames from the package of a frame: that package sent them ahead of its restore (R439). -/
def dropEarly (s : State) (f : Frame) : State :=
  s.modNet (fun n => { n with early := n.early.filter (fun g => !(g.src == f.src && hdrField g 4 8 == hdrField f 4 8)) })

/-- Another package returns the launch to a checkpoint (R439). The announcement does not say why: whether it is for serial re-execution, and then whether
to the checkpoint before the last and until which digest, is free (R442; log entry 83). -/
def announcedRestore (s : State) (q src : Nat) : State :=
  let n := (s.lext q).complete
  let d := s.draw
  if d.1 % 3 = 0 then finishRestore (beginRestore d.2 q n (some src)) q
  else
    let a := d.2.draw
    let b := a.2.draw
    let c := b.2.draw
    finishRestore ((beginRestore c.2 q (if d.1 % 3 = 1 then n else n - 1) (some src)).modLext q (fun e =>
      { e with serial := some (a.1 % 2 ^ 32), mismatch := some (BitVec.ofNat 64 b.1, BitVec.ofNat 64 c.1) })) q

/-- A control frame of a kind arrives for a launch (R348). -/
def controlArrived (s : State) (f : Frame) : State :=
  let k := hdrField f 2 1
  let n := hdrField f 12 4
  let add (l : List Nat) : List Nat := if l.contains f.src then l else l ++ [f.src]
  withLaunch s f (k == 4 || k == 7) (fun q =>
    if k = 1 then markArrived s q f.src
    else if k = 2 then s.modLext q (fun e => { e with quiet := e.quiet ++ [f.src] })
    else if k = 3 then launchSteps (s.modLext q (fun e => { e with due := max e.due n }))
    else if k = 4 then announcedRestore (dropEarly s f) q f.src
    else if k = 5 then announceComplete (s.modLext q (fun e => { e with written := add e.written })) q n
    else if k = 6 then launchSteps (completeCheckpoint s q n)
    else preemptStep ((dropEarly s f).modLext q (fun e => { e with restored := add e.restored, quiet := without e.quiet f.src })) q)

/-! ## Receipt (R345) -/

/-- What a delivered frame does, by its opcode. -/
def deliver (s : State) (f : Frame) : State :=
  if f.opcode = 0x01 then stageOp s f 0
  else if f.opcode = 0x02 then stageOp s f 1
  else if f.opcode = 0x03 then stageOp s f 2
  else if f.opcode = 0x04 then answerGet s f
  else if f.opcode = 0x05 then getArrived s f
  else if f.opcode = 0x06 then commitStaging s f
  else if f.opcode = 0x07 then discardArrived s f
  else if f.opcode = 0x09 then rowPart s f
  else if f.opcode = 0x0A then cellArrived s f
  else if f.opcode = 0x0B then tokenArrived s f
  else if f.opcode = 0x0C then controlArrived s f
  else s

/-- The frames kept for launches that now run are delivered, in their order (R309, R311). -/
def replayEarly (s : State) : State :=
  let now (f : Frame) : Bool := match launchOfHome s (hdrField f 4 8) f.src with | some (_, l) => l.stat == .running | none => false
  (s.net.early.filter now).foldl deliver (s.modNet (fun n => { n with early := n.early.filter (fun f => !now f) }))

/-- CHECKPOINT_PART (R284, R335, R419): a task at a firing boundary, or one that has ended, commits its implicit section and
records its next part; then what its package has waiting is done. -/
def execCheckpointPart (t slot : Nat) (s : State) : Host.Outcome State Fault Refusal :=
  .next <| replayEarly <| launchSteps <| match s.task t slot with
  | none => s
  | some k =>
    if !partDue s t slot k || k.firing.isSome then s
    else
      let r := commitStep s t slot false
      if r.2 then recordPart r.1 t slot else r.1

/-- Delivers the buffered frames of a flow that continue the run (R345). -/
def drainRun (k : Nat) : Nat → State → State
  | 0, s => s
  | n + 1, s =>
    let r := s.rx' k
    match r.window.find? (fun f => f.seq == r.expect) with
    | none => s
    | some f => drainRun k n (deliver (s.modRx k (fun r => ⟨(r.expect + 1) % 2 ^ 24, r.window.filter (fun g => g.seq != f.seq), r.holds⟩)) f)

/-- The reorder window of a flow takes a frame (R345). -/
def windowFrame (s : State) (f : Frame) : State :=
  let k := flowKey f.src f.cls
  let r := s.rx' k
  let d := (f.seq + 2 ^ 24 - r.expect) % 2 ^ 24
  let buffered := s.modRx k (fun r => if r.window.any (fun g => g.seq == f.seq) then r else { r with window := r.window ++ [f] })
  if d = 0 then sendAck (drainRun k 4096 buffered) f.src f.cls
  else if d < 4096 then buffered
  else if 2 ^ 24 - d ≤ 2 ^ 23 then sendAck s f.src f.cls
  else s

/-- A valid frame for this package; an acknowledgement stands outside the flows. -/
def receive (s : State) (f : Frame) : State := if f.opcode = 0x08 then ackArrived s f else windowFrame s f

/-- Holds a relayed frame for its destination's next slot; one beyond the credit granted to its source is dropped (R344). -/
def holdRelayed (s : State) (f : Frame) : State :=
  let u := creditUnits f.payload.length
  if mapGet 0 s.net.granted f.src < u then s
  else s.modNet (fun n => { n with relayed := n.relayed ++ [f], granted := mapSet 0 n.granted f.src (mapGet 0 n.granted f.src - u) })

/-- What a package does with a frame whose check holds: an invalid one is dropped and counted, one for another package with the relay flag is
held (R344, R347). Before stage 6 there are no remote sections and no relay buffer: their frames are dropped, and come again (R452; log entry 146). -/
def takeWhole (s : State) (f : Frame) : State :=
  if !frameOk f then dropFrame s
  else if s.regs.stage < 6 ∧ (f.sect ∨ f.dst ≠ s.pkg.num) then s
  else if f.dst = s.pkg.num then receive s f
  else if f.relay then holdRelayed s f
  else s

/-- A frame of the opcodes that an arm stands for; one whose FCS or CRC-32C fails is dropped (R347). -/
def takeFrame (f : Frame) (p : Bool) (s : State) : Host.Outcome State Fault Refusal :=
  .next <| if f.crcOk && p then takeWhole s f else s

/-- A control frame of a kind. -/
def isControl (f : Frame) (k : Nat) : Bool := f.opcode == 0x0C && hdrField f 2 1 == k

/-- STAGED_PUT (R355). -/
def execStagedPut (f : Frame) (s : State) : Host.Outcome State Fault Refusal := takeFrame f (f.opcode == 0x01) s
/-- STAGED_REDUCTION (R273, R355). -/
def execStagedReduction (f : Frame) (s : State) : Host.Outcome State Fault Refusal := takeFrame f (f.opcode == 0x02) s
/-- STAGED_SIGNAL (R272, R355). -/
def execStagedSignal (f : Frame) (s : State) : Host.Outcome State Fault Refusal := takeFrame f (f.opcode == 0x03) s
/-- GET_REQUEST (R272). -/
def execGetRequest (f : Frame) (s : State) : Host.Outcome State Fault Refusal := takeFrame f (f.opcode == 0x04) s
/-- GET_DATA (R272). -/
def execGetData (f : Frame) (s : State) : Host.Outcome State Fault Refusal := takeFrame f (f.opcode == 0x05) s
/-- COMMIT (R275, R277). -/
def execCommit (f : Frame) (s : State) : Host.Outcome State Fault Refusal := takeFrame f (f.opcode == 0x06) s
/-- DISCARD (R276). -/
def execDiscard (f : Frame) (s : State) : Host.Outcome State Fault Refusal := takeFrame f (f.opcode == 0x07) s
/-- ACKNOWLEDGEMENT (R344, R346). -/
def execAcknowledgement (f : Frame) (s : State) : Host.Outcome State Fault Refusal := takeFrame f (f.opcode == 0x08) s
/-- ROW_FRAME_PART (R356). -/
def execRowFramePart (f : Frame) (s : State) : Host.Outcome State Fault Refusal := takeFrame f (f.opcode == 0x09) s
/-- CELL (R357). -/
def execCell (f : Frame) (s : State) : Host.Outcome State Fault Refusal := takeFrame f (f.opcode == 0x0A) s
/-- ARC_TOKEN (R311). -/
def execArcToken (f : Frame) (s : State) : Host.Outcome State Fault Refusal := takeFrame f (f.opcode == 0x0B) s
/-- ECLIPSE_MARKER (R316). -/
def execEclipseMarker (f : Frame) (s : State) : Host.Outcome State Fault Refusal := takeFrame f (isControl f 1) s
/-- QUIESCENCE_REPORT (R317). -/
def execQuiescenceReport (f : Frame) (s : State) : Host.Outcome State Fault Refusal := takeFrame f (isControl f 2) s
/-- CHECKPOINT_ANNOUNCEMENT (R333). -/
def execCheckpointAnnouncement (f : Frame) (s : State) : Host.Outcome State Fault Refusal := takeFrame f (isControl f 3) s
/-- PREEMPTION_ANNOUNCEMENT (R439). -/
def execPreemptionAnnouncement (f : Frame) (s : State) : Host.Outcome State Fault Refusal := takeFrame f (isControl f 4) s
/-- CHECKPOINT_PARTS_WRITTEN (R438). -/
def execCheckpointPartsWritten (f : Frame) (s : State) : Host.Outcome State Fault Refusal := takeFrame f (isControl f 5) s
/-- CHECKPOINT_COMPLETE (R438, R441 to R443). -/
def execCheckpointComplete (f : Frame) (s : State) : Host.Outcome State Fault Refusal := takeFrame f (isControl f 6) s
/-- RESTORE_DONE (R439). -/
def execRestoreDone (f : Frame) (s : State) : Host.Outcome State Fault Refusal := takeFrame f (isControl f 7) s

/-! ## Relay (R344) -/

/-- RELAY_FRAME (R344): a frame with the relay flag for another package is held for that package's next slot; one beyond the
credit granted to its source is dropped. -/
def execRelayFrame (f : Frame) (s : State) : Host.Outcome State Fault Refusal := takeFrame f (f.relay && f.dst != s.pkg.num) s

/-! ## A package of the constellation is reset (R276, R345, R355) -/

/-- What a reset of another package does here: its stagings are discarded and what has come of its rows and tokens is dropped; its flows
count from 0 again at both ends, and undecided sections that it was a target of fail with code 7 (log entry 136). -/
def peerReset (s : State) (p : Nat) : State :=
  let anew (e : Nat × TxFlow) : Nat × TxFlow :=
    if e.1 / 4 ≠ p then e
    else (e.1, ⟨e.2.unacked.length % 2 ^ 24, e.2.unacked.zipIdx.map (fun x =>
      { x.1 with sent := false, once := false, frame := { x.1.frame with seq := x.2 % 2 ^ 24 } })⟩)
  let s1 := s.modNet (fun n => { n with
    stagings := n.stagings.filter (fun g => g.src != p), gathers := n.gathers.filter (fun g => g.src != p)
    early := n.early.filter (fun f => f.src != p), acks := n.acks.filter (fun f => f.dst != p)
    rx := n.rx.filter (fun e => e.1 / 4 != p), tx := n.tx.map anew, credit := mapSet 0 n.credit p 0, granted := mapSet 0 n.granted p 0 })
  let lost : List (Nat × Nat × Bool) := (s.tiles.map (fun v => (v.2.exts.map (fun e =>
    let hit (x : Option Sect) : Bool := x.any (fun y => !y.decided && y.targets.contains p)
    (if hit e.2.sect then [(v.1, e.1, true)] else []) ++ (if hit e.2.implicit then [(v.1, e.1, false)] else []))).flatten)).flatten
  (lost.foldl (fun s x => if x.2.2 then failExplicit s x.1 x.2.1 7 else failImplicit s x.1 x.2.1 7 0) s1).pump

end Sys2Proof.Machine
end

