-- ==== Sys2Proof/Machine/Journal.lean ====
section
/-! DEFINITION. Machine/Journal.lean: the rounds of agreement (R399, R400), what becomes of each journal entry (R395, R398, R315,
R439), and the completion and re-placement of launches (R414, R415). -/

namespace Sys2Proof.Machine

/-! ## Rounds (R399, R400) -/

/-- Dies in the active mask. -/
def State.dieList (s : State) : List Nat := maskDies s.pkg.dieMask

/-- Clears what a released launch still holds: its slots and its record. -/
def releaseLaunch (s : State) (q : Nat) : State :=
  let s1 := (s.tasksOf q).foldl (fun s k => s.modTile k.1 (fun v =>
    { v with tasks := mapSet none v.tasks k.2.1 none, exts := mapSet TaskExt.zero v.exts k.2.1 TaskExt.zero })) s
  s1.modPkg (fun p => { p with launches := mapSet none p.launches q none, launchExts := mapSet LaunchExt.zero p.launchExts q LaunchExt.zero })

/-- Quarantined tiles that have passed a self-test return (R435). -/
def returnTiles (s : State) : State :=
  s.modPkg (fun p => { p with quarantined := p.returning.foldl (fun m t => mapSet false m t false) p.quarantined, returning := [] })

/-- Launches bound in the module. -/
def boundLaunches (s : State) : List Nat := (s.pkg.launches.filter (fun l => l.2.isSome)).map (·.1)

/-- Sends a round to every active die: it carries the masks as they stand and the releases, and each die applies it to its copy of the holdings. -/
def sendRound (s : State) (seq : Nat) (released : List Nat) (replacement : Bool) : State :=
  let s1 := s.modPkg (fun p => { p with round := some ⟨seq, [], released, replacement, p.dieMask, p.quarantined⟩ })
  s1.dieList.foldl (fun s d => s.modDie d (fun x => { x with holdings := holdingsOf s1 })) s1

/-- Opens a round for a sequence. -/
def openRound (s : State) (seq : Nat) (replacement : Bool) : State :=
  sendRound ((returnTiles (s.pkg.released.foldl releaseLaunch s)).modPkg (fun p => { p with released := [] })) seq s.pkg.released replacement

/-- Repeats the round that is open under the present masks; no verdict on it stands (R400). -/
def repeatRound (s : State) : State :=
  match s.pkg.round with
  | some r => sendRound s r.seq r.released r.replacement
  | none => s

/-- Whether a new round can open: none is open, bring-up has reached the head die, every active manager runs (R400, R436). -/
def canOpen (s : State) : Bool :=
  s.pkg.round.isNone && decide (2 ≤ s.regs.stage) && !s.dieList.isEmpty && s.dieList.all (fun d => (s.die d).runs)

/-- VALIDATION_ROUND (R399): the head die opens the round of the next exposed entry. -/
def execValidationRound (s : State) : Host.Outcome State Fault Refusal :=
  .next (if canOpen s && decide (s.pkg.jnext < s.regs.jdb.toNat) then openRound s s.pkg.jnext false else s)

/-! ## Verdicts -/

/-- Whether a source memory actor has begun firing F + 1: it has made it, or a row it has begun is held (R315). -/
def begunPast (s : State) (q x f : Nat) : Bool :=
  let k := s.actorSt q x
  decide (f < k.rows) || (k.rows == f && k.held.isSome)

/-- The first source actor of a launch that lies on another package. -/
def sourceElsewhere (s : State) (q : Nat) : Option Nat :=
  match s.launch q, s.graph q with
  | some l, some g => (memActors g).find? (fun x => (g.actor x).kind == 1 && !s.mine l x)
  | _, _ => none

/-- The requests of a launch with a further one among those that are not done. -/
def withReq (e : LaunchExt) (r : ModeReq) : List ModeReq := e.reqs.take e.reqsDone ++ insertReq r (e.reqs.drop e.reqsDone)

/-- The check of a mode request at its turn (R314, R315, R452): the target launch it acts on, or the failure. A request that stands
already was validated with its launch, and one that stands before its launch in one doorbell group is left to that launch's round; a later one joins
those still to come at its switch count. -/
def modeVerdict (s : State) (q : Nat) : Option VFail :=
  let m := parseMode (entryBytes s q)
  if deferred s q then none else match s.launch m.target, s.graph m.target with
  | some l, some g =>
    let e := s.lext m.target
    if !m.ok then some ⟨0x19, 0, none, 0⟩
    else if !serviceOk s l g then some ⟨0x1A, 0, none, 0⟩
    else if e.reqs.any (fun r => r.seq == q) then none
    else if !(l.stat == .running || l.stat == .restoring || l.stat == .unplaced) then some ⟨0x19, 0, none, 0⟩
    else if g.modes ≤ m.newMode then some ⟨0x16, 0, some m.count, 0⟩
    else
      let chain := switches (withReq e ⟨q, m.newMode, m.count, m.record⟩)
      let c := graphCtx s l l.startMode chain
      match graphSetFail g c m.newMode with
      | some e => let e := e.named (some m.count); some ⟨e.field, e.idx, e.val, 0⟩
      | none =>
        match switchChain g c.rows l.startMode chain with
        | some x => some ⟨0x16, x.1, some m.count, 0⟩
        | none =>
          ((memActors g).find? (fun x => (g.actor x).kind == 1 && s.mine l x && begunPast s m.target x m.count)).map
            (fun x => ⟨0x16, x, some m.count, 0⟩)
  | _, _ => some ⟨if m.ok ∧ s.regs.stage < 3 then 0x1A else 0x19, 0, none, 0⟩

/-- The fields of a pre-emption request (R395): target, record address, whether they hold. -/
def parsePreempt (bs : List Byte) : Nat × DWord × Bool :=
  let f := fieldAt bs
  (f 8 8, BitVec.ofNat 64 (f 0x10 8), f 1 7 == 0 && f 0x18 232 == 0 && (recordAddr (f 0x10 8)).isSome)

/-- The check of a pre-emption request (R439). -/
def preemptVerdict (s : State) (q : Nat) : Option VFail :=
  let p := parsePreempt (entryBytes s q)
  if p.2.2 && ((s.launch p.1).map (·.stat)) == some .running then none else some ⟨0x19, 0, none, 0⟩

/-- The verdict that a die reaches on an entry with its copy of the holdings: status and field code. -/
def verdictOf (s : State) (h : Holdings) (q : Nat) : Nat × Nat :=
  let rej (e : Option VFail) : Nat × Nat := match e with | some f => (0x20, f.field) | none => (0, 0)
  let t := entryType s q
  if t = 1 then (match validateLaunch s h q with | .error f => (0x20, f.field) | .ok _ => (0, 0))
  else if t = 2 then rej (modeVerdict s q)
  else if t = 3 then rej (preemptVerdict s q)
  else (0x20, 0x19)

/-! ## Losing dies and tiles (R415, R435) -/

/-- Whether a launch has a task or a window on a tile, spawned tasks that wait among them. -/
def launchOn (s : State) (q : Nat) (p : Nat → Bool) : Bool :=
  match s.launch q with
  | none => false
  | some l => l.place.any (fun x => p x.2) || l.ends.any (fun x => p x.2) || (s.tasksOf q).any (fun k => p k.1) || (s.lext q).spawnQ.any (fun r => p r.tile)

/-- A launch that has lost a tile: it stops, is to return to its last checkpoint, and waits to be placed again (R415). -/
def unplaceLaunch (s : State) (q : Nat) : State :=
  match s.launch q with
  | none => s
  | some l =>
    if l.stat = .completed ∨ l.stat = .aborted then s
    else
      let s1 := ((beginRestore s q (s.lext q).complete none).sendControl q 4 0).modLaunch q (fun l => { l with stat := .unplaced })
      s1.modPkg (fun p => { p with replaceQ := if p.replaceQ.contains q then p.replaceQ else p.replaceQ ++ [q] })

/-- Every launch with a task on one of some tiles goes through that. -/
def loseTiles (s : State) (p : Nat → Bool) : State :=
  ((boundLaunches s).filter (fun q => launchOn s q p)).foldl unplaceLaunch s

/-- A tile is quarantined, once its peers' reads in flight have completed (R435). -/
def quarantineTile (s0 : State) (t : Nat) : State :=
  let s := finishReads t (s0.tiles.map (fun v => v.2.copies.length)).sum s0
  loseTiles (s.modPkg (fun p => { p with quarantined := mapSet false p.quarantined t true, returning := p.returning.filter (fun x => x != t) }))
    (fun x => x == t)

/-- A die resets (R435): it leaves the active mask, its stack controllers reset, its launches are placed again; a round that is
open is repeated under the new mask (R400). Its firmware checkpoint stands in HBM (R436). -/
def resetDie (s : State) (d : Nat) : State :=
  let s1 := resetController (resetController s (2 * d)) (2 * d + 1)
  let s2 := s1.modDie d (fun x => { Die.reset with wdogResets := x.wdogResets, logs := x.logs, ovf := x.ovf, ctxfPool := x.ctxfPool, ckptBase := x.ckptBase
                                                   nbqCtl0 := x.nbqCtl0, nbqCtl1 := x.nbqCtl1, swapCtl := x.swapCtl, faultCtl := x.faultCtl
                                                   ceil := x.ceil, excl0 := x.excl0, excl1 := x.excl1, ckpt := x.ckpt })
  let s4 := loseTiles s2 (fun t => t / 512 == d)
  let s3 := { s4 with tiles := s4.tiles.map (fun (v : Nat × Tile) => if v.1 / 512 = d then
    (v.1, { Tile.reset with tasks := v.2.tasks, exts := v.2.exts, wins := v.2.wins, prods := v.2.prods }) else v) }
  repeatRound (s3.modPkg (fun p => { p with dieMask := p.dieMask &&& ~~~(BitVec.twoPow 24 d) }))

/-- The head die's copy of the holdings; the head of an open round is the lowest die of the mask that it carries (R399). -/
def headHoldings (s : State) : Holdings := (s.die ((maskDies (roundMask s)).headD 0)).holdings

/-- DIE_VERDICT (R399): a die of the open round reports its verdict to the head; one that differs from the head's makes the die faulty, and the round
is repeated without it. -/
def execDieVerdict (d status field : Nat) (s : State) : Host.Outcome State Fault Refusal :=
  .next <| match s.pkg.round with
  | none => s
  | some r =>
    if r.replacement || !(maskDies r.dies).contains d || !(s.die d).runs then s
    else if verdictOf s (headHoldings s) r.seq = (status, field) then
      s.modPkg (fun p => { p with round := some { r with verdicts := r.verdicts.filter (fun v => v.1 != d) ++ [(d, status, field)] } })
    else resetDie s d

/-- The entry of the open round, when every die of the round has reported a verdict and all of them agree with the head's (R399). -/
def agreed (s : State) (q : Nat) : Bool :=
  match s.pkg.round with
  | some r => r.seq == q && !r.replacement && (maskDies r.dies).all (fun d => r.verdicts.any (fun v => v.1 == d)) &&
      r.verdicts.all (fun v => v.2 == verdictOf s (headHoldings s) q)
  | none => false

/-- The round closes: the head acknowledges the entry, the next may open, and each manager writes its firmware checkpoint to HBM (R399, R436). -/
def closeRound (s : State) (q : Nat) : State :=
  (maskDies (roundMask s)).foldl (fun s d => s.modDie d (fun x => { x with ckpt := x.holdings }))
    (s.modPkg (fun p => { p with jnext := q + 1, round := none }))

/-- A rejected entry completes with status 0x20 (R398, R401). -/
def rejectEntry (s : State) (q typ : Nat) (addr : DWord) (f : VFail) : State :=
  complete s addr.toNat ⟨0x20, f.cause, f.field, typ, f.idx, q, f.val, 0⟩

/-! ## Entries (R395) -/

/-- A launch that was accepted under a round's masks onto a tile lost since then waits to be placed again (R399, R415). -/
def dropLost (s : State) (q : Nat) : State := if launchOn s q (fun t => !eligibleTile s t) then unplaceLaunch s q else s

/-- LAUNCH_PACKET (R398). A launch and the requests validated with it are rejected together (R315). -/
def execLaunchPacket (q : Nat) (s : State) : Host.Outcome State Fault Refusal :=
  .next <|
    if !agreed s q || entryType s q != 1 then s
    else match validateLaunch s (headHoldings s) q with
    | .ok a => closeRound (dropLost (replayEarly (acceptLaunch s (headHoldings s) q a (chainOf (requestsOf s q)))) q) q
    | .error f =>
      let s1 := rejectEntry s q 1 (parsePkt (entryBytes s q)).record f
      closeRound ((requestsOf s q).foldl (fun s r => rejectEntry s r.1 2 r.2.record f) s1) q

/-- A source that has already made its last firing before the switch marks its window now (R316). -/
def markReached (s : State) (q : Nat) : State :=
  match s.launch q, s.graph q with
  | some l, some g => (memActors g).foldl (fun s x =>
      if (g.actor x).kind = 1 ∧ s.mine l x ∧ (s.actorSt q x).stopped = false ∧ sourceLimit l (rowsOf s l x) ≤ (s.actorSt q x).rows then
        (match memArc g x with
          | some a => placeMark (s.modActor q x (fun k => { k with stopped := true })) q l a
          | none => s)
      else s) s
  | _, _ => s

/-- A mode request stands and its launch goes on towards the next switch count (R315, R316). -/
def acceptMode (s : State) (q : Nat) (m : ModePkt) : State :=
  let e := s.lext m.target
  let rs := withReq e ⟨q, m.newMode, m.count, m.record⟩
  let s1 := (s.modLext m.target (fun e => { e with reqs := rs })).modLaunch m.target (fun l => { l with modeReq := rs[e.reqsDone]? })
  closeRound (settleMarks (markReached s1 m.target) m.target) q

/-- MODE_REQUEST (R315): accepted or refused; one that was validated with its launch stands already, and one that is to be waits for it. Whether a source on another
package has begun a later firing this package does not know: its refusal for that is free (log entry 91). -/
def execModeRequest (q : Nat) (s : State) : Host.Outcome State Fault Refusal :=
  .next <|
    if !agreed s q || entryType s q != 2 then s
    else
      let m := parseMode (entryBytes s q)
      match modeVerdict s q with
      | some f => closeRound (rejectEntry s q 2 m.record f) q
      | none =>
        if deferred s q || (s.lext m.target).reqs.any (fun r => r.seq == q) then closeRound s q
        else
          match sourceElsewhere s m.target with
          | some x => (match s.draw with
            | (n, u) => if n % 2 = 1 then closeRound (rejectEntry u q 2 m.record ⟨0x16, x, some m.count, 0⟩) q else acceptMode u q m)
          | none => acceptMode s q m

/-- PREEMPTION_REQUEST (R439): the target returns to its last complete checkpoint on every package. -/
def execPreemptionRequest (q : Nat) (s : State) : Host.Outcome State Fault Refusal :=
  .next <|
    if !agreed s q || entryType s q != 3 then s
    else
      let p := parsePreempt (entryBytes s q)
      match preemptVerdict s q with
      | some f => closeRound (rejectEntry s q 3 p.2.1 f) q
      | none =>
        let s1 := s.modLext p.1 (fun e => { e with preempt := e.preempt ++ [(q, p.2.1)], restored := [] })
        closeRound (recoverLaunch s1 p.1 (s.lext p.1).complete) q

/-- RESERVED_JOURNAL_ENTRY (R395): the record goes into the host fault ring. -/
def execReservedJournalEntry (q : Nat) (s : State) : Host.Outcome State Fault Refusal :=
  .next <|
    let t := entryType s q
    if !agreed s q || (1 ≤ t && t ≤ 3) then s
    else closeRound (rejectEntry s q t 1 ⟨0x19, 0, none, 0⟩) q

/-! ## Completion (R414, R399) -/

/-- Whether a running launch's share has drained. -/
def shareDrained (s : State) (q : Nat) (l : Launch) : Bool :=
  let ks := s.tasksOf q
  l.stat == .running && l.modeReq.isNone && allQuiet s q && ks.all (fun k => k.2.2.stat == .ended) && (s.lext q).spawnQ.isEmpty &&
    !infuserBusy s q && ks.all (fun k => (s.ext k.1 k.2.1).implicit.isNone)

/-- Every write made for a launch becomes visible to every observer, its sinks' among them (R16, R418). -/
def showWrites (s : State) (q : Nat) : State := s.perform (fun w => w.launch == some q) .all

/-- SHARE_COMPLETION (R414): tables freed, record written; the completion digest is checked first (R442). -/
def execShareCompletion (q : Nat) (s : State) : Host.Outcome State Fault Refusal :=
  .next <| match s.launch q with
  | none => s
  | some l =>
    if !shareDrained s q l then s
    else
      let f := formDigest (showWrites s q) q (taskDigests (showWrites s q) q)
      let r := checkDigest f.1 q 0 (s.lext q).complete f.2
      if r.2 then completeShare r.1 q 0 0 0 none f.2 else r.1

/-- SHARE_COMPLETE_REPORT (R399): a die's report reaches the head; after the last one the launch can be released. -/
def execShareCompleteReport (d q : Nat) (s : State) : Host.Outcome State Fault Refusal :=
  .next <| match s.launch q with
  | none => s
  | some l =>
    let e := s.lext q
    if !(l.stat == .completed || l.stat == .aborted) || !e.dies.contains d then s
    else
      let ds := e.dies.erase d
      let s1 := s.modLext q (fun e => { e with dies := ds })
      if (ds.filter (fun x => s.dieList.contains x)).isEmpty ∧ !(s.pkg.released.contains q) then
        s1.modPkg (fun p => { p with released := p.released ++ [q] }) else s1

/-! ## Re-placement (R415) -/

/-- Takes a launch off its tiles: slots, windows, group and jump-table entries, and its part of the holdings. -/
def unbindLaunch (s : State) (q : Nat) : State :=
  match s.launch q with
  | none => s
  | some l =>
    let s1 := l.ends.foldl (fun s p => closeWindow s p.2 (windowKey q p.1)) s
    let s2 := (s1.tasksOf q).foldl (fun s k => s.modTile k.1 (fun v =>
      { v with tasks := mapSet none v.tasks k.2.1 none, exts := mapSet TaskExt.zero v.exts k.2.1 TaskExt.zero })) s1
    (s2.modPkg (fun p => { p with groups := p.groups.filter (fun e => match e.2 with | some g => g.launch != q | none => false) })).modLext q
      (fun e => { e with share := [], groups := [], buckets := [], cleared := [] })

/-- REPLACEMENT_ROUND (R415): the placement of a waiting launch is run again between two entries; if its checks pass it resumes
from its checkpoint on its new tiles, else it stays bound and not running. -/
def execReplacementRound (q : Nat) (s : State) : Host.Outcome State Fault Refusal :=
  .next <| match s.launch q, s.graph q with
  | some l, some g =>
    if !canOpen s || l.stat != .unplaced || !(s.pkg.replaceQ.contains q) then s
    else
      let s0 := (openRound s q true).modPkg (fun p => { p with round := none })
      let s1 := unbindLaunch s0 q
      match placeCheck s1 (holdingsOf s1) l g with
      | .error _ => s0
      | .ok p =>
        let s2 := bindPlaced s1 (holdingsOf s1) q ⟨{ l with stat := .restoring }, g, p⟩
        replayEarly (finishRestore (s2.modPkg (fun p => { p with replaceQ := p.replaceQ.filter (fun x => x != q) })) q)
  | _, _ => s

end Sys2Proof.Machine
end

