-- ==== Sys2Proof/Machine/Links.lean ====
section
/-! DEFINITION. Machine/Links.lean: the links of a package: resending and delivery limits (R346, R354), the Orrery calendar and
its slots (R339 to R344), link encryption and pair keys (R349 to R351), die-to-die links (R336 to R338), and the electrical
ports (R352, R353). -/

namespace Sys2Proof.Machine

/-! ## Resending and the delivery limit (R346, R354) -/

/-- Marks the frames of a flow as not sent, so that they go again by any path. -/
def unsend (s : State) (k : Nat) : State :=
  s.modTx k (fun fl => ⟨fl.next, fl.unacked.map (fun x => { x with sent := false })⟩)

/-- FRAME_RESEND (R346): the unacknowledged frames of a flow go again. -/
def execFrameResend (dst cls : Nat) (s : State) : Host.Outcome State Fault Refusal := .next (unsend s (flowKey dst cls)).pump

/-- A command of a task fails with a code, unless it has ended already. -/
def failCmd (code : Nat) (s : State) (cmd : Nat × Nat × Nat) : State :=
  match (s.ext cmd.1 cmd.2.1).cmds.find? (fun c => c.ticket == cmd.2.2) with
  | some c => if c.done && c.inSect.isNone then s else failCommand s cmd.1 cmd.2.1 code c
  | none => s

/-- A fault of a launch that no task issued (R346). -/
def failLaunch (s : State) (q code : Nat) : State :=
  let r : TrapRec := ⟨recWord0 cXFAIL 3 0 0 0 true false, BitVec.ofNat 64 (w1Unit kXCOPY), BitVec.ofNat 64 code, 0⟩
  s.modDie ((s.dieList).headD 0) (fun d => { d with faults := d.faults ++ [(r, q, none)] })

/-- DELIVERY_LIMIT_EXPIRY (R346): the oldest unacknowledged frame of a flow that had not passed the delivery limit passes it: its commands
fail with code 1, or its launch; a decided commit goes on. The frame itself stays in its flow. -/
def execDeliveryLimitExpiry (dst cls : Nat) (s : State) : Host.Outcome State Fault Refusal :=
  let k := flowKey dst cls
  .next <| match (s.tx k).unacked.findIdx? (fun x => !x.expired) with
  | none => s
  | some i => match (s.tx k).unacked[i]? with
  | none => s
  | some x =>
    let s1 := s.modTx k (fun fl => ⟨fl.next, fl.unacked.modify i (fun y =>
      { y with cmds := y.cmds.filter (fun c => decide (2 ^ 31 ≤ c.2.2)), launch := none, expired := true })⟩)
    let s2 := (x.cmds.filter (fun c => decide (c.2.2 < 2 ^ 31))).foldl (failCmd 1) s1
    match x.launch with
    | some q => failLaunch s2 q 1
    | none => s2

/-- Undecided sections that an engine carries: tile, slot, whether explicit, and a ticket (R354). -/
def carried (s : State) (e : Nat) : List (Nat × Nat × Bool × Nat) :=
  (s.tiles.map (fun v => (v.2.exts.map (fun x =>
    let of (o : Option Sect) : List (Nat × Nat × Bool × Nat) := match o with
      | some y => if y.decided then [] else
          match x.2.cmds.find? (fun c => c.inSect == some y.serial && engineOf c.pkg c.cls == e) with
          | some c => [(v.1, x.1, y.explicit, c.ticket)]
          | none => []
      | none => []
    of x.2.sect ++ of x.2.implicit)).flatten)).flatten

/-- COPY_ENGINE_RESET (R354): the engine's journalled commands go again under their sequences; undecided sections that it
carried fail with code 2. -/
def execCopyEngineReset (e : Nat) (s : State) : Host.Outcome State Fault Refusal :=
  let s1 := (s.net.tx.map (·.1)).foldl (fun s k => if engineOf (k / 4) (k % 4) = e then unsend s k else s) s
  .next ((carried s1 e).foldl (fun s x => if x.2.2.1 then failExplicit s x.1 x.2.1 2 else failImplicit s x.1 x.2.1 2 x.2.2.2) s1).pump

/-! ## Optical flits and pair keys (R349 to R351) -/

/-- Key of an ordered pair of packages. -/
def pairNo (src dst : Nat) : Nat := src * 64 + dst
def State.pair (s : State) (src dst : Nat) : PairKey := mapGet PairKey.zero s.net.keys (pairNo src dst)
def State.modPair (s : State) (src dst : Nat) (f : PairKey → PairKey) : State :=
  s.modNet (fun n => { n with keys := mapSet PairKey.zero n.keys (pairNo src dst) (f (s.pair src dst)) })

/-- The header of a flit: its phase in bit 63, its sequence in [62:16] (R349). -/
def flitHeader (phase : Bool) (seq : Nat) : BitVec 64 := BitVec.ofNat 64 (bit01 phase * 2 ^ 63 + seq % 2 ^ 47 * 2 ^ 16)
/-- The nonce: source, destination, epoch, sequence (R349). -/
def flitNonce (src dst epoch seq : Nat) : BitVec 96 :=
  BitVec.ofNat 96 (src % 256 * 2 ^ 88 + dst % 256 * 2 ^ 80 + epoch % 2 ^ 32 * 2 ^ 48 + seq % 2 ^ 48)

/-- Flits that a frame takes, of 232 bytes each. -/
def flitsOf (f : Frame) : Nat := ceilDiv (28 + f.payload.length) 232

/-- Whether a pair can carry a frame: a key is installed, its epoch has flits left (R349), and its replay buffer of 2,048 flits has room
(R350). -/
def State.pairOpen (s : State) (dst : Nat) (f : Frame) : Bool :=
  let k := s.pair s.pkg.num dst
  k.epoch != 0 && decide (k.used + flitsOf f ≤ 2 ^ 47) && decide (k.replay.length + flitsOf f ≤ 2048)

/-- Seals a frame into flits of its pair and sends them; they stand in the replay buffer until they are acknowledged (R349, R350). -/
def sealFrame (s : State) (dst : Nat) (f : Frame) : State :=
  let src := s.pkg.num
  let k := s.pair src dst
  let n := flitsOf f
  let bs := frameWire f
  let fs := (List.range n).map (fun i =>
    let seq := (k.txSeq + i) % 2 ^ 47
    let ph := decide (k.epoch % 2 = 1)
    let c := gcmSeal k.key (flitNonce src dst k.epoch seq) (flitHeader ph seq) (fitBytes 232 ((bs.drop (232 * i)).take 232))
    ({ src := src, dst := dst, phase := ph, seq := seq, cipher := c.1, auth := c.2
       bad := (f.bad.filter (fun b => (24 + b) / 232 == i)).map (fun b => (24 + b) % 232) } : OptFlit))
  s.modPair src dst (fun k =>
    { k with used := k.used + n, txSeq := (k.txSeq + n) % 2 ^ 47, replay := k.replay ++ fs, out := k.out ++ fs })

/-- The pair's flits at the start of a slot that serves it: the peer's acknowledgements have retired some of the oldest, and where it has
asked, the rest go again as they were sealed. R349 gives a flit no place for either, so which have come is free (R350; log entry 102). -/
def serveFlits (s : State) (peer : Nat) : State :=
  let k := s.pair s.pkg.num peer
  if k.replay.isEmpty then s
  else
    let a := s.draw
    let b := a.2.draw
    let rest := k.replay.drop (a.1 % (k.replay.length + 1))
    b.2.modPair s.pkg.num peer (fun k => { k with replay := rest, out := if b.1 % 2 = 1 then k.out ++ rest else k.out })

/-- The frame that some delivered flits hold, the last of them ending it: its CRC-32C says where it ends (R347; log entry 135). -/
def frameOfFlits (fs : List (List (Byte × Bool))) : Option Frame :=
  let bs := fs.flatten
  let ends (n : Nat) : Bool := leNat (((bs.drop n).take 4).map (·.1)) == crc32c ((bs.take n).map (·.1)) && (bs.drop (n + 4)).all (fun b => b.1 == 0)
  let lo := max 24 (bs.length - 232 + 1 - 4)
  ((List.range (bs.length - 4 + 1 - lo)).map (fun i => lo + i)).findSome? (fun n => if ends n then some (parseFrame (bs.take n)) else none)

/-- Delivered plaintexts become frames (R347, R350): a whole frame is taken; what is longer than any frame fails its check and is dropped. -/
def takeFlits (s : State) (src : Nat) : State :=
  let k := s.pair src s.pkg.num
  match frameOfFlits k.delivered with
  | some f => takeWhole (s.modPair src s.pkg.num (fun k => { k with delivered := [] })) f
  | none => if 36 ≤ k.delivered.length then s.modPair src s.pkg.num (fun k => { k with delivered := [] }) else s

/-- OPTICAL_FLIT (R350): the flit in turn whose tag holds under the key of its phase is delivered, and makes its frame; any other is dropped,
and the one in turn is asked for. -/
def execOpticalFlit (f : OptFlit) (s : State) : Host.Outcome State Fault Refusal :=
  let k := s.pair f.src s.pkg.num
  let ask : State := s.modPair f.src s.pkg.num (fun k => { k with nacked := true })
  let cur := decide (k.epoch % 2 = 1) == f.phase
  let key := if cur then (if k.epoch = 0 then none else some k.key) else k.old
  let epoch := if cur then k.epoch else k.epoch - 1
  .next <| if f.dst ≠ s.pkg.num then s else match key with
  | none => ask
  | some key =>
    if f.seq ≠ k.rxNext then ask
    else match gcmOpen key (flitNonce f.src f.dst epoch f.seq) (flitHeader f.phase f.seq) f.cipher f.auth with
    | none => ask
    | some pt => takeFlits (s.modPair f.src s.pkg.num (fun k =>
        { k with rxNext := (k.rxNext + 1) % 2 ^ 47, nacked := false
                 delivered := k.delivered ++ [pt.zipIdx.map (fun b => (b.1, f.bad.contains b.2))] })) f.src

/-- KEY_INSTALL (R349, R351): a pair takes a new key, and its sender the new phase; not before the old key is retired. The first key of a
pair that begins anew makes it epoch 1 with nothing on the way; of one from another package, that package was reset (log entry 136). -/
def execKeyInstall (src dst : Nat) (key : PairKeying) (s : State) : Host.Outcome State Fault Refusal :=
  .next <|
    if src = dst ∨ (src ≠ s.pkg.num ∧ dst ≠ s.pkg.num) then s
    else match key with
    | .first key => (if dst = s.pkg.num then peerReset s src else s).modPair src dst (fun _ => { PairKey.zero with epoch := 1, key := key })
    | .next key =>
      if (s.pair src dst).old.isSome = true then s
      else s.modPair src dst (fun k =>
        { k with epoch := k.epoch + 1, key := key, old := if k.epoch = 0 then none else some k.key, used := 0, reported := false })

/-- KEY_RETIREMENT_REPORT (R351): at the sender, the report goes once no flit of the old phase stands unacknowledged; on it, the receiver
erases the old key. -/
def execKeyRetirementReport (src dst : Nat) (s : State) : Host.Outcome State Fault Refusal :=
  let k := s.pair src dst
  .next <|
    if dst = s.pkg.num then s.modPair src dst (fun k => { k with old := none })
    else if src = s.pkg.num ∧ k.replay.all (fun f => f.phase == decide (k.epoch % 2 = 1)) = true then
      s.modPair src dst (fun k => { k with old := none, reported := true })
    else s

/-! ## Slots (R340 to R344) -/

/-- Bytes that a frame takes of a slot: its flits of 256 bytes (R339, R349). -/
def wireBytes (f : Frame) : Nat := 256 * flitsOf f

/-- Whether a frame of a class takes the optical path now (R343, R353). -/
def State.optical (s : State) (j : Nat) (f : Frame) : Bool :=
  let p := s.net.pathOf f.cls
  p == 0 || p == 3 || (p == 2 && s.slotSoon j (creditUnits f.payload.length))

/-- Whether a frame goes in the slot of a port and peer with a budget of bytes (steps 1 to 3 of R343): direct, or to be relayed. -/
def slotWay (s : State) (k peer budget : Nat) (f : Frame) : Option Bool :=
  if decide (budget < wireBytes f) || !s.optical f.dst f || !s.pairOpen peer f then none
  else if f.dst = peer then some false
  else if !s.directSoon f.dst && s.relayVia f.dst (creditUnits f.payload.length) == some (k, peer) then some true
  else none

/-- A frame goes out in a slot to a peer, direct or to be relayed (R343, R344). -/
def launchFrame (s : State) (peer : Nat) (f : Frame) (relay : Bool) : State :=
  let g := { f with relay := relay }
  let s1 := (sealFrame s peer g).modNet (fun n => { n with sent := n.sent ++ [g] })
  if relay then s1.modNet (fun n => { n with credit := mapSet 0 n.credit peer (mapGet 0 n.credit peer - creditUnits f.payload.length) }) else s1

/-- One frame of a flow in the slot of a port and peer with a budget of bytes. -/
def slotFrame (k peer : Nat) (st : State × Nat) (c : Nat × Nat) : State × Nat :=
  match (st.1.tx c.1).unacked[c.2]? with
  | none => st
  | some x =>
    if x.sent then st
    else match slotWay st.1 k peer st.2 x.frame with
    | some relay =>
      (launchFrame (st.1.modTx c.1 (fun fl => ⟨fl.next, fl.unacked.modify c.2 (fun x => { x with sent := true, once := true })⟩)) peer x.frame relay,
        st.2 - wireBytes x.frame)
    | none => st

/-- One acknowledgement in the slot of a port and peer. -/
def slotAck (k peer : Nat) (st : State × Nat) (f : Frame) : State × Nat :=
  match slotWay st.1 k peer st.2 f with
  | some relay => (launchFrame (st.1.modNet (fun n => { n with acks := n.acks.erase f })) peer f relay, st.2 - wireBytes f)
  | none => st

/-- One relayed frame in the slot of its destination, its header unchanged (R344). -/
def slotRelayed (peer : Nat) (st : State × Nat) (f : Frame) : State × Nat :=
  if f.dst ≠ peer ∨ st.2 < wireBytes f ∨ st.1.pairOpen peer f = false then st
  else ((sealFrame st.1 peer f).modNet (fun n => { n with relayed := n.relayed.erase f, sent := n.sent ++ [f] }), st.2 - wireBytes f)

/-- What a port sends in the present slot, at most 1,444,000 bytes (R339): relayed frames, acknowledgements, then frames of the flows in
order. -/
def servePort (s : State) (k : Nat) : State :=
  let peer := roundPeer s.pkg.num (portRound s.net.slot k)
  let r := s.net.acks.foldl (slotAck k peer) (s.net.relayed.foldl (slotRelayed peer) (s, 1444000))
  let cands := (s.net.tx.map (fun e => (List.range (min e.2.unacked.length 4096)).map (fun i => (e.1, i)))).flatten
  (cands.foldl (slotFrame k peer) r).1

/-- ORRERY_SLOT (R340 to R343): the next slot begins; at a calendar cycle's start, retrained ports return; every port in the
calendar serves its peer. A port whose peer is absent, or has lost its own port, is idle; of which peers that holds in a slot is free,
for nothing tells this package (log entry 61). Nothing happens before lock. -/
def execOrrerySlot (s : State) : Host.Outcome State Fault Refusal :=
  .next <|
    if !s.net.lock then s
    else
      let s1 := s.modNet (fun n =>
        let slot := (n.slot + 1) % 63
        { n with slot := slot, ports := if slot = 0 then n.ports ||| n.retrained else n.ports
                 retrained := if slot = 0 then 0 else n.retrained })
      let d := s1.draw
      (s1.net.inCalendar.foldl (fun s k =>
        if d.1.testBit k then servePort (serveFlits s (roundPeer s.pkg.num (portRound s.net.slot k))) k else s) d.2).pump

/-- ORRERY_LOCK_LOSS (R341): every port leaves the calendar until lock returns. -/
def execOrreryLockLoss (s : State) : Host.Outcome State Fault Refusal :=
  .next (s.modNet (fun n => { n with lock := false, ports := 0, loss := n.loss ||| n.ports, retrained := 0 })).pump

/-- OPTICAL_PORT_LOSS (R342): the port leaves the calendar. -/
def execOpticalPortLoss (k : Nat) (s : State) : Host.Outcome State Fault Refusal :=
  .next <| if 8 ≤ k then s else (s.modNet (fun n =>
    { n with
      ports := n.ports &&& ~~~(BitVec.twoPow 8 k)
      retrained := n.retrained &&& ~~~(BitVec.twoPow 8 k)
      loss := n.loss ||| (n.ports &&& BitVec.twoPow 8 k) })).pump

/-- OPTICAL_PORT_RETURN (R342): the port has retrained; it joins at the start of the next calendar cycle. -/
def execOpticalPortReturn (k : Nat) (s : State) : Host.Outcome State Fault Refusal :=
  .next <| if 8 ≤ k ∨ !s.net.lock then s else s.modNet (fun n => { n with retrained := n.retrained ||| (BitVec.twoPow 8 k &&& ~~~n.ports) })

/-! ## Electrical ports (R352, R353) -/

/-- PAUSE_FRAME (R352): a traffic class stops, or goes on, on a port. -/
def execPauseFrame (port cls : Nat) (on : Bool) (s : State) : Host.Outcome State Fault Refusal :=
  .next <| if 8 ≤ port ∨ 4 ≤ cls then s
    else (s.modNet (fun n => { n with paused := mapSet false n.paused (port * 4 + cls) on })).pump

/-- ELECTRICAL_PORT_LOSS (R435): the port leaves the ports in service; the frames of the flows that it served go again. -/
def execElectricalPortLoss (k : Nat) (s : State) : Host.Outcome State Fault Refusal :=
  .next <|
    if 8 ≤ k ∨ !s.net.eports.getLsbD k then s
    else
      let mine := (s.net.tx.map (·.1)).filter (fun key => s.net.pathOf (key % 4) != 0 && s.net.eport (key / 4) == some k)
      (mine.foldl unsend (s.modNet (fun n => { n with eports := n.eports &&& ~~~(BitVec.twoPow 8 k) }))).pump

/-- ELECTRICAL_PORT_RETURN (R352): the port joins the ports in service; port k + 4 is the second half of a port k that runs as two. -/
def execElectricalPortReturn (k : Nat) (s : State) : Host.Outcome State Fault Refusal :=
  .next <| if 8 ≤ k then s else (s.modNet (fun n => { n with eports := n.eports ||| BitVec.twoPow 8 k })).pump

/-! ## Die-to-die links (R336 to R338) -/

def modLink (s : State) (d : Nat) (f : D2d → D2d) : State := s.modDie d (fun x => { x with link := f x.link })

/-- Retires the flits up to an acknowledged sequence; payloads that waited for their places are sent (R337). -/
def D2d.acked (l : D2d) (n : Nat) : D2d :=
  let r := l.replay.dropWhile (fun x => decide ((n + 4096 - x.1) % 4096 < 2048))
  if r.length = l.replay.length then l else D2d.sendWaiting { l with replay := r, fails := 0, asked := none }

/-- Asks for the first flit that the receiver lacks (R337). -/
def D2d.nack (l : D2d) : D2d := { l with nacked := true, passed := none, out := l.out ++ [Flit.make l.rxNext (l.rxNext + 4095) 2 []] }

/-- Replays in order from a flit (R337); one that is asked for again has failed its replay. -/
def D2d.replayFrom (l : D2d) (n : Nat) : D2d :=
  { l with out := l.out ++ (l.replay.dropWhile (fun x => x.1 != n)).map l.flit, asked := some n
           fails := if l.asked = some n then l.fails + 1 else 0 }

/-- What the receiver does with a flit that it drops: one nack, and none again until the replay is seen to have failed, when a data flit
that is not after the last one dropped shows that the sender went back (R337; log entry 149). -/
def D2d.dropFlit (l : D2d) (seq : Option Nat) : D2d :=
  if !l.nacked then { l.nack with passed := seq }
  else match seq, l.passed with
    | some n, some p => if (n + 4096 - p) % 4096 ≠ 0 ∧ (n + 4096 - p) % 4096 < 2048 then { l with passed := some n } else { l.nack with passed := some n }
    | some n, none => { l with passed := some n }
    | none, _ => l

/-- D2D_FLIT (R336, R337): a flit that fails its check, carries a reserved type or is out of sequence is dropped, and so is every later one
until the replay, with one nack; a data flit in sequence is delivered. An idle flit while a nack is out may end a replay that failed: whether it
does is free (log entry 149). -/
def execD2dFlit (d : Nat) (f : Flit) (s : State) : Host.Outcome State Fault Refusal :=
  let l := (s.die d).link
  .next <|
    if l.lost then s
    else if !f.crcOk || decide (3 < f.kind) then modLink s d (fun l => l.dropFlit none)
    else if f.kind = 0 ∧ l.nacked = true then
      modLink s.draw.2 d (fun l => if s.draw.1 % 2 = 1 then (l.acked f.ack).nack else l.acked f.ack)
    else modLink s d (fun l =>
      let m := l.acked f.ack
      if f.kind = 1 then
        if f.seq = l.rxNext then
          { m with rxNext := (l.rxNext + 1) % 4096, delivered := l.delivered ++ [f.payload], nacked := false, passed := none }
        else m.dropFlit (some f.seq)
      else if f.kind = 2 then m.replayFrom f.seq
      else m)

/-- D2D_NACK (R337). -/
def execD2dNack (d n : Nat) (s : State) : Host.Outcome State Fault Refusal :=
  .next (modLink s d (fun l => if l.lost then l else l.replayFrom n))

/-- LINK_RETRAIN (R337, R338): after 16 failed replays of a flit, or to take lost lane groups back, the link retrains: it keeps
its sequence state, and the waiting flits go again in order. -/
def execLinkRetrain (d : Nat) (s : State) : Host.Outcome State Fault Refusal :=
  .next <| modLink s d (fun l =>
    if decide (l.fails < 16) && l.groups == 15 then l
    else { l with fails := 0, asked := none, groups := 15, lost := false, nacked := false, passed := none, out := l.replay.map l.flit })

/-- LANE_GROUP_FAILURE (R338, R435): the group is removed; with no group left, the link is lost and its die has a die fatal
fault. -/
def execLaneGroupFailure (d g : Nat) (s : State) : Host.Outcome State Fault Refusal :=
  .next <|
    if 4 ≤ g ∨ (s.die d).link.lost = true then s
    else
      let left := (s.die d).link.groups &&& (15 - 2 ^ g)
      if left = 0 then modLink (resetDie s d) d (fun l => { l with groups := 0, lost := true })
      else modLink s d (fun l => { l with groups := left })

end Sys2Proof.Machine
end

