-- ==== Sys2Proof/Machine/Faults.lean ====
section
/-! DEFINITION. Machine/Faults.lean: what the die managers do with fault records (R430, R450), the resets of one unit (R435,
R436, R444), error injection (R434), and the control of the clocks (R455). -/

namespace Sys2Proof.Machine

/-! ## Fault records (R430) -/

/-- The actor that a record's fault concerns: a memory actor, or that of the task in the record's slot. -/
def faultActor (s : State) (r : TrapRec) (q : Nat) (mem : Option Nat) : Nat :=
  match mem with
  | some x => x
  | none => match s.task r.tile r.slot with
    | some k => if k.launch = q then k.actor else 0
    | none => 0

/-- A `POISON` that a memory array caused (R430): not of a future, with an array id in word 3. -/
def TrapRec.fromArray (r : TrapRec) : Bool :=
  r.cause == cPOISON && !r.fut && decide (1 ≤ r.w3.toNat % 256) && decide (r.w3.toNat % 256 ≤ 9)

/-- The manager handles one record of a launch. A memory poison of one that no longer runs asks for no further restart: the work it hurt is gone. -/
def handleFault (s : State) (d q : Nat) (r : TrapRec) (mem : Option Nat) : State :=
  if r.cause = cNOTPRESENT then
    ringRecord s (leBytes 8 r.w0.toNat ++ leBytes 8 r.w1.toNat ++ leBytes 8 r.w2.toNat ++ leBytes 8 r.w3.toNat)
  else if r.fromArray ∧ (s.lext q).retries < (s.die d).faultCtl.toNat % 16 then
    if ((s.launch q).map (·.stat)) = some .running then
      recoverLaunch (s.modLext q (fun e => { e with retries := e.retries + 1 })) q (s.lext q).complete
    else s
  else abortLaunch s q r.cause (faultActor s r q mem) r.w2

/-- Launches that run here and on another package of their map. -/
def sharedLaunches (s : State) : List Nat :=
  s.pkg.launches.filterMap (fun e => match e.2 with
    | some l => if (l.stat = .running ∨ l.stat = .restoring ∨ l.stat = .unplaced) ∧ !(s.otherPkgs e.1).isEmpty then some e.1 else none
    | none => none)

/-- An abort on another package stops a launch's tasks here too (R430). How its news comes the manual does not say, so that it has come,
of which shared launch, and its cause, actor and value are free (log entry 15). -/
def abortFromElsewhere (s : State) : State :=
  let qs := sharedLaunches s
  if qs.isEmpty then s
  else
    let n := s.draw
    let c := n.2.draw
    let x := c.2.draw
    let v := x.2.draw
    match n.1 % (qs.length + 1) with
    | 0 => v.2
    | i + 1 => abortLaunch v.2 (qs.getD i 0) (c.1 % 256) (x.1 % 2 ^ 16) (BitVec.ofNat 64 v.1)

/-- Members on other packages, of the groups of launches that run here, that have yet to arrive at the present phase: the group's entry and the
logical index. -/
def remoteMembers (s : State) : List (Nat × Nat) :=
  s.pkg.groups.flatMap (fun e => match e.2 with
    | some g => match s.launch g.launch with
      | some l =>
        if l.stat = .running then
          (g.members.filter (fun m => !l.place.any (fun p => p.1 == m) && !g.arrived.contains m && !g.ended.contains m)).map (fun m => (e.1, m))
        else []
      | none => []
    | none => [])

/-- A member on another package arrives at the present phase of its group, or ends (R259). -/
def remoteMember (s : State) (i m : Nat) (ends : Bool) : State :=
  match mapGet none s.pkg.groups i with
  | some g =>
    let stamp := s.stamp + 1
    State.setGroup { s with stamp := stamp } i (if ends then g.memberEnds m stamp else { g with arrived := m :: g.arrived }.settle stamp)
  | none => s

/-- A manager with nothing to do may learn of what another package has done: an abort, or the arrival or end of a member of a group. How the news
comes the manual does not say, so that it has come, and of what, is free (log entries 15, 133). -/
def newsFromElsewhere (s : State) : State :=
  let ms := remoteMembers s
  if ms.isEmpty then abortFromElsewhere s
  else
    let n := s.draw
    let x := ms.getD (n.1 / 3 % ms.length) (0, 0)
    match n.1 % 3 with
    | 0 => abortFromElsewhere n.2
    | 1 => remoteMember n.2 x.1 x.2 false
    | _ => remoteMember n.2 x.1 x.2 true

/-- FAULT_RECORD (R430): the manager of a die takes a tile with a fatal fault out of service (R421, R435), else its oldest record; while it does not
run, both wait (R436). With none waiting, it may act on what has happened elsewhere. -/
def execFaultRecord (d : Nat) (s : State) : Host.Outcome State Fault Refusal :=
  .next <|
    if !(s.die d).runs then s
    else match (s.die d).fatal, (s.die d).faults with
    | t :: rest, _ => quarantineTile (s.modDie d (fun x => { x with fatal := rest })) t
    | [], [] => newsFromElsewhere s
    | [], (r, q, mem) :: rest => handleFault (s.modDie d (fun x => { x with faults := rest })) d q r mem

/-- Room in the host fault ring (R450). -/
def ringRoom (r : HostRegs) : Bool :=
  let k := r.fbase.toNat % 32
  k != 0 && decide ((r.ftail - r.fhead).toNat < 2 ^ k)

/-- FAULT_RING_WRITE (R450): the oldest waiting record goes into the ring and raises MSI-X vector 1; without room it waits, and
`HOST_ERR` says so. -/
def execFaultRingWrite (s : State) : Host.Outcome State Fault Refusal :=
  let r := s.regs
  .next <| match r.ringWait with
  | [] => s
  | bs :: rest =>
    if ringRoom r then
      raiseMsix ((s.put (bitsOf r.fbase.toNat 51 12 * 2 ^ 12 + 32 * (r.ftail.toNat % 2 ^ (r.fbase.toNat % 32))) bs).modRegs (fun r =>
        { r with ringWait := rest, ftail := r.ftail + 1 })) 1
    else s.modRegs (fun r => { r with err := r.err ||| 2 })

/-! ## Resets of one unit (R435, R436, R444) -/

/-- TILE_QUARANTINE (R435, R415). -/
def execTileQuarantine (t : Nat) (s : State) : Host.Outcome State Fault Refusal := .next (quarantineTile s t)

/-- TILE_RETURN (R435): a quarantined tile has passed a self-test; it returns at the next round. -/
def execTileReturn (t : Nat) (s : State) : Host.Outcome State Fault Refusal :=
  .next <|
    if !mapGet false s.pkg.quarantined t || s.pkg.returning.contains t then s
    else (strikeTables (s.modTile t Tile.leaveMonitor) t).modPkg (fun p => { p with returning := p.returning ++ [t] })

/-- DIE_RESET (R435, R400, R415). -/
def execDieReset (d : Nat) (s : State) : Host.Outcome State Fault Refusal := .next (if 24 ≤ d then s else resetDie s d)

/-- THERMAL_TRIP (R455): a junction at 115 °C is a die fatal fault. -/
def execThermalTrip (d : Nat) (s : State) : Host.Outcome State Fault Refusal := .next (if 24 ≤ d then s else resetDie s d)

/-- STACK_FAULT (R435): every word of the stack reads as poisoned until it is written again; queued infuser commands complete as
at a controller reset. -/
def execStackFault (k : Nat) (s : State) : Host.Outcome State Fault Refusal :=
  .next <| if 48 ≤ k then s else (resetController s k).modStack k (fun x => { x with poisoned := true, clean := [] })

/-- WATCHDOG_EXPIRY (R436): the manager core alone is reset and counted; what its SRAM held is lost, a poisoned word among it (log entry 9). -/
def execWatchdogExpiry (d : Nat) (s : State) : Host.Outcome State Fault Refusal :=
  .next <|
    if !(s.die d).managed then s
    else s.modDie d (fun x => { x with
      managed := false, wdogResets := min (x.wdogResets + 1) 65535, sram := [], holdings := Holdings.empty })

/-- The first journal entry, from the oldest one whose completion bit is clear, that is neither complete nor accepted: where a manager that rereads
the journal goes on (R444). -/
def rereadFrom (s : State) : Nat → Nat → Nat
  | 0, n => n
  | fuel + 1, n =>
    let taken := s.isComplete n || s.pkg.launches.any (fun l => l.2.isSome && (l.1 == n || (s.lext l.1).reqs.any (fun r => r.seq == n) ||
      (s.lext l.1).preempt.any (fun p => p.1 == n)))
    if n < s.pkg.jnext ∧ taken = true then rereadFrom s fuel (n + 1) else n

/-- What a manager that has restarted does with what was accepted: the launches that run on its die, whose completion bits are clear, return to their
last complete checkpoints, and as head it rereads the journal (R444; log entry 150). -/
def resumeAccepted (s : State) (d : Nat) : State :=
  let qs := (boundLaunches s).filter (fun q => launchOn s q (fun t => t / 512 == d) && ((s.launch q).map (·.stat)) == some .running && !s.isComplete q)
  let s1 := qs.foldl (fun s q => recoverLaunch s q (s.lext q).complete) s
  if s.dieList.head? = some d ∧ s.pkg.round.isNone = true then
    s1.modPkg (fun p => { p with jnext := rereadFrom s1 (s.pkg.jnext + 1 - s.jdone) s.jdone })
  else s1

/-- DIE_REJOIN (R436, R444): a restarted manager, or a reset die, runs again from its firmware checkpoint and stands in the active mask; a round that
is open and counts on it is sent again. -/
def execDieRejoin (d : Nat) (s : State) : Host.Outcome State Fault Refusal :=
  .next <|
    if 24 ≤ d ∨ s.regs.stage < 2 ∨ (s.die d).link.lost = true ∨ ((s.die d).managed = true ∧ s.pkg.dieMask.getLsbD d = true) then s
    else
      let s1 := (s.modDie d (fun x => { x with managed := true, holdings := x.ckpt })).modPkg (fun p => { p with dieMask := p.dieMask ||| BitVec.twoPow 24 d })
      let s2 := resumeAccepted s1 d
      if (s.pkg.round.any (fun r => r.dies.getLsbD d)) then repeatRound s2 else s2

/-- The kick of a watchdog (R436): KICK takes the value written. -/
def kickDie (s : State) (d : Nat) (v : DWord) : State := s.modDie d (fun x => { x with wdogKick := v.setWidth 32 })

/-- DIE_WDOG (R436). -/
def execDieWdog (d : Nat) (v : DWord) (s : State) : Host.Outcome State Fault Refusal := .next (if 24 ≤ d then s else kickDie s d v)

/-- Arms an injection (R434); the next write to the address carries it out. -/
def armInjection (s : State) (d : Nat) (v : DWord) : State := s.modDie d (fun x => { x with errInj := v })

/-- DIE_ERRINJ (R434). -/
def execDieErrinj (d : Nat) (v : DWord) (s : State) : Host.Outcome State Fault Refusal := .next (if 24 ≤ d then s else armInjection s d v)

/-! ## Clocks (R455) -/

/-- The highest step within a limit, the ceiling of the die and that of the configuration record, from 17 to 34; before stage
5 the clock stands at 17 (R451). -/
def clockStep (s : State) (d limit : Nat) : Nat :=
  if s.regs.stage < 5 then 17 else max 17 (min (min limit 34) (min (s.die d).ceil s.pkg.ceiling))

/-- CLOCK_CONTROL_TICK (R455): the manager sets the clock, within the step that power and temperature allow. -/
def execClockControlTick (d limit : Nat) (s : State) : Host.Outcome State Fault Refusal :=
  .next <| if 24 ≤ d ∨ (s.die d).runs = false then s else s.modDie d (fun x => { x with cur := clockStep s d limit })

end Sys2Proof.Machine
end

