-- ==== Sys2Proof/Machine/HostIf.lean ====
section
/-! DEFINITION. Machine/HostIf.lean: bring-up (R451 to R453), attestation (R454), and what the host and die-manager firmware do
through the device registers and the host windows (R446 to R450, R457). -/

namespace Sys2Proof.Machine

/-! ## Bring-up (R451 to R453) -/

/-- Host memory as a module reset leaves it: it lies outside the module, with every write on its way performed. -/
def hostMemory (s : State) : List (Nat × Byte) :=
  mapKeep (s.writes.foldl (fun m w => putBytes m w.addr w.bytes) s.mem) (fun a => decide (2 ^ 60 ≤ a))

/-- MODULE_RESET (R451): bring-up begins at stage 0, with every register at its reset value. Host memory and the package time
are not the module's. -/
def execModuleReset (s : State) : Host.Outcome State Fault Refusal :=
  .next { State.reset with mem := hostMemory s, draws := s.draws, time := s.time }

/-- Bring-up stops with an error code. -/
def stopBringUp (s : State) (code : Nat) : State :=
  (s.modRegs (fun r => { r with stageErr := code })).modPkg (fun p => { p with halted := true })

def setStage (s : State) (n : Nat) : State := s.modRegs (fun r => { r with stage := n })

/-- A stage is the next one to run. -/
def atStage (s : State) (n : Nat) : Bool := s.regs.stage + 1 == n && !s.pkg.halted

/-- What stage 1 leaves in the root of trust (R454): the hash of each image, and the identity that it reconstructs. -/
def measureImages (s : State) (f : BootFlash) : State :=
  let key := Config.identityKey f.seed
  s.modRegs (fun r => { r with measured := f.images.map (fun i => BitVec.ofNat 512 (beNat (sha512 i.bytes)))
                               idSeed := f.seed, idExp := key.1, idMod := key.2 })

/-- ROOT_OF_TRUST_CHECK (R453, R454): signatures, then the firmware version, then the configuration record. How the record lays out what it holds the
manual does not say: its fields are operands (log entry 145). -/
def execRootOfTrustCheck (flash : BootFlash) (version minVersion pkg ceiling : Nat) (badTiles : List Nat) (s : State) :
    Host.Outcome State Fault Refusal :=
  .next <|
    if !atStage s 1 then s
    else if !bootSigned flash then stopBringUp s 1
    else if version < minVersion then stopBringUp s 2
    else setStage ((measureImages s flash).modPkg (fun p =>
      { p with num := pkg % 64, ceiling := ceiling, badTiles := badTiles, minVersion := minVersion })) 1

/-- DIE_MANAGER_START (R451): the managers run, every die is active, the lowest is head. A failure of this stage has no error
code of its own: what ERR shows is not fixed. -/
def execDieManagerStart (ok : Bool) (s : State) : Host.Outcome State Fault Refusal :=
  .next <|
    if !atStage s 2 then s
    else if !ok then let d := s.draw; stopBringUp d.2 (d.1 % 256)
    else
      let s1 := (List.range 24).foldl (fun s d => s.modDie d (fun x => { x with managed := true })) s
      setStage (s1.modPkg (fun p => { p with dieMask := 0xFFFFFF })) 2

/-- Whether a tile stands between the save of one task's context and the restore of another's, a save of which the monitor makes (R193, R62). -/
def betweenTasks (s : State) (t : Nat) : Bool :=
  (s.die (t / 512)).runs && (s.tile t).tasks.any (fun k => k.2.any (fun k => k.saved.isSome))

/-- The self-test of all tiles writes the inverse-normal tables (R421): an armed injection of one acts on it (R434). -/
def selfTestTables (s : State) : State :=
  let s1 := { s with tiles := s.tiles.map (fun v => (v.1, { v.2 with tables := 0 })) }
  (List.range 24).foldl (fun s d =>
    let a := (s.die d).errInj.toNat % 2 ^ 48
    if a < 512 then strikeTables s (d * 512 + a) else s) s1

/-- TILE_SELF_TEST (R451, R453): the tile monitor starts on a core of a tile, for the self-test of stage 3, or on one that stands between a save
and a restore, where it runs until the next task is loaded (R193; log entry 142); or the test has ended, the monitors with it, and failing tiles
and those known bad are quarantined. -/
def execTileSelfTest (news : SelfTest) (failed : List Nat) (s : State) : Host.Outcome State Fault Refusal :=
  .next <| match news with
    | .monitor t c off => if atStage s 3 || betweenTasks s t then enterMonitor s t c off else s
    | .ended ok =>
      if !atStage s 3 then s else
      let s1 := selfTestTables (s.tiles.foldl (fun s v => s.modTile v.1 Tile.leaveMonitor) s)
      if !ok then stopBringUp s1 3
      else setStage ((failed ++ s.pkg.badTiles).foldl quarantineTile s1) 3

/-- HBM_TRAINING (R451): one stack trains; the stage is complete with the last of the 48. -/
def execHbmTraining (k : Nat) (ok : Bool) (s : State) : Host.Outcome State Fault Refusal :=
  .next <|
    if !atStage s 4 || decide (48 ≤ k) then s
    else if !ok then stopBringUp s 4
    else
      let s1 := s.modStack k (fun x => { x with trained := true })
      if (List.range 48).all (fun k => (s1.stack k).trained) then setStage s1 4 else s1

/-- SUBSTRATE_LINK_TRAINING (R451). -/
def execSubstrateLinkTraining (ok : Bool) (s : State) : Host.Outcome State Fault Refusal :=
  .next <| if !atStage s 5 then s else if !ok then stopBringUp s 5 else setStage s 5

/-- ORRERY_LOCK (R341, R451): the unit locks to the slot clock with the ports that can serve; the first lock completes stage 6, and one that no
port can follow is the failure of that stage (log entry 106). -/
def execOrreryLock (slot ports : Nat) (s : State) : Host.Outcome State Fault Refusal :=
  .next <|
    if s.regs.stage < 5 ∨ s.pkg.halted = true then s
    else if s.regs.stage = 5 ∧ ports % 256 = 0 then stopBringUp s 6
    else ((s.modNet (fun n => { n with lock := true, slot := slot % 63, ports := BitVec.ofNat 8 ports })).modRegs (fun r => { r with stage := 6 })).pump

/-! ## Attestation (R454) -/

/-- A write to `HOST_ATTC`: REQ takes the value written (R7), but a second request before the bit clears is ignored and sets
bit 3 of `HOST_ERR` (R454). -/
def requestReport (s : State) (v : DWord) : State :=
  if v.getLsbD 0 && s.regs.attc then s.modRegs (fun r => { r with err := r.err ||| 8 })
  else s.modRegs (fun r => { r with attc := v.getLsbD 0 })

/-- Before stage 2 the device offers the status registers of BAR0 alone (R451): a write to another register is ignored (log entry 112). -/
def offered (s t : State) : State := if s.regs.stage < 2 then s else t

/-- ATTESTATION_REQUEST (R454). -/
def execAttestationRequest (v : DWord) (s : State) : Host.Outcome State Fault Refusal := .next (offered s (requestReport s v))

/-- The nonce registers as 32 bytes. -/
def nonceBytes (r : HostRegs) : List Byte := ((List.range 4).map (fun i => leBytes 8 (mapGet 0 r.attn i).toNat)).flatten

/-- Whether bytes are the report over the pending nonce (R454): its layout, the identity key, the hash of each image, and a signature by the identity
key over the rest. -/
def reportOk (r : HostRegs) (bs : List Byte) : Bool :=
  let n := r.measured.length
  decide (1 ≤ n) && decide (n ≤ 16) && bs.length == 0x430 + 64 * n &&
    bs.take (0x230 + 64 * n) == leBytes 4 (0x430 + 64 * n) ++ leBytes 4 n ++ nonceBytes r ++ leBytes 4 r.idExp ++ leBytes 4 0 ++ beBytes 512 r.idMod ++
      r.measured.flatMap (fun h => beBytes 64 h.toNat) &&
    pssVerify r.idMod r.idExp (bs.take (0x230 + 64 * n)) (bs.drop (0x230 + 64 * n))

/-- ATTESTATION_REPORT (R454): the report fills the area; the request is done. The salt of the signature is all that its step leaves open. -/
def execAttestationReport (report : List Byte) (s : State) : Host.Outcome State Fault Refusal :=
  .next <|
    if s.regs.attc && reportOk s.regs report then s.modRegs (fun r => { r with attr := report, attc := false }) else s

/-! ## The journal and fault rings (R447 to R450) -/

/-- The writes of a host link become visible to every observer (R18). -/
def showHost (s : State) (link : Nat) : State := s.perform (fun w => w.writer == .host link) .all

/-- A doorbell write of a link (R448, R18). -/
def ringDoorbell (s : State) (link : Nat) (v : DWord) : State :=
  let s1 := showHost s link
  if 2 ^ (s.regs.jbase.toNat % 32) + s.jdone < v.toNat then s1.modRegs (fun r => { r with err := r.err ||| 1 })
  else if v.toNat ≤ s.regs.jdb.toNat then s1
  else (s1.modRegs (fun r => { r with jdb := v })).modPkg (fun p => { p with doorbells := p.doorbells ++ [v.toNat] })

/-- HOST_JDB (R448): the link that the write came through is not named: it is free. -/
def execHostJdb (v : DWord) (s : State) : Host.Outcome State Fault Refusal :=
  let d := s.draw
  .next (offered s (ringDoorbell d.2 (d.1 % 2) v))

/-- A ring register's new value: its size changes only where it may, to a size that rings have; a refusal is told (R447,
R450). -/
def ringWritten (old v : DWord) (idle : Bool) (least : Nat) : DWord × Bool :=
  let n := v.toNat % 32
  let base : DWord := v &&& 0x000FFFFFFFFFF000
  if n = old.toNat % 32 then (base ||| BitVec.ofNat 64 n, false)
  else if idle && (n == least || (decide (4 ≤ n) && decide (n ≤ 16))) then (base ||| BitVec.ofNat 64 n, false)
  else (base ||| BitVec.ofNat 64 (old.toNat % 32), true)

/-- A write to `HOST_JBASE` (R447). -/
def writeJbase (s : State) (v : DWord) : State :=
  let x := ringWritten s.regs.jbase v (s.regs.jdb == 0 && s.jdone == 0) 4
  s.modRegs (fun r => { r with jbase := x.1, err := if x.2 then r.err ||| 4 else r.err })

/-- A write to `HOST_FBASE` (R450). -/
def writeFbase (s : State) (v : DWord) : State :=
  let x := ringWritten s.regs.fbase v (s.regs.ftail == s.regs.fhead) 0
  s.modRegs (fun r => { r with fbase := x.1, err := if x.2 then r.err ||| 4 else r.err })

/-- HOST_JBASE (R447). -/
def execHostJbase (v : DWord) (s : State) : Host.Outcome State Fault Refusal := .next (offered s (writeJbase s v))
/-- HOST_FBASE (R450). -/
def execHostFbase (v : DWord) (s : State) : Host.Outcome State Fault Refusal := .next (offered s (writeFbase s v))

/-! ## Host windows (R446) -/

/-- The HBM address of an access through BAR2; none completes with Unsupported Request. -/
def windowAddr (s : State) (link off n : Nat) : Option Nat :=
  let w := (mapGet 0 s.regs.win (link * 16 + off / 2 ^ 36)).toNat
  let x := off % 2 ^ 36
  let a := bitsOf w 51 30 * 2 ^ 30 + x
  if 2 ≤ link ∨ 2 ^ 40 ≤ off ∨ !bitOf w 0 ∨ 2 ^ (bitsOf w 4 1 + 30) < x + n ∨ 3 * 2 ^ 40 < a + n then none else some a

/-- An access of a link that completed with Unsupported Request stands in the link's error status (R445, R446; log entry 143). -/
def unsupported (s : State) (link : Nat) : State :=
  s.modRegs (fun r => { r with aer := mapSet 0 r.aer link (mapGet 0 r.aer link ||| 0x100000) })

/-- HOST_WINDOW_ACCESS (R446): a write of bytes, or a read of a length, through a host link. What a read returns shows the host that its earlier
writes through that link have completed (R449). -/
def execHostWindowAccess (link off : Nat) (data : Option (List Byte)) (len : Nat) (s : State) : Host.Outcome State Fault Refusal :=
  .next <| match data with
  | some bs => match windowAddr s link off bs.length with
    | some a => s.addWrite ⟨a, bs, .host link, 5, none, 0, true, [], [], 0, none, []⟩ false
    | none => unsupported s link
  | none =>
    let s1 := showHost s link
    let s2 := if (windowAddr s link off len).isNone then unsupported s1 link else s1
    s2.modRegs (fun r => { r with winData := (windowAddr s link off len).map (fun a => s1.bytesAt (.host link) a len) })

/-! ## Device registers (R457) -/

/-- A value with the bits of a mask taken from a write. -/
def maskIn (mask old v : DWord) : DWord := (old &&& ~~~mask) ||| (v &&& mask)

/-- The log that ARRAY of `DIE_ERRSEL` selects, by the firmware's unit map, which the manual does not give. -/
def Die.selKey (x : Die) : Nat := logKey (Config.errUnit (x.errSel.toNat % 256)).1 (Config.errUnit (x.errSel.toNat % 256)).2

/-- The entry of the error log that `DIE_ERRSEL` names (R433, R434): 16 bytes. -/
def errEntry (x : Die) : List Byte :=
  match (mapGet [] x.logs x.selKey)[bitsOf x.errSel.toNat 15 12]? with
  | some e => leBytes 8 e.addr ++ leBytes 2 e.syndrome ++ leBytes 2 e.ctx ++ leBytes 1 e.array ++ leBytes 1 e.flags ++ leBytes 2 e.unit
  | none => List.replicate 16 0

/-- `DIE_NBQ_STATn` (R380). -/
def nbqStat (s : State) (k : Nat) (excl : BitVec 32) : DWord :=
  let x := s.stack k
  BitVec.ofNat 64 (excl.toNat * 2 ^ 16 + bit01 (!x.down.isEmpty) * 2 ^ 11 + x.queue.length)

/-- A register of a die's block, by its offset in the block. -/
def dieReg (s : State) (d off : Nat) : DWord :=
  let x := s.die d
  if off = 0x00 then x.swapCtl
  else if off = 0x08 then x.ctxfPool
  else if off = 0x10 then x.nbqCtl0
  else if off = 0x18 then x.nbqCtl1
  else if off = 0x20 then nbqStat s (2 * d) x.excl0
  else if off = 0x28 then nbqStat s (2 * d + 1) x.excl1
  else if off = 0x30 then x.faultCtl
  else if off = 0x38 then x.errSel ||| BitVec.ofNat 64 (mapGet 0 x.ovf x.selKey * 2 ^ 48)
  else if off = 0x40 then BitVec.ofNat 64 (fieldAt (errEntry x) 0 8)
  else if off = 0x48 then BitVec.ofNat 64 (fieldAt (errEntry x) 8 8)
  else if off = 0x50 then x.errInj
  else if off = 0x58 then BitVec.ofNat 64 (x.ceil * 2 ^ 8 + x.cur)
  else if off = 0x60 then BitVec.ofNat 64 (x.wdogResets * 2 ^ 48 + x.wdogKick.toNat)
  else if off = 0x68 then x.ckptBase
  else 0

/-- A device register as a read through a link returns it, by its BAR0 offset (R457). -/
def readReg (s : State) (link off : Nat) : DWord :=
  let r := s.regs
  if off < 0x80 then mapGet 0 r.win (link * 16 + off / 8)
  else if off = 0x100 then r.jbase
  else if off = 0x108 then r.jdb
  else if off = 0x110 then BitVec.ofNat 64 s.jdone
  else if off = 0x120 then r.fbase
  else if off = 0x128 then r.ftail
  else if off = 0x130 then r.fhead
  else if off = 0x140 then r.err.setWidth 64
  else if off = 0x148 then BitVec.ofNat 64 (r.stageErr * 2 ^ 8 + r.stage)
  else if 0x180 ≤ off ∧ off < 0x1A0 then mapGet 0 r.attn ((off - 0x180) / 8)
  else if off = 0x1A0 then BitVec.ofNat 64 (bit01 r.attc)
  else if 0x1000 ≤ off ∧ off < 0x2000 then BitVec.ofNat 64 (fieldAt r.attr (off - 0x1000) 8)
  else if off = 0x10000 then r.ctxTable
  else if off = 0x10008 then r.invqBase
  else if off = 0x10010 then r.invqTail.setWidth 64
  else if off = 0x10018 then r.invqDone
  else if off = 0x10020 then s.net.xcPath
  else if off = 0x10028 then s.net.xcDlim
  else if off = 0x10030 then r.plxRef
  else if off = 0x10038 then r.plxHash
  else if off = 0x10100 then
    BitVec.ofNat 64 (s.pkg.num * 2 ^ 32 + s.net.ports.toNat * 2 ^ 16 + s.net.slot * 2 ^ 8 + bit01 s.net.lock)
  else if off = 0x10108 then s.net.loss.setWidth 64
  else if off = 0x10110 then s.net.relay
  else if 0x100000 ≤ off ∧ off < 0x280000 then dieReg s ((off - 0x100000) / 2 ^ 16) (off % 2 ^ 16)
  else 0

/-- `PKG_XC_PATH` as stored: the reserved code 3 reads as 0 (R342). -/
def xcPathOf (v : DWord) : DWord :=
  BitVec.ofNat 64 (((List.range 4).map (fun c =>
    let x := bitsOf v.toNat (2 * c + 1) (2 * c)
    (if x = 3 then 0 else x) * 2 ^ (2 * c))).foldl (· + ·) 0)

/-- A firmware write to a stack controller's control register: ORD 0 is stored as 1 (R380). -/
def nbqCtlOf (v : DWord) : DWord :=
  let x := v &&& 0x1FF
  if x.toNat % 256 = 0 then x ||| 1 else x

/-- A write to a register of a die's block (R62, R380, R430, R434, R436, R438, R455, R457): the host writes three of them, the
firmware every writable one. -/
def writeDieReg (s : State) (fw : Bool) (d off : Nat) (v : DWord) : State :=
  if off = 0x00 then s.modDie d (fun x => { x with swapCtl := v &&& 0xFFFFFF })
  else if off = 0x30 then s.modDie d (fun x => { x with faultCtl := v &&& 0xF })
  else if off = 0x58 then s.modDie d (fun x => { x with ceil := bitsOf v.toNat 15 8 })
  else if !fw then s
  else if off = 0x08 then s.modDie d (fun x => { x with ctxfPool := v &&& 0xFFFFFFFFFFF00000 })
  else if off = 0x10 then s.modDie d (fun x => { x with nbqCtl0 := nbqCtlOf v })
  else if off = 0x18 then s.modDie d (fun x => { x with nbqCtl1 := nbqCtlOf v })
  else if off = 0x38 then s.modDie d (fun x => { x with errSel := v &&& 0xF0FF })
  else if off = 0x50 then armInjection s d v
  else if off = 0x60 then kickDie s d v
  else if off = 0x68 then s.modDie d (fun x => { x with ckptBase := v &&& 0xFFFE00001 })
  else s

/-- A write to a `PKG_` or `ORR_` register (R49, R68, R342, R442, R443). -/
def writePkgReg (s : State) (off : Nat) (v : DWord) : State :=
  if off = 0x10000 then s.modRegs (fun r => { r with ctxTable := v &&& 0x000FFFFFFFFFF001 })
  else if off = 0x10008 then s.modRegs (fun r => { r with invqBase := v &&& 0x000FFFFFFFFFE000 })
  else if off = 0x10010 then s.modRegs (fun r => { r with invqTail := v.setWidth 8 })
  else if off = 0x10020 then s.modNet (fun n => { n with xcPath := xcPathOf v })
  else if off = 0x10028 then s.modNet (fun n => { n with xcDlim := v &&& 0xFFFFFFFF })
  else if off = 0x10030 then s.modRegs (fun r => { r with plxRef := v &&& 0xFFFFFFFFFFFFFFE0 })
  else if off = 0x10038 then s.modRegs (fun r => { r with plxHash := v &&& 0xFC0FFFFFFFFFF001 })
  else if off = 0x10108 then s.modNet (fun n => { n with loss := n.loss &&& ~~~(v.setWidth 8) })
  else if off = 0x10110 then s.modNet (fun n => { n with relay := v &&& 0x000FFFFFC000000F })
  else s

/-- A write of the host through a link to a `HOST_` register (R446 to R454). -/
def writeHostReg (s : State) (link off : Nat) (v : DWord) : State :=
  if off < 0x80 then s.modRegs (fun r => { r with win := mapSet 0 r.win (link * 16 + off / 8) (v &&& 0x000FFFFFC000001F) })
  else if off = 0x100 then writeJbase s v
  else if off = 0x108 then ringDoorbell s link v
  else if off = 0x120 then writeFbase s v
  else if off = 0x130 then s.modRegs (fun r => { r with fhead := v })
  else if off = 0x140 then s.modRegs (fun r => { r with err := r.err &&& ~~~(v.setWidth 4) })
  else if 0x180 ≤ off ∧ off < 0x1A0 then s.modRegs (fun r => { r with attn := mapSet 0 r.attn ((off - 0x180) / 8) v })
  else if off = 0x1A0 then requestReport s v
  else s

/-- Registers in which a written 1 clears (R342, R448): a half that is not written counts as 0. -/
def isW1c (off : Nat) : Bool := off == 0x140 || off == 0x10108

/-- The status registers of BAR0, which are there before stage 2 (R451; log entry 112). -/
def isStatus (off : Nat) : Bool := off == 0x110 || off == 0x128 || off == 0x140 || off == 0x148 || off == 0x10100 || off == 0x10108

/-- The 64-bit value that an access writes: a 4-byte write changes only its half (R457). -/
def writtenValue (old v : DWord) (off size : Nat) : DWord :=
  if size = 8 then v
  else if off % 8 = 0 then maskIn 0x00000000FFFFFFFF old v
  else maskIn 0xFFFFFFFF00000000 old (v <<< 32)

/-- A write of a value to the register at an offset, by the agent that may reach it (R457). -/
def storeReg (s : State) (who : RegAgent) (r : Nat) (x : DWord) : State :=
  match who with
  | .host l =>
    if 2 ≤ l then s
    else if r < 0x10000 then writeHostReg s l r x
    else if r < 0x100000 then writePkgReg s r x
    else if r < 0x280000 then writeDieReg s false ((r - 0x100000) / 2 ^ 16) (r % 2 ^ 16) x
    else s
  | .firmware d =>
    if 24 ≤ d ∨ r < 0x10000 then s
    else if r < 0x100000 then writePkgReg s r x
    else if r < 0x280000 then writeDieReg s true ((r - 0x100000) / 2 ^ 16) (r % 2 ^ 16) x
    else s
  | _ => s

/-- The link through which an agent reaches the registers. -/
def agentLink (who : RegAgent) : Nat := match who with | .host l => l | .hostRead l => l | .time l => l | .errors l => l | _ => 0

/-- The bytes that a read of 4 or 8 bytes returns (R457). -/
def readHalf (x : DWord) (off size : Nat) : DWord :=
  if size = 8 then x else if off % 8 = 0 then x &&& 0xFFFFFFFF else x >>> 32

/-- A read of a register by an agent that may reach it (R457); through a link it comes behind the host's writes through it (R449). -/
def loadReg (s : State) (who : RegAgent) (off size : Nat) : State :=
  let r := off / 8 * 8
  let x := if s.regs.stage < 2 ∧ isStatus r = false then 0 else readHalf (readReg s (agentLink who) r) off size
  match who with
  | .hostRead l => if 2 ≤ l then s else (showHost s l).modRegs (fun g => { g with regData := x })
  | .firmwareRead d => if 24 ≤ d ∨ r < 0x10000 then s else s.modRegs (fun g => { g with regData := x })
  | _ => s

/-- What a half write to `HOST_ATTC` leaves out: the upper half holds no bit that acts (R457). -/
def noEffect (off size : Nat) : Bool := off == 0x1A4 && size == 4

/-- REGISTER_WRITE (R457): an aligned access of 4 or 8 bytes by the host through a link, or by the firmware of a die: a write stores the
writable fields of the register at its offset, a read returns it. Beside it, what a link's Precision Time Measurement and error reporting do (R445). -/
def execRegisterWrite (who : RegAgent) (off size : Nat) (v : DWord) (s : State) : Host.Outcome State Fault Refusal :=
  let r := off / 8 * 8
  let x := writtenValue (if isW1c r then 0 else readReg s (agentLink who) r) v off size
  .next <| match who with
    | .time l => if 2 ≤ l then s else { s with time := v.toNat }
    | .errors l => if 2 ≤ l then s else s.modRegs (fun g => { g with aer := mapSet 0 g.aer l (mapGet 0 g.aer l &&& ~~~(v.setWidth 32)) })
    | who =>
      if (size ≠ 4 ∧ size ≠ 8) ∨ off % size ≠ 0 then s
      else match who with
      | .hostRead _ => loadReg s who off size
      | .firmwareRead _ => loadReg s who off size
      | _ => if noEffect off size || (decide (s.regs.stage < 2) && !isStatus r) then s else storeReg s who r x

end Sys2Proof.Machine
end

