-- ==== Sys2Proof/Machine/Invq.lean ====
section
/-! DEFINITION. Machine/Invq.lean: the invalidate queue of the package: invalidation of cached translations, and the waking
of accesses held by `NOTPRESENT` (R56, R61, R66 to R68). -/

namespace Sys2Proof.Machine

/-- A command of the queue (R66). -/
structure InvCmd where
  op : Nat
  hint : Nat
  ctx : Nat
  firstId : Nat
  lastId : Nat
  firstPage : Nat
  lastPage : Nat
deriving DecidableEq, Repr, Inhabited

def parseInv (bs : List Byte) : InvCmd :=
  let f := fieldAt bs
  ⟨f 0 1, f 1 1, f 2 2, f 4 2, f 6 2, f 8 4, f 0x0C 4⟩

/-- Address of the entry that executes next; none where the driver has submitted no further command. -/
def invEntry (s : State) : Option Nat :=
  let i := s.regs.invqDone.toNat % 256
  if s.regs.invqTail.toNat = i then none else some (bitsOf s.regs.invqBase.toNat 51 13 * 2 ^ 13 + 32 * i)

/-- The command that executes next. -/
def invNext (s : State) : Option InvCmd := (invEntry s).map (fun a => parseInv (s.homeBytes a 32))

/-- A reserved opcode or hint, or a first value above its last (R67). -/
def InvCmd.malformed (c : InvCmd) : Bool :=
  !(c.op == 1 || c.op == 2) || (c.op == 1 && decide (2 < c.hint)) || decide (c.lastId < c.firstId) || decide (c.lastPage < c.firstPage)

/-- Writes the status of the command and counts it (R67). -/
def invDone (s : State) (status : Nat) : State :=
  match invEntry s with
  | none => s
  | some a => (s.put (a + 0x18) (leBytes 1 status)).modRegs (fun r => { r with invqDone := r.invqDone + 1 })

/-- Whether a command names a tensor of a context. -/
def InvCmd.tensor (c : InvCmd) (ctx id : Nat) : Bool :=
  ctx == c.ctx && (c.hint == 2 || (decide (c.firstId ≤ id) && decide (id ≤ c.lastId)))

/-- Whether a command names a page of a tensor. -/
def InvCmd.page (c : InvCmd) (ctx id page : Nat) : Bool :=
  c.tensor ctx id && (c.hint == 2 || (decide (c.firstPage ≤ page) && decide (page ≤ c.lastPage)))

/-- Whether an `INVALIDATE` covers any page or the descriptor of a pinned tensor that an unfinished launch binds, as it was validated
(R56). -/
def invBusy (s : State) (c : InvCmd) : Bool :=
  s.pkg.launches.any (fun e => e.2.any (fun l => l.stat != .completed && l.stat != .aborted && l.stat != .validating &&
    (s.lext e.1).pinned.any (fun d => c.tensor l.ctx d.1 && (c.hint != 0 || decide (c.firstPage < d.2)))))

/-- The bytes of a cached page: first address and length. -/
def cachedFrame (s : State) (key : Nat) (e : DWord) : Nat × Nat :=
  let n := match descOf s (key / 2 ^ 48) (key / 2 ^ 32 % 2 ^ 16) with | some d => pageBytes d.pg | none => 2 ^ 25
  (frameByte e.toNat 0 n, n)

/-- Whether a staged operation at this package was translated with a copy that the command drops (R67). -/
def stagedUnder (s : State) (c : InvCmd) : Bool :=
  s.net.stagings.any (fun g => g.ops.any (fun o =>
    let ps := match descOf s o.ctx o.tensor with | some d => pageBytes d.pg | none => 2 ^ 16
    c.tensor o.ctx o.tensor && (c.hint != 0 || (List.range ((o.off + o.data.length - 1) / ps + 1 - o.off / ps)).any (fun i => c.page o.ctx o.tensor (o.off / ps + i)))))

/-- Cached page entries through which an access can have been made that used a copy which the command drops: those of its page range, or
every one of a descriptor in its range. -/
def goneEntries (s : State) (c : InvCmd) : List (Nat × DWord) :=
  s.pkg.pteCache.filter (fun e =>
    let ctx := e.1 / 2 ^ 48
    let id := e.1 / 2 ^ 32 % 2 ^ 16
    if c.hint = 0 then c.page ctx id (e.1 % 2 ^ 32) else c.tensor ctx id)

/-- Whether a queued infuser command was translated with a copy that the command drops (R67). -/
def queuedUnder (s : State) (c : InvCmd) : Bool :=
  let frames := (goneEntries s c).map (fun e => cachedFrame s e.1 e.2)
  let uses (a : Nat) : Bool := frames.any (fun f => decide (f.1 ≤ a) && decide (a < f.1 + f.2))
  s.hbm.any (fun k => k.2.queue.any (fun p => uses p.cmd.kFrame || uses p.cmd.vFrame))

/-- Drops the copies in the range; the writes made with them become visible to every observer (R68). -/
def dropCopies (s : State) (c : InvCmd) : State :=
  let frames := (goneEntries s c).map (fun e => cachedFrame s e.1 e.2)
  let s1 := s.perform (fun w => frames.any (fun f => w.touches f.1 f.2)) .all
  s1.modPkg (fun p => { p with
    pteCache := mapKeep p.pteCache (fun k => !c.page (k / 2 ^ 48) (k / 2 ^ 32 % 2 ^ 16) (k % 2 ^ 32))
    descCache := if c.hint = 0 then p.descCache else mapKeep p.descCache (fun k => !c.tensor (k / 2 ^ 16) (k % 2 ^ 16)) })

/-- INVALIDATE (R56, R67, R68): cached descriptors and page entries in a range are dropped; refused while a launch that binds
a pinned tensor of the range runs; it waits while staged bytes or queued infuser commands translated with a dropped copy are still to be
performed. -/
def execInvalidate (s : State) : Host.Outcome State Fault Refusal :=
  .next <| match invNext s with
  | none => s
  | some c =>
    if c.op ≠ 1 ∨ c.malformed = true then s
    else if invBusy s c then invDone s 0x07
    else if stagedUnder s c || queuedUnder s c then s
    else invDone (dropCopies s c) 0x01

/-! ## Waking (R61, R64) -/

/-- Whether a `READY` covers a held access (R61). -/
def InvCmd.wakes (c : InvCmd) (h : Option Held) : Bool :=
  match h with
  | some h => h.ctx == c.ctx && decide (c.firstId ≤ h.tensor) && decide (h.tensor ≤ c.lastId) && decide (c.firstPage ≤ h.page) &&
      decide (h.page ≤ c.lastPage)
  | none => false

/-- What a `READY` does to a held access of a task on its tile: it is tried again at once; of a task that is away, when it is next bound. -/
def InvCmd.wake (c : InvCmd) (here : Bool) (h : Option Held) : Option Held :=
  if c.wakes h then (if here then none else h.map (fun h => { h with ready := true })) else h

/-- A held core tries its instruction again. -/
def wakeCore (c : InvCmd) (here : Bool) (k : Core) : Core :=
  { k with held := c.wake here k.held, stat := if here && c.wakes k.held && k.stat == .held then .run else k.stat }

/-- A held port issues again. -/
def wakeFabric (c : InvCmd) (here : Bool) (f : Fabric) : Fabric :=
  { f with ports := f.ports.map (fun p => (p.1, { p.2 with held := c.wake here p.2.held })) }

/-- Whether a saved context holds an access that the command covers. -/
def wakesContext (c : InvCmd) (x : Context) : Bool :=
  x.cores.any (fun k => c.wakes k.held) || x.fabric.ports.any (fun p => c.wakes p.2.held)

/-- A saved task becomes READY (R64): its held accesses are tried again when it is next bound. -/
def wakeTask (c : InvCmd) (copies : List Copy) (readyAt slot : Nat) (k : Task) : Task :=
  match k.saved with
  | none => k
  | some x =>
    if !(wakesContext c x || copies.any (fun y => y.slot == slot && c.wakes y.held)) then k
    else
      let y : Context := { x with cores := x.cores.map (wakeCore c false), fabric := wakeFabric c false x.fabric }
      if k.stat = .saved then { k with saved := some y, stat := .ready, readyAt := readyAt, aged := 0 } else { k with saved := some y }

/-- A task that has ceased to be held has been held for no cycle (R62). -/
def Tile.unhold (v : Tile) : Tile :=
  match v.resident with
  | some sl => if v.taskHeld then v else { v with exts := mapSet TaskExt.zero v.exts sl { v.ext sl with heldFor := 0 } }
  | none => v

/-- Wakes what is held on one tile (R60, R61, R63, R64). -/
def wakeTile (c : InvCmd) (stamp : Nat) (v : Tile) : Tile :=
  Tile.unhold { v with
    ctl := wakeCore c true v.ctl
    ldr := wakeCore c true v.ldr
    sto := wakeCore c true v.sto
    fabric := wakeFabric c true v.fabric
    copies := v.copies.map (fun y => { y with held := c.wake false y.held })
    tasks := v.tasks.map (fun k => (k.1, k.2.map (wakeTask c v.copies stamp k.1)))
    exts := v.exts.map (fun e => (e.1, { e.2 with cmds := e.2.cmds.map (fun y => { y with held := c.wake true y.held }) })) }

/-- Wakes every access of the package that a `READY` covers. -/
def wakeAll (s : State) (c : InvCmd) : State :=
  { s with
    stamp := s.stamp + 1
    tiles := s.tiles.map (fun v => (v.1, wakeTile c s.stamp v.2))
    hbm := s.hbm.map (fun k => (k.1, { k.2 with queue := k.2.queue.map (fun p => if c.wakes p.held then { p with held := none } else p) }))
    pkg := { s.pkg with launches := s.pkg.launches.map (fun e => (e.1, e.2.map (fun l =>
      { l with actors := l.actors.map (fun a => (a.1, if c.wakes a.2.held then { a.2 with held := none } else a.2)) }))) } }

/-- The gets whose local write a `READY` covers: tile, slot, command. -/
def wokenGets (s : State) (c : InvCmd) : List (Nat × Nat × XcCmd) :=
  (s.tiles.map (fun v => (v.2.exts.map (fun e => (e.2.cmds.filter (fun y => c.wakes y.held)).map (fun y =>
    (v.1, e.1, { y with held := none })))).flatten)).flatten

/-- READY (R61, R64, R67): accesses held in the range are tried again; nothing is dropped. -/
def execReady (s : State) : Host.Outcome State Fault Refusal :=
  .next <| match invNext s with
  | none => s
  | some c => if c.op ≠ 2 ∨ c.malformed = true then s
    else invDone ((wokenGets s c).foldl (fun s g => getProgress s g.1 g.2.1 g.2.2) (wakeAll s c)) 0x01

/-- INVQ_MALFORMED_COMMAND (R67): status 0x0F and no other effect. -/
def execInvqMalformedCommand (s : State) : Host.Outcome State Fault Refusal :=
  .next <| match invNext s with
  | none => s
  | some c => if c.malformed then invDone s 0x0F else s

end Sys2Proof.Machine
end

