-- ==== Sys2Proof/Machine/Sync.lean ====
section
/-! DEFINITION. Machine/Sync.lean: atomics (R263 to R265), locks and bindings (R266 to R268), fences (R269, R270), steeping
state (R282), the tag table (R233, R234) and apertures (R235, R236). -/

namespace Sys2Proof.Machine

/-! ## Atomics -/

/-- `am.OP.s` (R263): one indivisible read and write at the word's home, the write strong within the scope. -/
def atomicAct (op : Nat → Nat → Nat) (rd ra rb : Reg) (scope : BitVec 3) (s : State) : Act :=
  if 5 ≤ scope.toNat then .illegal s
  else
    let a := s.rn ra
    let f := atomicFind s a
    match f.2 with
    | .error tr => atomicFail f.1 tr
    | .ok pa =>
      let old := f.1.homeNat pa 8
      .retN (foldAtomic (strongStore f.1 pa scope.toNat (op old (s.rn rb))) a (s.rn rb)) rd old

/-- Signed order of two 64-bit words. -/
def slt64 (x y : Nat) : Bool := sext 64 x < sext 64 y

/-- AM_ADD (R263). -/
def execAmAdd (d a b : Reg) (sc : BitVec 3) (s : State) : Host.Outcome State Fault Refusal :=
  perform (atomicAct (fun old x => (old + x) % 2 ^ 64) d a b sc s)
/-- AM_MIN (R263). -/
def execAmMin (d a b : Reg) (sc : BitVec 3) (s : State) : Host.Outcome State Fault Refusal :=
  perform (atomicAct (fun old x => if slt64 x old then x else old) d a b sc s)
/-- AM_MAX (R263). -/
def execAmMax (d a b : Reg) (sc : BitVec 3) (s : State) : Host.Outcome State Fault Refusal :=
  perform (atomicAct (fun old x => if slt64 old x then x else old) d a b sc s)
/-- AM_AND (R263). -/
def execAmAnd (d a b : Reg) (sc : BitVec 3) (s : State) : Host.Outcome State Fault Refusal :=
  perform (atomicAct (fun old x => old &&& x) d a b sc s)
/-- AM_OR (R263). -/
def execAmOr (d a b : Reg) (sc : BitVec 3) (s : State) : Host.Outcome State Fault Refusal :=
  perform (atomicAct (fun old x => old ||| x) d a b sc s)
/-- AM_XCHG (R263). -/
def execAmXchg (d a b : Reg) (sc : BitVec 3) (s : State) : Host.Outcome State Fault Refusal :=
  perform (atomicAct (fun _ x => x) d a b sc s)
/-- AM_CAS (R263): rd holds the expected value on entry. -/
def execAmCas (d a b : Reg) (sc : BitVec 3) (s : State) : Host.Outcome State Fault Refusal :=
  perform (atomicAct (fun old x => if old = s.rn d then x else old) d a b sc s)

/-! ## Bindings and locks -/

/-- The binding of a descriptor's 32 bytes (R266). -/
def parseBinding (bs : List Byte) : Binding :=
  ⟨BitVec.ofNat 64 (fieldAt bs 0 8), fieldAt bs 8 8, fieldAt bs 0x10 1, fieldAt bs 0x11 1, BitVec.ofNat 64 (fieldAt bs 0x18 8)⟩

/-- Lowest bit of the first field of a binding descriptor outside its values (R266); the region base is for R47. -/
def bindingFail (bs : List Byte) : Option Nat :=
  let b := parseBinding bs
  firstFail [(64, decide (b.len ≤ 2 ^ 47)), (128, decide (b.kind ≤ 3)),
    (136, decide (b.scope ≤ 4)), (144, fieldAt bs 0x12 6 == 0),
    (192, b.kind != 3 || (bitsOf b.obj.toNat 63 48 == 0 && bitsOf b.obj.toNat 7 6 == 0))]

/-- SY_BIND (R266): writes a binding slot; a length of 0 clears it. A region base of no aperture raises `APERTURE` (R47, R195). -/
def execSyBind (a b : Reg) (s : State) : Host.Outcome State Fault Refusal :=
  perform <|
    if 16 ≤ s.rn a then .illegal s
    else match readSpad s (s.rn b) 32 8 with
    | .error tr => .trap tr s
    | .ok bs =>
      match bindingFail bs with
      | some bit => .trap (tCfgDesc bit (s.rn b)) s
      | none =>
        let x := parseBinding bs
        if (gaddr x.base.toNat).isNone then .trap (trapAperture x.base.toNat kSCALAR .read) s
        else if x.kind = 0 ∧ x.obj.toNat % 8 ≠ 0 then .align s x.obj.toNat 8
        else .done (s.modExt s.ft s.fslot (fun e =>
          { e with binds := mapSet Binding.zero e.binds (s.rn a) (if x.len = 0 then Binding.zero else x) }))

/-- The word that marks a lock as held by the focused core's task (R268). -/
def lockOwner (s : State) : Nat := (s.taskLidx s.ft s.fslot + 1) % 2 ^ 64

/-- A read at the home shows the focused core every write that it passes: no later load of those bytes returns an older one (R384). -/
def homeSeen (s : State) (a n : Nat) : State :=
  s.perform (fun w => w.touches a n) (.one (.tile s.ft s.fc))

/-- SY_ACQ (R268): tries once to take the lock of a binding slot; a cleared slot holds no lock (log entry 11). -/
def execSyAcq (d a : Reg) (s : State) : Host.Outcome State Fault Refusal :=
  perform <|
    if 16 ≤ s.rn a then .illegal s
    else
      let b := mapGet Binding.zero (s.ext s.ft s.fslot).binds (s.rn a)
      if b.kind ≠ 0 ∨ b.len = 0 then .resource s
      else
        let f := atomicFind s b.obj.toNat
        match f.2 with
        | .error tr => atomicFail f.1 tr
        | .ok pa =>
          let old := f.1.homeNat pa 8
          if old = 0 then
            let s1 := foldAtomic (strongStoreNow f.1 pa b.scope (lockOwner s)) b.obj.toNat (lockOwner s)
            .ret (acquire s1 s.ft s.fslot (lockKey pa)) d 0
          else .retN (homeSeen f.1 pa 8) d old

/-- SY_REL (R268): releases the lock that the task holds, then stores 0 to its word as a strong store. -/
def execSyRel (a : Reg) (s : State) : Host.Outcome State Fault Refusal :=
  perform <|
    if 16 ≤ s.rn a then .illegal s
    else
      let b := mapGet Binding.zero (s.ext s.ft s.fslot).binds (s.rn a)
      if b.kind ≠ 0 ∨ b.len = 0 then .resource s
      else
        let f := atomicFind s b.obj.toNat
        match f.2 with
        | .error tr => atomicFail f.1 tr
        | .ok pa =>
          if f.1.homeNat pa 8 ≠ lockOwner s then .resource f.1
          else
            let s1 := release f.1 s.ft s.fslot (lockKey pa)
            let s2 := strongStoreNow s1 pa b.scope 0
            .done (s2.foldShared s.who b.obj.toNat (leBytes 8 0))

/-! ## Fences -/

/-- SY_FENCE (R269). -/
def execSyFence (sc : BitVec 3) (s : State) : Host.Outcome State Fault Refusal :=
  perform <| if 5 ≤ sc.toNat then .illegal s else .done (fenceScalar s sc.toNat)

/-- PF_FENCE (R270). -/
def execPfFence (x y : BitVec 5) (s : State) : Host.Outcome State Fault Refusal :=
  perform <| if 6 ≤ x.toNat ∨ 6 ≤ y.toNat then .illegal s else .done (fencePaths s x.toNat y.toNat)

/-- The o-th observer of a numbering: tile units first (22 a tile), then stacks, copy engines and host links; then every observer of the module,
the cores' loads as they may still lag (R385); beyond, every read. -/
def observerNo (o : Nat) : Reach :=
  if o < 22 * 12288 then .one (.tile (o / 22) (o % 22))
  else if o < 22 * 12288 + 48 then .one (.stack (o - 22 * 12288))
  else if o < 22 * 12288 + 64 then .one (.engine (o - 22 * 12288 - 48))
  else if o < 22 * 12288 + 66 then .one (.host (o - 22 * 12288 - 64))
  else if o = 22 * 12288 + 66 then .scope 0 3
  else .all

/-- Whether only single bytes of a write are single-copy atomic (R384), so that a part of it may be performed first. A memory actor's row stays
whole: few of its rows may be seen partly written (R19; log entry 31). -/
def PWrite.divisible (w : PWrite) : Bool := w.cls != kSCALAR && w.task.all (fun k => decide (k.2 < 8)) && decide (1 < w.bytes.length)

/-- WRITE_PERFORMED (R386): the i-th pending write becomes performed with respect to the o-th observer; of a divisible one which part, up to a
free byte or from it on, is free. -/
def execWritePerformed (i o : Nat) (s : State) : Host.Outcome State Fault Refusal :=
  .next <| match s.writes[i]? with
  | none => s
  | some w =>
    if !w.divisible then s.perform (fun x => x.seq == w.seq && x.addr == w.addr) (observerNo o)
    else
      let n := w.bytes.length
      let k := s.draw.1 % (2 * n)
      let a := w.addr + k % n
      (s.draw.2.cutAt [(a, 0)]).perform (fun x => x.seq == w.seq && w.covers x.addr && (k % n == 0 || decide (x.addr < a) == decide (k < n)))
        (observerNo o)

/-! ## Steeping state (R282) -/

/-- ST_KEY (R282). -/
def execStKey (a b : Reg) (s : State) : Host.Outcome State Fault Refusal :=
  perform <| ctlOnly s <|
    if 2 ^ 32 ≤ s.rn b then .illegal s
    else .done (s.modExt s.ft s.fslot (fun e => { e with steep := { e.steep with key := s.rn a, stream := s.rn b } }))

/-- ST_MEMBER (R282). -/
def execStMember (a b : Reg) (s : State) : Host.Outcome State Fault Refusal :=
  perform <| ctlOnly s <|
    if 2 ^ 16 ≤ s.rn a ∨ 2 ^ 48 ≤ s.rn b then .illegal s
    else .done (s.modExt s.ft s.fslot (fun e => { e with steep := { e.steep with member := s.rn a, base := s.rn b } }))

/-! ## The tag table (R233, R234) -/

/-- The task's tag range: base and size. -/
def State.tagRange (s : State) : Nat × Nat :=
  match s.task s.ft s.fslot with
  | some k => (k.tbase, k.tsize)
  | none => (0, 0)

/-- Entry of the task's range by relative index. -/
def State.tag (s : State) (i : Nat) : TagEntry := mapGet TagEntry.invalid (s.tile s.ft).tags (s.tagRange.1 + i)
def State.setTag (s : State) (i : Nat) (e : TagEntry) : State :=
  s.modTile s.ft (fun v => { v with tags := mapSet TagEntry.invalid v.tags (s.tagRange.1 + i) e })

/-- Lowest index of the range whose entry passes a test. -/
def State.findTag (s : State) (p : TagEntry → Bool) : Option Nat := (List.range s.tagRange.2).find? (fun i => p (s.tag i))
def State.tagHit (s : State) (key : DWord) : Option Nat := s.findTag (fun e => e.valid && e.key == key)

def allOnes : DWord := BitVec.allOnes 64

/-- TG_LOOK (R234). -/
def execTgLook (d a : Reg) (s : State) : Host.Outcome State Fault Refusal :=
  perform <| match s.tagHit (s.rx a) with
  | none => .ret s d allOnes
  | some i =>
    let w := (s.tag i).slot.toNat
    .retN s d (bitsOf w 20 0 + i * 2 ^ 21 + bitsOf w 27 24 * 2 ^ 32)

/-- Size in bytes of the slot of a slot word. -/
def slotBytes (w : Nat) : Nat := 2 ^ (8 + bitsOf w 27 24)

/-- TG_INS (R234). -/
def execTgIns (d a b : Reg) (s : State) : Host.Outcome State Fault Refusal :=
  let w := s.rn b
  perform <|
    if bitsOf w 63 28 ≠ 0 ∨ bitsOf w 23 21 ≠ 0 ∨ 8 < bitsOf w 27 24 then .illegal s
    else if bitsOf w 20 0 % slotBytes w ≠ 0 then .align s (bitsOf w 20 0) (slotBytes w)
    else if 2 ^ 21 < bitsOf w 20 0 + slotBytes w then .trap (trapAperture (bitsOf w 20 0) kSCALAR .write) s
    else match s.tagHit (s.rx a) with
    | some i => .retN (s.setTag i ⟨true, s.rx a, s.rx b⟩) d i
    | none => match s.findTag (fun e => !e.valid) with
      | some i => .retN (s.setTag i ⟨true, s.rx a, s.rx b⟩) d i
      | none => .ret s d allOnes

/-- TG_INV (R234). -/
def execTgInv (a : Reg) (s : State) : Host.Outcome State Fault Refusal :=
  perform <| match s.tagHit (s.rx a) with
  | some i => .done (s.setTag i { s.tag i with valid := false })
  | none => .done s

/-- TG_SLOT (R234). Beyond the task's range its record carries rs1 (log entry 160). -/
def execTgSlot (d a : Reg) (s : State) : Host.Outcome State Fault Refusal :=
  let x := s.rn a
  let i := bitsOf x 9 0
  perform <|
    if bitsOf x 62 10 ≠ 0 then .illegal s
    else if s.tagRange.2 ≤ i then .trap (trapAperture x kSCALAR .read) s
    else if bitOf x 63 then .ret s d (if (s.tag i).valid then (s.tag i).key else 0)
    else .ret s d ((s.tag i).slot ||| (if (s.tag i).valid then (0x8000000000000000 : DWord) else 0))

/-! ## Apertures (R235, R236) -/

/-- CLUSTER form of a scratchpad byte (R47). -/
def clusterAddr (tile off : Nat) : Nat := 2 ^ 60 + tile * 2 ^ 21 + off

/-- GA_CVT (R235). -/
def execGaCvt (d a : Reg) (s : State) : Host.Outcome State Fault Refusal :=
  perform <| match gaddr (s.rn a) with
  | some (.loc off) => .retN s d (clusterAddr (s.ft % 32) off)
  | some (.cluster c off) => if c = s.ft % 32 then .retN s d off else .ret s d (s.rx a)
  | some (.shared _ _) => .ret s d (s.rx a)
  | none => .ret s d allOnes

/-- Whether an address belongs to a class of R236. -/
def gaClass (s : State) (x code : Nat) : Bool :=
  match gaddr x with
  | none => false
  | some (.loc _) => code == 0 || code == 3
  | some (.cluster c _) => code == 1 || (code == 3 && c == s.ft % 32) || (code == 4 && c != s.ft % 32)
  | some (.shared id off) =>
    code == 2 && (match descOf s (s.taskCtx s.ft s.fslot) id with | some dd => decide (off < dd.span) | none => false)

/-- GA_TEST (R236). -/
def execGaTest (d a b : Reg) (s : State) : Host.Outcome State Fault Refusal :=
  perform <| if 5 ≤ s.rn b then .illegal s else .ret s d (boolW (gaClass s (s.rn a) (s.rn b)))

end Sys2Proof.Machine
end

