-- ==== Sys2Proof/Machine/Dispatch.lean ====
section
/-! DEFINITION. Machine/Dispatch.lean: the meaning of every instruction and unit step, one arm each. -/

namespace Sys2Proof.Machine

/-- Executes one instruction or unit step. -/
def exec (i : Instr) (s : State) : Host.Outcome State Fault Refusal :=
  match i with
  | .ioCfg x1 x2 => Sys2Proof.Machine.execIoCfg x1 x2 s
  | .ioArm x1 => Sys2Proof.Machine.execIoArm x1 s
  | .ioHalt x1 => Sys2Proof.Machine.execIoHalt x1 s
  | .ioStat x1 x2 => Sys2Proof.Machine.execIoStat x1 x2 s
  | .rwOpen x1 x2 x3 => Sys2Proof.Machine.execRwOpen x1 x2 x3 s
  | .rwPush x1 x2 => Sys2Proof.Machine.execRwPush x1 x2 s
  | .rwPop x1 x2 => Sys2Proof.Machine.execRwPop x1 x2 s
  | .rwWait x1 x2 x3 => Sys2Proof.Machine.execRwWait x1 x2 x3 s
  | .rwStat x1 x2 => Sys2Proof.Machine.execRwStat x1 x2 s
  | .rwLap x1 x2 => Sys2Proof.Machine.execRwLap x1 x2 s
  | .tcCopy x1 x2 x3 => Sys2Proof.Machine.execTcCopy x1 x2 x3 s
  | .tcCopy2 x1 x2 x3 => Sys2Proof.Machine.execTcCopy2 x1 x2 x3 s
  | .tcWait x1 x2 => Sys2Proof.Machine.execTcWait x1 x2 s
  | .tcStat x1 x2 => Sys2Proof.Machine.execTcStat x1 x2 s
  | .tgLook x1 x2 => Sys2Proof.Machine.execTgLook x1 x2 s
  | .tgIns x1 x2 x3 => Sys2Proof.Machine.execTgIns x1 x2 x3 s
  | .tgInv x1 => Sys2Proof.Machine.execTgInv x1 s
  | .tgSlot x1 x2 => Sys2Proof.Machine.execTgSlot x1 x2 s
  | .gaCvt x1 x2 => Sys2Proof.Machine.execGaCvt x1 x2 s
  | .gaTest x1 x2 x3 => Sys2Proof.Machine.execGaTest x1 x2 x3 s
  | .fuNew x1 => Sys2Proof.Machine.execFuNew x1 s
  | .fuSet x1 x2 => Sys2Proof.Machine.execFuSet x1 x2 s
  | .fuGet x1 x2 => Sys2Proof.Machine.execFuGet x1 x2 s
  | .fuWait x1 x2 x3 => Sys2Proof.Machine.execFuWait x1 x2 x3 s
  | .fuThen x1 x2 => Sys2Proof.Machine.execFuThen x1 x2 s
  | .fuDrop x1 => Sys2Proof.Machine.execFuDrop x1 s
  | .grArrive x1 => Sys2Proof.Machine.execGrArrive x1 s
  | .grWait x1 x2 x3 => Sys2Proof.Machine.execGrWait x1 x2 x3 s
  | .grBar x1 x2 x3 => Sys2Proof.Machine.execGrBar x1 x2 x3 s
  | .grCast x1 x2 => Sys2Proof.Machine.execGrCast x1 x2 s
  | .evPop x1 x2 => Sys2Proof.Machine.execEvPop x1 x2 s
  | .evPeek x1 x2 => Sys2Proof.Machine.execEvPeek x1 x2 s
  | .evWait x1 x2 x3 => Sys2Proof.Machine.execEvWait x1 x2 x3 s
  | .syAcq x1 x2 => Sys2Proof.Machine.execSyAcq x1 x2 s
  | .syRel x1 => Sys2Proof.Machine.execSyRel x1 s
  | .syBind x1 x2 => Sys2Proof.Machine.execSyBind x1 x2 s
  | .syFence x1 => Sys2Proof.Machine.execSyFence x1 s
  | .pfFence x1 x2 => Sys2Proof.Machine.execPfFence x1 x2 s
  | .amAdd x1 x2 x3 x4 => Sys2Proof.Machine.execAmAdd x1 x2 x3 x4 s
  | .amMin x1 x2 x3 x4 => Sys2Proof.Machine.execAmMin x1 x2 x3 x4 s
  | .amMax x1 x2 x3 x4 => Sys2Proof.Machine.execAmMax x1 x2 x3 x4 s
  | .amAnd x1 x2 x3 x4 => Sys2Proof.Machine.execAmAnd x1 x2 x3 x4 s
  | .amOr x1 x2 x3 x4 => Sys2Proof.Machine.execAmOr x1 x2 x3 x4 s
  | .amXchg x1 x2 x3 x4 => Sys2Proof.Machine.execAmXchg x1 x2 x3 x4 s
  | .amCas x1 x2 x3 x4 => Sys2Proof.Machine.execAmCas x1 x2 x3 x4 s
  | .xcGet x1 x2 x3 => Sys2Proof.Machine.execXcGet x1 x2 x3 s
  | .xcPut x1 x2 x3 => Sys2Proof.Machine.execXcPut x1 x2 x3 s
  | .xcRed x1 x2 x3 => Sys2Proof.Machine.execXcRed x1 x2 x3 s
  | .xcSig x1 x2 x3 => Sys2Proof.Machine.execXcSig x1 x2 x3 s
  | .xcBegin x1 => Sys2Proof.Machine.execXcBegin x1 s
  | .xcCommit x1 => Sys2Proof.Machine.execXcCommit x1 s
  | .xcFrame x1 x2 x3 => Sys2Proof.Machine.execXcFrame x1 x2 x3 s
  | .nbQuery x1 x2 x3 => Sys2Proof.Machine.execNbQuery x1 x2 x3 s
  | .nbAppend x1 x2 x3 => Sys2Proof.Machine.execNbAppend x1 x2 x3 s
  | .nbFence x1 => Sys2Proof.Machine.execNbFence x1 s
  | .stKey x1 x2 => Sys2Proof.Machine.execStKey x1 x2 s
  | .stMember x1 x2 => Sys2Proof.Machine.execStMember x1 x2 s
  | .fbLoad x1 x2 => Sys2Proof.Machine.execFbLoad x1 x2 s
  | .fbSwap x1 => Sys2Proof.Machine.execFbSwap x1 s
  | .fbRun x1 => Sys2Proof.Machine.execFbRun x1 s
  | .fbStop => Sys2Proof.Machine.execFbStop s
  | .fbTok x1 x2 => Sys2Proof.Machine.execFbTok x1 x2 s
  | .fbSink x1 x2 => Sys2Proof.Machine.execFbSink x1 x2 s
  | .mxIssue x1 => Sys2Proof.Machine.execMxIssue x1 s
  | .mxWait x1 x2 => Sys2Proof.Machine.execMxWait x1 x2 s
  | .ckTake x1 => Sys2Proof.Machine.execCkTake x1 s
  | .ckDigest x1 x2 => Sys2Proof.Machine.execCkDigest x1 x2 s
  | .bkSel x1 x2 x3 => Sys2Proof.Machine.execBkSel x1 x2 x3 s
  | .sysYield => Sys2Proof.Machine.execSysYield s
  | .sysEnd => Sys2Proof.Machine.execSysEnd s
  | .sysSpawn x1 x2 x3 => Sys2Proof.Machine.execSysSpawn x1 x2 x3 s
  | .sysBrk => Sys2Proof.Machine.execSysBrk s
  | .sysTrap x1 => Sys2Proof.Machine.execSysTrap x1 s
  | .sysEret => Sys2Proof.Machine.execSysEret s
  | .ebreak => Sys2Proof.Machine.execEbreak s
  | .ecall x1 => Sys2Proof.Machine.execEcall x1 s
  | .fence x1 => Sys2Proof.Machine.execFence x1 s
  | .csrAccess x1 x2 x3 x4 => Sys2Proof.Machine.execCsrAccess x1 x2 x3 x4 s
  | .scalarLoad x1 x2 x3 x4 => Sys2Proof.Machine.execScalarLoad x1 x2 x3 x4 s
  | .scalarStore x1 x2 x3 x4 => Sys2Proof.Machine.execScalarStore x1 x2 x3 x4 s
  | .instructionFetch x1 x2 => Sys2Proof.Machine.execInstructionFetch x1 x2 s
  | .msStep x1 => Sys2Proof.Machine.execMsStep x1 s
  | .msLoad x1 => Sys2Proof.Machine.execMsLoad x1 s
  | .msSteep x1 => Sys2Proof.Machine.execMsSteep x1 s
  | .msDrain x1 => Sys2Proof.Machine.execMsDrain x1 s
  | .msZero x1 => Sys2Proof.Machine.execMsZero x1 s
  | .msWait x1 => Sys2Proof.Machine.execMsWait x1 s
  | .msLoop x1 => Sys2Proof.Machine.execMsLoop x1 s
  | .msEnd x1 => Sys2Proof.Machine.execMsEnd x1 s
  | .drainedRowAccept x1 => Sys2Proof.Machine.execDrainedRowAccept x1 s
  | .drainStallExpiry x1 => Sys2Proof.Machine.execDrainStallExpiry x1 s
  | .msWaitExpiry x1 => Sys2Proof.Machine.execMsWaitExpiry x1 s
  | .rowIssue x1 x2 => Sys2Proof.Machine.execRowIssue x1 x2 s
  | .routeLanding x1 x2 => Sys2Proof.Machine.execRouteLanding x1 x2 s
  | .drainLimitExit x1 x2 x3 => Sys2Proof.Machine.execDrainLimitExit x1 x2 x3 s
  | .expansionComplete x1 => Sys2Proof.Machine.execExpansionComplete x1 s
  | .planeSwapInstall x1 => Sys2Proof.Machine.execPlaneSwapInstall x1 s
  | .portTokenFetch x1 x2 => Sys2Proof.Machine.execPortTokenFetch x1 x2 s
  | .portTokenWrite x1 x2 => Sys2Proof.Machine.execPortTokenWrite x1 x2 s
  | .tileCopyComplete x1 x2 => Sys2Proof.Machine.execTileCopyComplete x1 x2 s
  | .eventRecordWrite x1 x2 => Sys2Proof.Machine.execEventRecordWrite x1 x2 s
  | .advanceMessage x1 x2 => Sys2Proof.Machine.execAdvanceMessage x1 x2 s
  | .releaseMessage x1 x2 => Sys2Proof.Machine.execReleaseMessage x1 x2 s
  | .rwWaitExpiry x1 x2 => Sys2Proof.Machine.execRwWaitExpiry x1 x2 s
  | .evWaitExpiry x1 => Sys2Proof.Machine.execEvWaitExpiry x1 s
  | .fuWaitExpiry x1 x2 => Sys2Proof.Machine.execFuWaitExpiry x1 x2 s
  | .grWaitExpiry x1 => Sys2Proof.Machine.execGrWaitExpiry x1 s
  | .trapEntry x1 => Sys2Proof.Machine.execTrapEntry x1 s
  | .sectionRollback x1 x2 x3 => Sys2Proof.Machine.execSectionRollback x1 x2 x3 s
  | .firingStart x1 x2 => Sys2Proof.Machine.execFiringStart x1 x2 s
  | .firingEnd x1 x2 => Sys2Proof.Machine.execFiringEnd x1 x2 s
  | .hbmsrcFiring x1 x2 => Sys2Proof.Machine.execHbmsrcFiring x1 x2 s
  | .hbmsinkFiring x1 x2 => Sys2Proof.Machine.execHbmsinkFiring x1 x2 s
  | .eclipseReceipt x1 x2 => Sys2Proof.Machine.execEclipseReceipt x1 x2 s
  | .rateSetSwitch x1 => Sys2Proof.Machine.execRateSetSwitch x1 s
  | .checkpointPart x1 x2 => Sys2Proof.Machine.execCheckpointPart x1 x2 s
  | .swapOut x1 => Sys2Proof.Machine.execSwapOut x1 s
  | .taskSwitch x1 => Sys2Proof.Machine.execTaskSwitch x1 s
  | .taskPromotion x1 x2 => Sys2Proof.Machine.execTaskPromotion x1 x2 s
  | .spawnedTaskBind x1 => Sys2Proof.Machine.execSpawnedTaskBind x1 s
  | .launchPacket x1 => Sys2Proof.Machine.execLaunchPacket x1 s
  | .modeRequest x1 => Sys2Proof.Machine.execModeRequest x1 s
  | .preemptionRequest x1 => Sys2Proof.Machine.execPreemptionRequest x1 s
  | .reservedJournalEntry x1 => Sys2Proof.Machine.execReservedJournalEntry x1 s
  | .validationRound => Sys2Proof.Machine.execValidationRound s
  | .dieVerdict x1 x2 x3 => Sys2Proof.Machine.execDieVerdict x1 x2 x3 s
  | .shareCompleteReport x1 x2 => Sys2Proof.Machine.execShareCompleteReport x1 x2 s
  | .replacementRound x1 => Sys2Proof.Machine.execReplacementRound x1 s
  | .shareCompletion x1 => Sys2Proof.Machine.execShareCompletion x1 s
  | .containerLoad x1 => Sys2Proof.Machine.execContainerLoad x1 s
  | .containerUnload x1 => Sys2Proof.Machine.execContainerUnload x1 s
  | .invalidate => Sys2Proof.Machine.execInvalidate s
  | .ready => Sys2Proof.Machine.execReady s
  | .invqMalformedCommand => Sys2Proof.Machine.execInvqMalformedCommand s
  | .bankSlice x1 x2 => Sys2Proof.Machine.execBankSlice x1 x2 s
  | .bankRefresh x1 x2 => Sys2Proof.Machine.execBankRefresh x1 x2 s
  | .ordinaryBankAccess x1 x2 => Sys2Proof.Machine.execOrdinaryBankAccess x1 x2 s
  | .queryResult x1 x2 => Sys2Proof.Machine.execQueryResult x1 x2 s
  | .infuserParityFault x1 x2 => Sys2Proof.Machine.execInfuserParityFault x1 x2 s
  | .stackControllerReset x1 => Sys2Proof.Machine.execStackControllerReset x1 s
  | .stagedPut x1 => Sys2Proof.Machine.execStagedPut x1 s
  | .stagedReduction x1 => Sys2Proof.Machine.execStagedReduction x1 s
  | .stagedSignal x1 => Sys2Proof.Machine.execStagedSignal x1 s
  | .getRequest x1 => Sys2Proof.Machine.execGetRequest x1 s
  | .getData x1 => Sys2Proof.Machine.execGetData x1 s
  | .commit x1 => Sys2Proof.Machine.execCommit x1 s
  | .discard x1 => Sys2Proof.Machine.execDiscard x1 s
  | .acknowledgement x1 => Sys2Proof.Machine.execAcknowledgement x1 s
  | .rowFramePart x1 => Sys2Proof.Machine.execRowFramePart x1 s
  | .cell x1 => Sys2Proof.Machine.execCell x1 s
  | .arcToken x1 => Sys2Proof.Machine.execArcToken x1 s
  | .eclipseMarker x1 => Sys2Proof.Machine.execEclipseMarker x1 s
  | .quiescenceReport x1 => Sys2Proof.Machine.execQuiescenceReport x1 s
  | .checkpointAnnouncement x1 => Sys2Proof.Machine.execCheckpointAnnouncement x1 s
  | .preemptionAnnouncement x1 => Sys2Proof.Machine.execPreemptionAnnouncement x1 s
  | .checkpointPartsWritten x1 => Sys2Proof.Machine.execCheckpointPartsWritten x1 s
  | .checkpointComplete x1 => Sys2Proof.Machine.execCheckpointComplete x1 s
  | .restoreDone x1 => Sys2Proof.Machine.execRestoreDone x1 s
  | .relayFrame x1 => Sys2Proof.Machine.execRelayFrame x1 s
  | .frameResend x1 x2 => Sys2Proof.Machine.execFrameResend x1 x2 s
  | .deliveryLimitExpiry x1 x2 => Sys2Proof.Machine.execDeliveryLimitExpiry x1 x2 s
  | .rowFrameFillTimeout x1 => Sys2Proof.Machine.execRowFrameFillTimeout x1 s
  | .copyEngineReset x1 => Sys2Proof.Machine.execCopyEngineReset x1 s
  | .orrerySlot => Sys2Proof.Machine.execOrrerySlot s
  | .orreryLock x1 x2 => Sys2Proof.Machine.execOrreryLock x1 x2 s
  | .orreryLockLoss => Sys2Proof.Machine.execOrreryLockLoss s
  | .opticalPortLoss x1 => Sys2Proof.Machine.execOpticalPortLoss x1 s
  | .opticalPortReturn x1 => Sys2Proof.Machine.execOpticalPortReturn x1 s
  | .opticalFlit x1 => Sys2Proof.Machine.execOpticalFlit x1 s
  | .keyInstall x1 x2 x3 => Sys2Proof.Machine.execKeyInstall x1 x2 x3 s
  | .keyRetirementReport x1 x2 => Sys2Proof.Machine.execKeyRetirementReport x1 x2 s
  | .d2dFlit x1 x2 => Sys2Proof.Machine.execD2dFlit x1 x2 s
  | .d2dNack x1 x2 => Sys2Proof.Machine.execD2dNack x1 x2 s
  | .linkRetrain x1 => Sys2Proof.Machine.execLinkRetrain x1 s
  | .laneGroupFailure x1 x2 => Sys2Proof.Machine.execLaneGroupFailure x1 x2 s
  | .pauseFrame x1 x2 x3 => Sys2Proof.Machine.execPauseFrame x1 x2 x3 s
  | .faultRecord x1 => Sys2Proof.Machine.execFaultRecord x1 s
  | .faultRingWrite => Sys2Proof.Machine.execFaultRingWrite s
  | .tileQuarantine x1 => Sys2Proof.Machine.execTileQuarantine x1 s
  | .dieReset x1 => Sys2Proof.Machine.execDieReset x1 s
  | .stackFault x1 => Sys2Proof.Machine.execStackFault x1 s
  | .watchdogExpiry x1 => Sys2Proof.Machine.execWatchdogExpiry x1 s
  | .dieWdog x1 x2 => Sys2Proof.Machine.execDieWdog x1 x2 s
  | .dieErrinj x1 x2 => Sys2Proof.Machine.execDieErrinj x1 x2 s
  | .clockControlTick x1 x2 => Sys2Proof.Machine.execClockControlTick x1 x2 s
  | .thermalTrip x1 => Sys2Proof.Machine.execThermalTrip x1 s
  | .moduleReset => Sys2Proof.Machine.execModuleReset s
  | .rootOfTrustCheck x1 x2 x3 x4 x5 x6 => Sys2Proof.Machine.execRootOfTrustCheck x1 x2 x3 x4 x5 x6 s
  | .dieManagerStart x1 => Sys2Proof.Machine.execDieManagerStart x1 s
  | .tileSelfTest x1 x2 => Sys2Proof.Machine.execTileSelfTest x1 x2 s
  | .hbmTraining x1 x2 => Sys2Proof.Machine.execHbmTraining x1 x2 s
  | .substrateLinkTraining x1 => Sys2Proof.Machine.execSubstrateLinkTraining x1 s
  | .attestationRequest x1 => Sys2Proof.Machine.execAttestationRequest x1 s
  | .attestationReport x1 => Sys2Proof.Machine.execAttestationReport x1 s
  | .hostJdb x1 => Sys2Proof.Machine.execHostJdb x1 s
  | .hostJbase x1 => Sys2Proof.Machine.execHostJbase x1 s
  | .hostFbase x1 => Sys2Proof.Machine.execHostFbase x1 s
  | .hostWindowAccess x1 x2 x3 x4 => Sys2Proof.Machine.execHostWindowAccess x1 x2 x3 x4 s
  | .registerWrite x1 x2 x3 x4 => Sys2Proof.Machine.execRegisterWrite x1 x2 x3 x4 s
  | .baseInstruction x1 => Sys2Proof.Machine.execBaseInstruction x1 s
  | .writePerformed x1 x2 => Sys2Proof.Machine.execWritePerformed x1 x2 s
  | .electricalPortLoss x1 => Sys2Proof.Machine.execElectricalPortLoss x1 s
  | .electricalPortReturn x1 => Sys2Proof.Machine.execElectricalPortReturn x1 s
  | .otherFrameType x1 => Sys2Proof.Machine.execOtherFrameType x1 s
  | .tileReturn x1 => Sys2Proof.Machine.execTileReturn x1 s
  | .dieRejoin x1 => Sys2Proof.Machine.execDieRejoin x1 s

end Sys2Proof.Machine
end

