-- ==== Sys2Proof/Machine/Step.lean ====
section
/-! DEFINITION. Machine/Step.lean: one step of the module, and the placing of an instruction where the step fetches. -/

namespace Sys2Proof.Machine

/-- One step: what `nextInstr` names is executed; where it names nothing, the state it gives is the next one. -/
def step (s : State) : Host.Outcome State Fault Refusal :=
  match nextInstr s with
  | (some i, s') => exec i s'
  | (none, s') => .next s'

/-- The state with the instruction of a word (its low `nbits` bits, zeros above, little-endian) where the next step fetches
it: at the first byte of the focused core's instruction store, the core running there, the agenda empty (log entry 6). -/
def State.withFetchWord (s : State) (nbits w : Nat) : State := placeBytes s (leBytes 4 (w % 2 ^ nbits))

end Sys2Proof.Machine
end

