-- ==== Sys2Proof/Safety.lean ====
section
/-! DEFINITION. Safety.lean: what counts as a safe run: every step answers a next state, and the invariant holds. -/

namespace Sys2Proof.Safety

open Sys2Proof.Machine

/-- A step that answers a next state. -/
def Goes (o : Host.Outcome State Fault Refusal) : Prop := ∃ t, o = .next t

/-- The memory keeps its canonical form. -/
def MemInv (s : State) : Prop := Memory.wf s.mem = true

end Sys2Proof.Safety
end

