-- ==== Sys2Proof/Certificates/Slice0/Obligations.lean ====
section
/-! DEFINITION. Certificates/Slice0/Obligations.lean: the statements for the provers. Each docstring says what the statement
says; where a clause rests on a choice of the model it names the log entry. -/

open Sys2Proof Sys2Proof.Machine

namespace Sys2Proof.Spec

/-- The focused core completes its instruction: the pc moves past it and it is counted. -/
def finish (s : State) : State := s.modCur Core.advance

/-- A result in rd, then completion. -/
def finishRd (s : State) (rd : Reg) (v : DWord) : State := finish (s.wx rd v)

/-- The address after the focused core's instruction. -/
def nextPc (s : State) : DWord := s.cur.pc + BitVec.ofNat 64 s.cur.ilen

/-- rd is written, then control goes to an address. -/
def jumpRd (s : State) (rd : Reg) (v a : DWord) : State := (s.wx rd v).modCur (fun k => k.jumpTo a)

/-- Byte `j` of `v`, little-endian. -/
def byteOf (v j : Nat) : Byte := BitVec.ofNat 8 (v / 2 ^ (8 * j))

/-- The `n` bytes of the instruction store at an address. -/
def fetchBytes (k : Core) (a n : Nat) : List Byte := (List.range n).map (fun j => imemByte k (a + j))

/-- Address of a load or store. -/
def addrOf (s : State) (rs1 : Reg) (i : BitVec 12) : Nat := (s.rx rs1 + i.signExtend 64).toNat

/-- An address in the core's data memory, and in its instruction store (R195). -/
def inDmem (a : Nat) : Prop := 0x2000000000010000 ≤ a ∧ a < 0x2000000000014000
def inImem (a : Nat) : Prop := 0x2000000000000000 ≤ a ∧ a < 0x2000000000010000

/-- An address that is no core address: bits [63:60] are not 2 (R195). -/
def isGeneric (a : Nat) : Prop := a / 2 ^ 60 ≠ 2

/-- A model address outside the parts of an access. -/
def outside (ps : List Part) (x : Nat) : Prop := ∀ p ∈ ps, x < p.addr ∨ p.addr + p.len ≤ x

/-- The focused core's instruction raises `ILLEGAL`, or `RESOURCE`, with its word in the record (R428). -/
def illegalAt (s : State) : State := raiseCore s ⟨cILLEGAL, s.cur.iword.toNat, 0, false⟩
def resourceAt (s : State) : State := raiseCore s ⟨cRESOURCE, s.cur.iword.toNat, 0, false⟩

/-- The focused core is blocked at its instruction, which has had no effect (R212). -/
structure Blocks (s t : State) : Prop where
  pc : t.cur.pc = s.cur.pc
  blocked : t.cur.blocked = true
  instret : t.cur.instret = s.cur.instret
  regs : ∀ q, t.rx q = s.rx q
  mem : t.mem = s.mem
  writes : t.writes = s.writes
  pkg : t.pkg = s.pkg

/-- The focused core completes with rd written, and the home of no byte changes. -/
structure Returns (s t : State) (rd : Reg) (v : DWord) : Prop where
  core : t.cur = (s.cur.wx rd v).advance
  mem : t.mem = s.mem
  home : ∀ x, t.homeByte x = s.homeByte x

/-- The focused core completes with rd written, and the home of no byte changes; writes on their way may be retired. -/
structure ReturnsHome (s t : State) (rd : Reg) (v : DWord) : Prop where
  core : t.cur = (s.cur.wx rd v).advance
  home : ∀ x, t.homeByte x = s.homeByte x

/-- The same of a form with no result. -/
structure Completes (s t : State) : Prop where
  core : t.cur = s.cur.advance
  mem : t.mem = s.mem
  home : ∀ x, t.homeByte x = s.homeByte x

/-- What the focused core leaves alone when an instruction of its own completes: everything but itself. -/
structure SameBut (s t : State) : Prop where
  mem : t.mem = s.mem
  poison : t.poison = s.poison
  writes : t.writes = s.writes
  msgs : t.msgs = s.msgs
  dies : t.dies = s.dies
  hbm : t.hbm = s.hbm
  pkg : t.pkg = s.pkg
  net : t.net = s.net
  regs : t.regs = s.regs
  time : t.time = s.time
  stamp : t.stamp = s.stamp
  agenda : t.agenda = s.agenda
  focus : t.focus = s.focus
  tiles : ∀ u, u ≠ s.ft → t.tile u = s.tile u

/-- Every field of a tile but its cores is the same. -/
structure SameTile (v w : Tile) : Prop where
  csr : w.csr = v.csr
  fabric : w.fabric = v.fabric
  mx : w.mx = v.mx
  acc : w.acc = v.acc
  resident : w.resident = v.resident
  traps : w.traps = v.traps
  tasks : w.tasks = v.tasks
  exts : w.exts = v.exts
  wins : w.wins = v.wins
  prods : w.prods = v.prods
  copies : w.copies = v.copies
  tags : w.tags = v.tags
  events : w.events = v.events
  pending : w.pending = v.pending
  cycle : w.cycle = v.cycle

/-- Every field of a core but its registers, pc, `instret` and the marks of a blocked form is the same. -/
structure SameCore (k l : Core) : Prop where
  stat : l.stat = k.stat
  held : l.held = k.held
  imem : l.imem = k.imem
  imap : l.imap = k.imap
  dmem : l.dmem = k.dmem
  dpoison : l.dpoison = k.dpoison
  machine : l.machine = k.machine
  mcsr : l.mcsr = k.mcsr
  iword : l.iword = k.iword
  ilen : l.ilen = k.ilen

/-- The frame of an instruction that writes rd and nothing else (R193, R195, R198, R204): rd takes the value, x0 stays zero,
every other register, core, tile and table stays as it is; the pc moves past the instruction and `instret` counts it. -/
structure WritesRd (s t : State) (rd : Reg) (v : DWord) : Prop where
  rest : SameBut s t
  draws : t.draws = s.draws
  tile : SameTile (s.tile s.ft) (t.tile s.ft)
  cores : ∀ c, c < 3 → c ≠ s.fc → (t.tile s.ft).core c = (s.tile s.ft).core c
  core : SameCore s.cur t.cur
  rdVal : rd ≠ 0 → t.rx rd = v
  others : ∀ r, r ≠ rd → t.rx r = s.rx r
  zero : t.rx 0 = 0
  pc : t.cur.pc = nextPc s
  counted : t.cur.instret = s.cur.instret + 1

/-- Memory is the same outside a context frame of a die (R62, R439); where there is none, all of it. -/
def FrameOnly (s t : State) (d : Nat) (frame : Option Nat) : Prop :=
  (frame = none → t.mem = s.mem ∧ t.poison = s.poison) ∧
  ∀ n x, frame = some n → x < ctxFrameAddr s d n ∨ ctxFrameAddr s d n + 2 ^ 20 ≤ x →
    mapGet 0 t.mem x = mapGet 0 s.mem x ∧ mapGet false t.poison x = mapGet false s.poison x

/-- A core whose held access, if it has one, is swapped out, and with it the instruction that makes it (R64). -/
def outCore (k : Core) : Core := { k with held := k.held.map Held.out, out := if k.held.isSome then some k.instret else k.out }

/-- A valid frame for this package that is the next of its flow, with no copy of it buffered (R345), and of no remote section before stage 6 (R452; log entry
146). -/
structure InTurn (s : State) (f : Frame) : Prop where
  crc : f.crcOk = true
  valid : frameOk f = true
  here : f.dst = s.pkg.num
  next : f.seq = (s.rx' (flowKey f.src f.cls)).expect
  carried : f.sect = true → 6 ≤ s.regs.stage
  alone : ∀ g ∈ (s.rx' (flowKey f.src f.cls)).window, g.seq ≠ f.seq

/-- The flow of a frame with the frame past it. -/
def pastFrame (s : State) (f : Frame) : State :=
  s.modRx (flowKey f.src f.cls) (fun r => { r with expect := (r.expect + 1) % 2 ^ 24 })

/-- A frame in turn has had its effect: the frames buffered behind it follow, and the flow is acknowledged (R345, R346). -/
def delivered (f : Frame) (t : State) : State := sendAck (drainRun (flowKey f.src f.cls) 4095 t) f.src f.cls

/-- Tokens in the messages of a window, and in the pushes into it that a tile's copy unit holds. -/
def msgTokens (s : State) (t w : Nat) : Nat := ((mapGet [] s.msgs (winNo t w)).map (·.n)).sum
def pushTokens (v : Tile) (t w : Nat) : Nat :=
  (v.copies.map (fun c => match c.kind with | .push w' n t' => if w' = w ∧ t' = t then n else 0 | _ => 0)).sum

/-- Of a window that is no proxy: the tokens in it, on their way to it and released from it are no more than its producer counts, and
those no more than its capacity (R222, R327, R328). -/
def WindowBound (s : State) (t w : Nat) : Prop :=
  ∀ x, (s.tile t).win w = some x → x.proxy = false →
    x.occ + msgTokens s t w + pushTokens (s.tile x.pTile) t w ≤ (s.prod x.pTile t w).occ ∧ (s.prod x.pTile t w).occ ≤ x.cap

/-- The first copy of a tile, not held and with no byte masked, moves `rows` rows of `n` bytes from a LOCAL address `src`, `sp` apart. -/
structure FirstCopy (s : State) (t : Nat) (c : Copy) (rest : List Copy) (src sp rows n : Nat) : Prop where
  first : (s.tile t).copies = c :: rest
  free : c.held = none ∧ c.mask = []
  shape : c.rows = rows ∧ c.rowBytes = n
  nonempty : 0 < n ∧ 0 < rows
  source : c.src = BitVec.ofNat 64 src ∧ c.srcPitch = (sp : Int)
  fits : src + sp * (rows - 1) + n ≤ 2 ^ 21
  quiet : c.ev = false

/-- No byte that such a copy reads is poisoned. -/
def cleanRows (s : State) (t src sp rows n : Nat) : Prop :=
  ∀ r i, r < rows → i < n → s.poisonAt (spadBase t + src + sp * r + i) = false

/-- The status of a copy's ticket, while it is kept. -/
def statusIs (u : State) (t : Nat) (c : Copy) (st : Nat) : Prop :=
  ((u.ext t c.slot).tcNext + 2 ^ 31 - 1 - c.ticket) % 2 ^ 31 < 256 → mapGet 0 (u.ext t c.slot).tcStat (c.ticket % 256) = st

/-- The home of no byte changes, nor any tile, die, stack or package table. -/
structure NetOnly (s t : State) : Prop where
  home : ∀ x, t.homeByte x = s.homeByte x
  mem : t.mem = s.mem
  tiles : t.tiles = s.tiles
  dies : t.dies = s.dies
  hbm : t.hbm = s.hbm
  pkg : t.pkg = s.pkg
  regs : t.regs = s.regs

end Sys2Proof.Spec

open Sys2Proof.Spec

/-- With an empty agenda and the focused core running: if the four bytes at its pc decode to i of n bytes, and none of the n is
refused by the fetch rules, step is exec of i, on the state in which time has passed and the instruction stands in the core.
If a byte cannot be fetched, the core takes that trap (in machine mode as the privileged architecture has it, log entry 7). With a unit step at the head of the agenda, step is exec of it on the
rest of the agenda (the agenda is the model's own, log entry 6). A core that is not running only lets time pass. -/
def Obligations.StepRunsDecodedInstruction : Prop :=
  (∀ (s : State) (i : Instr) (n : Nat), s.agenda = [] → s.cur.stat = .run →
    decodeBytes (fetchBytes s.cur s.cur.pc.toNat 4) = .ok (i, n) → fetchTrap s.cur s.cur.pc.toNat n = none →
    step s = exec i (latch (tick s) (BitVec.ofNat 32 (leNat (fetchBytes s.cur s.cur.pc.toNat n))) n)) ∧
  (∀ (s : State) (tr : Trap), s.agenda = [] → s.cur.stat = .run → fetchTrap s.cur s.cur.pc.toNat 2 = some tr →
    step s = .next (raiseFetch (tick s) tr)) ∧
  (∀ (s : State) (tr : Trap) (i : Instr), s.agenda = [] → s.cur.stat = .run → fetchTrap s.cur s.cur.pc.toNat 2 = none →
    decodeBytes (fetchBytes s.cur s.cur.pc.toNat 4) = .ok (i, 4) → fetchTrap s.cur s.cur.pc.toNat 4 = some tr →
    step s = .next (raiseFetch (tick s) tr)) ∧
  (∀ (s : State) (i : Instr) (r : List Instr), s.agenda = i :: r → step s = exec i { s with agenda := r }) ∧
  (∀ s : State, s.agenda = [] → s.cur.stat ≠ .run → step s = .next (tick s))

/-- From every state, placing an instruction word of 32 bits at the first byte of the focused core's instruction store (as the
model loads a program, log entry 6) makes the very next step exec of what the word decodes to. -/
def Obligations.PlacedWordRuns : Prop :=
  ∀ (s : State) (w : Nat) (i : Instr), s.fc < 3 → w % 4 = 3 → decodeTableWord 32 w = some i →
    ∃ t : State, step (s.withFetchWord 32 w) = exec i t ∧ t.cur.pc = 0x2000000000000000 ∧ t.cur.ilen = 4 ∧
      t.cur.iword = BitVec.ofNat 32 w ∧ (∀ r, t.rx r = s.rx r) ∧ t.mem = s.mem ∧ t.pkg = s.pkg ∧ t.dies = s.dies

/-- A byte of the instruction store in an execute region can be fetched, and raises POISON with the store's array id where its protection
word is uncorrectable (R432); one in a data region of the store or in the data memory
raises FETCHDATA with its offset; any other address raises APERTURE. Over the bytes of an instruction the first offending
one is reported, and at such a fetch a core that runs in user mode stops where it stands, the record going to its die's
manager. -/
def Obligations.FetchRegions : Prop :=
  (∀ (k : Core) (off : Nat), off < 0x10000 → k.imap.getLsbD (off / 256) = true → mapGet false k.ipoison (off / 8) = false →
    fetchByteTrap k (0x2000000000000000 + off) = none) ∧
  (∀ (k : Core) (off : Nat), off < 0x10000 → k.imap.getLsbD (off / 256) = true → mapGet false k.ipoison (off / 8) = true →
    fetchByteTrap k (0x2000000000000000 + off) = some ⟨cPOISON, 0x2000000000000000 + off, 0x02, false⟩) ∧
  (∀ (k : Core) (off : Nat), off < 0x10000 → k.imap.getLsbD (off / 256) = false →
    fetchByteTrap k (0x2000000000000000 + off) = some ⟨cFETCHDATA, off, 0, false⟩) ∧
  (∀ (k : Core) (off : Nat), 0x10000 ≤ off → off < 0x14000 →
    fetchByteTrap k (0x2000000000000000 + off) = some ⟨cFETCHDATA, off, 0, false⟩) ∧
  (∀ (k : Core) (a : Nat), a < 2 ^ 64 → ¬ inImem a → ¬ inDmem a →
    ∃ tr : Trap, fetchByteTrap k a = some tr ∧ tr.cause = cAPERTURE) ∧
  (∀ (k : Core) (a n j : Nat) (tr : Trap), j < n → (∀ i, i < j → fetchByteTrap k (a + i) = none) →
    fetchByteTrap k (a + j) = some tr → fetchTrap k a n = some tr) ∧
  (∀ (s : State) (tr : Trap), s.fc < 3 → s.cur.machine = false → s.agenda = [] → s.cur.stat = .run →
    fetchTrap s.cur s.cur.pc.toNat 2 = some tr →
    ∃ t : State, step s = .next t ∧ t.cur.stat = .faulted ∧ t.cur.pc = s.cur.pc ∧ t.cur.instret = s.cur.instret ∧
      ∃ r, (t.die (s.ft / 512)).faults = (s.die (s.ft / 512)).faults ++ [r] ∧ r.1.cause = tr.cause ∧
        r.1.w2 = BitVec.ofNat 64 tr.w2)

/-- The fetch step of a named core that runs at fetchable bytes latches the instruction there: two bytes when the low two bits of
the first are not 11, else four; it changes nothing else of the core. -/
def Obligations.FetchStepLatches : Prop :=
  ∀ (s : State) (t c : Nat), ((s.tile t).core c).stat = .run →
    ∀ n, n = instrLen (imemByte ((s.tile t).core c) ((s.tile t).core c).pc.toNat) →
      fetchTrap ((s.tile t).core c) ((s.tile t).core c).pc.toNat n = none →
      exec (.instructionFetch t c) s = .next ({ s with focus := (t, c) }.modCur (fun k =>
        { k with iword := BitVec.ofNat 32 (leNat (fetchBytes k k.pc.toNat n)), ilen := n }))

/-- One word or more of each custom opcode and of the base profile, written out from the encoding tables, decodes to the
instruction it stands for. Reserved are `sy.fence` with a scope code of 5 (0x1A00302B), a pair of funct7 and funct3 that custom-1 does not
list (0x2A00302B), `sys.end` with a non-zero unused field and the half word 0. -/
def Obligations.DecodeOfKnownWords : Prop :=
  decodeWord 0x06C5950B#32 = .rwWait 10 11 12 ∧ decodeWord 0x06C5852B#32 = .fuWait 10 11 12 ∧
  decodeWord 0x02C5855B#32 = .amAdd 10 11 12 1 ∧ decodeWord 0x66C5855B#32 = .amCas 10 11 12 3 ∧
  decodeWord 0x1200302B#32 = .syFence 1 ∧ decodeWord 0x2030B02B#32 = .pfFence 1 3 ∧
  decodeWord 0x0A0016DB#32 = .xcCommit 13 ∧ decodeWord 0x0825007B#32 = .fbTok 10 2 ∧
  decodeWord 0x0A1002FB#32 = .fbSink 5 1 ∧ decodeWord 0x0200707B#32 = .sysEnd ∧
  decodeWord 0x00000013#32 = .baseInstruction (.imm .addi 0 0 0) ∧ decodeWord 0x00100073#32 = .ebreak ∧
  decodeHalf 0x852E#16 = .baseInstruction (.reg .add 10 0 11) ∧ decodeHalf 0x60A2#16 = .scalarLoad .ld 1 2 8 ∧
  decodeWord 0x1A00302B#32 = .baseInstruction (.reserved 0x1A00302B#32) ∧
  decodeWord 0x2A00302B#32 = .baseInstruction (.reserved 0x2A00302B#32) ∧
  decodeWord 0x020070FB#32 = .baseInstruction (.reserved 0x020070FB#32) ∧
  decodeHalf 0#16 = .baseInstruction (.reserved 0)

/-- For every well-formed instruction that a core can fetch (all that have an encoding), with every operand at every value the
encoding admits: decoding its bytes gives the instruction and consumes all of them. -/
def Obligations.DecodeOfEncode : Prop :=
  ∀ (i : Instr) (bs : List Byte), i.wf = true → encode i = some bs → decodeBytes bs = .ok (i, bs.length)

/-- Decoding the 128-bit entry of a step row gives the row back, with every field at every value; and an entry that decodes to a
row is that row's own entry, so a reserved OP or a reserved bit that is set decodes to nothing. -/
def Obligations.StepRowRoundTrip : Prop :=
  (∀ r : StepRow, decodeStepRow (encodeStepRow r) = some r) ∧
  (∀ (w : QWord) (r : StepRow), decodeStepRow w = some r → encodeStepRow r = w)

/-- From every state whose memory has its canonical form (addresses strictly rising, no entry equal to what an unlisted byte
reads as), if step answers a next state, its memory has that form too: equal memories stay equal as data. -/
def Obligations.StepKeepsMemoryCanonical : Prop :=
  ∀ s t : State, Safety.MemInv s → step s = .next t → Safety.MemInv t

/-- The state after reset: memory in canonical form; every tile's trap CSRs 0 and no task bound; every future EMPTY with generation 1; of each
die DIE_SWAP_CTL, DIE_FAULT_CTL, DIE_ERRINJ and DIE_CLK at the values their rules give. The model's choices are that no configuration is
resident and every port is IDLE before a first task is (log entry 3), that the registers x1–x31 and the pc read 0 (log entry 1), and
that memory reads 0 (log entry 2). -/
def Obligations.ResetValues : Prop :=
  Safety.MemInv State.reset ∧
  (∀ t, (State.reset.tile t).csr.tvec = 0 ∧ (State.reset.tile t).csr.tepc = 0 ∧ (State.reset.tile t).csr.tstat = 0 ∧
    (State.reset.tile t).csr.trec = ⟨0, 0, 0, 0⟩ ∧ (∀ n, mapGet 0 (State.reset.tile t).csr.mxpeer n = 0) ∧
    (State.reset.tile t).resident = none ∧ (State.reset.tile t).fabric.active = none ∧
    (∀ p, ((State.reset.tile t).port p).stat = .idle) ∧ (∀ slot, (State.reset.tile t).task slot = none) ∧
    (∀ c r, ((State.reset.tile t).core c).rx r = 0) ∧ (∀ c, ((State.reset.tile t).core c).pc = 0)) ∧
  (∀ k, mapGet Fut.reset State.reset.pkg.futures k = ⟨0, .empty, 1, [], 0⟩) ∧
  (∀ d, (State.reset.die d).swapCtl = 4096 ∧ (State.reset.die d).faultCtl = 1 ∧ (State.reset.die d).errInj = 0 ∧
    (State.reset.die d).ceil = 34 ∧ (State.reset.die d).cur = 17) ∧
  (∀ o a, State.reset.byteAt o a = 0)

/-- The state in which the result statements of register-only instructions end (finishRd) has the frame WritesRd: rd alone is
written, x0 discards the write, and no other register, core, tile, memory or table changes. -/
def Obligations.WritingRdFrame : Prop :=
  ∀ (s : State) (rd : Reg) (v : DWord), s.fc < 3 → WritesRd s (finishRd s rd v) rd v

/-- Register, immediate, shift and one-register operations, lui and auipc complete with their result in rd; the results of a few
are spelt out, division by zero and overflow among them, as the M extension specifies them (from outside the manual). -/
def Obligations.BaseArithmetic : Prop :=
  (∀ (s : State) (o : RegOp) (rd r1 r2 : Reg),
    exec (.baseInstruction (.reg o rd r1 r2)) s = .next (finishRd s rd (regOp o (s.rx r1) (s.rx r2)))) ∧
  (∀ (s : State) (o : ImmOp) (rd r1 : Reg) (i : BitVec 12),
    exec (.baseInstruction (.imm o rd r1 i)) s = .next (finishRd s rd (immOp o (s.rx r1) i))) ∧
  (∀ (s : State) (o : ShiftOp) (rd r1 : Reg) (n : BitVec 6),
    exec (.baseInstruction (.shift o rd r1 n)) s = .next (finishRd s rd (shiftImm o (s.rx r1) n))) ∧
  (∀ (s : State) (o : UnOp) (rd r1 : Reg), exec (.baseInstruction (.un o rd r1)) s = .next (finishRd s rd (unOp o (s.rx r1)))) ∧
  (∀ (s : State) (rd : Reg) (i : BitVec 20),
    exec (.baseInstruction (.lui rd i)) s = .next (finishRd s rd ((i ++ 0#12).signExtend 64)) ∧
    exec (.baseInstruction (.auipc rd i)) s = .next (finishRd s rd (s.cur.pc + (i ++ 0#12).signExtend 64))) ∧
  (∀ a b : DWord, regOp .add a b = a + b ∧ regOp .sub a b = a - b ∧ regOp .addw a b = ((a + b).extractLsb' 0 32).signExtend 64 ∧
    regOp .sh1add a b = b + a + a ∧ regOp .divu a 0 = BitVec.allOnes 64 ∧ regOp .remu a 0 = a ∧
    regOp .div a 0 = BitVec.allOnes 64 ∧ regOp .rem a 0 = a) ∧
  regOp .div 0x8000000000000000 (BitVec.allOnes 64) = 0x8000000000000000 ∧
  regOp .rem 0x8000000000000000 (BitVec.allOnes 64) = 0

/-- jal and jalr put the address of the next instruction in rd and go to their target, jalr clearing bit 0; a branch goes to its
target exactly when its condition holds; the target is read before rd is written. -/
def Obligations.JumpsAndBranches : Prop :=
  (∀ (s : State) (rd : Reg) (off : BitVec 21),
    exec (.baseInstruction (.jal rd off)) s = .next (jumpRd s rd (nextPc s) (s.cur.pc + off.signExtend 64))) ∧
  (∀ (s : State) (rd r1 : Reg) (i : BitVec 12),
    exec (.baseInstruction (.jalr rd r1 i)) s =
      .next (jumpRd s rd (nextPc s) ((s.rx r1 + i.signExtend 64) &&& 0xFFFFFFFFFFFFFFFE))) ∧
  (∀ (s : State) (o : BranchOp) (r1 r2 : Reg) (off : BitVec 13), branchTaken o (s.rx r1) (s.rx r2) = true →
    exec (.baseInstruction (.branch o r1 r2 off)) s = .next (s.modCur (fun k => k.jumpTo (s.cur.pc + off.signExtend 64)))) ∧
  (∀ (s : State) (o : BranchOp) (r1 r2 : Reg) (off : BitVec 13), branchTaken o (s.rx r1) (s.rx r2) = false →
    exec (.baseInstruction (.branch o r1 r2 off)) s = .next (finish s)) ∧
  (∀ a b : DWord, branchTaken .beq a b = decide (a = b) ∧ branchTaken .bne a b = decide (a ≠ b) ∧
    branchTaken .blt a b = decide (a.toInt < b.toInt) ∧ branchTaken .bge a b = decide (b.toInt ≤ a.toInt) ∧
    branchTaken .bltu a b = decide (a.toNat < b.toNat) ∧ branchTaken .bgeu a b = decide (b.toNat ≤ a.toNat))

/-- An aligned load completes with the value at its address in rd, extended as its form says: from the core's data memory, from
its instruction store, and from a generic address whose translation succeeds, as the core's own reads see those bytes. No
byte changes at its home or as any core reads it (the core's own strong stores to the bytes have had their moment by then,
which only units other than cores can see: log entry 31). -/
def Obligations.ScalarLoads : Prop :=
  (∀ (s : State) (k : LoadKind) (rd r1 : Reg) (i : BitVec 12) (off : Nat), addrOf s r1 i = 0x2000000000010000 + off →
    off < 0x4000 → off % loadSize k = 0 → mapGet false s.cur.dpoison (off / 8) = false →
    exec (.scalarLoad k rd r1 i) s =
      .next (finishRd s rd (loadExtend k (leNat ((List.range (loadSize k)).map (fun j => mapGet 0 s.cur.dmem (off + j))))))) ∧
  (∀ (s : State) (k : LoadKind) (rd r1 : Reg) (i : BitVec 12) (off : Nat), addrOf s r1 i = 0x2000000000000000 + off →
    off < 0x10000 → off % loadSize k = 0 → mapGet false s.cur.ipoison (off / 8) = false →
    exec (.scalarLoad k rd r1 i) s =
      .next (finishRd s rd (loadExtend k (leNat ((List.range (loadSize k)).map (fun j => mapGet 0 s.cur.imem (off + j))))))) ∧
  (∀ (s : State) (k : LoadKind) (rd r1 : Reg) (i : BitVec 12), addrOf s r1 i + loadSize k ≤ 2 ^ 21 →
    addrOf s r1 i % loadSize k = 0 → s.poisonIn (spadBase s.ft + addrOf s r1 i) (loadSize k) = false →
    exec (.scalarLoad k rd r1 i) s =
      .next (finishRd (ownMoment s [⟨spadBase s.ft + addrOf s r1 i, loadSize k⟩]) rd
        (loadExtend k (leNat (s.bytesAt (.tile s.ft s.fc) (spadBase s.ft + addrOf s r1 i) (loadSize k)))))) ∧
  (∀ (s : State) (k : LoadKind) (rd r1 : Reg) (i : BitVec 12) (ps : List Part), isGeneric (addrOf s r1 i) →
    addrOf s r1 i % loadSize k = 0 → (s.find s.who (addrOf s r1 i) (loadSize k) .read).res = .ok ps →
    (∀ p ∈ ps, s.poisonIn p.addr p.len = false) →
    ∃ t : State, exec (.scalarLoad k rd r1 i) s = .next t ∧ t.cur = (s.cur.wx rd (loadExtend k (leNat (s.readParts (.tile s.ft s.fc) ps)))).advance ∧
      t.mem = s.mem ∧ (∀ x, t.homeByte x = s.homeByte x) ∧
      (∀ u c x, c < 3 → t.byteAt (.tile u c) x = s.byteAt (.tile u c) x)) ∧
  (∀ (s : State) (ps : List Part) (x : Nat), (ownMoment s ps).homeByte x = s.homeByte x ∧
    ∀ u c, c < 3 → (ownMoment s ps).byteAt (.tile u c) x = s.byteAt (.tile u c) x) ∧
  (∀ x : Nat, loadExtend .lh (x % 2 ^ 16) = (BitVec.ofNat 16 x).signExtend 64 ∧ loadExtend .lhu (x % 2 ^ 16) = (BitVec.ofNat 16 x).setWidth 64 ∧
    loadExtend .ld (x % 2 ^ 64) = BitVec.ofNat 64 x ∧ loadExtend .lb (x % 256) = (BitVec.ofNat 8 x).signExtend 64 ∧ loadExtend .lbu (x % 256) = (BitVec.ofNat 8 x).setWidth 64 ∧
    loadExtend .lw (x % 2 ^ 32) = (BitVec.ofNat 32 x).signExtend 64 ∧ loadExtend .lwu (x % 2 ^ 32) = (BitVec.ofNat 32 x).setWidth 64)

/-- An aligned store to the data memory writes its bytes there and leaves all memory and every register alone; one to a generic
address whose translation gives the parts ps completes, leaves every register and every byte outside ps as every observer
reads it, and where it gives one part the core that stored reads its bytes back; the LOCAL form's one part is spelt out. -/
def Obligations.ScalarStores : Prop :=
  (∀ (s : State) (k : StoreKind) (r1 r2 : Reg) (i : BitVec 12) (off : Nat), addrOf s r1 i = 0x2000000000010000 + off →
    off < 0x4000 → off % storeSize k = 0 →
    ∃ t : State, exec (.scalarStore k r1 r2 i) s = .next t ∧
      (∀ x, mapGet 0 t.cur.dmem x =
        if off ≤ x ∧ x < off + storeSize k then byteOf (s.rx r2).toNat (x - off) else mapGet 0 s.cur.dmem x) ∧
      (∀ r, t.rx r = s.rx r) ∧ t.cur.pc = nextPc s ∧ t.mem = s.mem ∧ t.writes = s.writes ∧
      (∀ u, u ≠ s.ft → t.tile u = s.tile u)) ∧
  (∀ (s : State) (k : StoreKind) (r1 r2 : Reg) (i : BitVec 12) (ps : List Part), isGeneric (addrOf s r1 i) →
    addrOf s r1 i % storeSize k = 0 → (s.find s.who (addrOf s r1 i) (storeSize k) .write).res = .ok ps →
    ∃ t : State, exec (.scalarStore k r1 r2 i) s = .next t ∧ (∀ o x, outside ps x → t.byteAt o x = s.byteAt o x) ∧
      (∀ p, ps = [p] → p.len = storeSize k → ∀ j, j < p.len → t.byteAt (.tile s.ft s.fc) (p.addr + j) = byteOf (s.rx r2).toNat j) ∧
      (∀ r, t.rx r = s.rx r) ∧ t.cur.pc = nextPc s ∧ t.cur.dmem = s.cur.dmem) ∧
  (∀ (s : State) (k : StoreKind) (r1 r2 : Reg) (i : BitVec 12), addrOf s r1 i + storeSize k ≤ 2 ^ 21 →
    addrOf s r1 i % storeSize k = 0 →
    ∃ t : State, exec (.scalarStore k r1 r2 i) s = .next t ∧
      (∀ x, t.byteAt (.tile s.ft s.fc) x =
        if spadBase s.ft + addrOf s r1 i ≤ x ∧ x < spadBase s.ft + addrOf s r1 i + storeSize k
        then byteOf (s.rx r2).toNat (x - (spadBase s.ft + addrOf s r1 i)) else s.byteAt (.tile s.ft s.fc) x))

/-- A load or store of 2, 4 or 8 bytes at an address that is no multiple of its size raises ALIGN, also where the address lies in no
aperture (log entry 22); an aligned store into the
instruction store raises PERMISSION; an aligned one at a core address outside both memories raises APERTURE. In user mode the core stops at the
instruction, no register, byte of memory, instruction store or data memory changes, and the record goes to the die's
manager. -/
def Obligations.ScalarAccessTraps : Prop :=
  (∀ (s : State) (k : LoadKind) (rd r1 : Reg) (i : BitVec 12), addrOf s r1 i % loadSize k ≠ 0 →
    exec (.scalarLoad k rd r1 i) s = .next (raiseCore s ⟨cALIGN, addrOf s r1 i, loadSize k, false⟩)) ∧
  (∀ (s : State) (k : StoreKind) (r1 r2 : Reg) (i : BitVec 12), addrOf s r1 i % storeSize k ≠ 0 →
    exec (.scalarStore k r1 r2 i) s = .next (raiseCore s ⟨cALIGN, addrOf s r1 i, storeSize k, false⟩)) ∧
  (∀ (s : State) (k : StoreKind) (r1 r2 : Reg) (i : BitVec 12), addrOf s r1 i % storeSize k = 0 → inImem (addrOf s r1 i) →
    ∃ tr : Trap, tr.cause = cPERMISSION ∧ tr.w2 = addrOf s r1 i ∧ exec (.scalarStore k r1 r2 i) s = .next (raiseCore s tr)) ∧
  (∀ (s : State) (k : StoreKind) (r1 r2 : Reg) (i : BitVec 12), addrOf s r1 i % storeSize k = 0 →
    ¬ isGeneric (addrOf s r1 i) → ¬ inImem (addrOf s r1 i) → ¬ inDmem (addrOf s r1 i) →
    ∃ tr : Trap, tr.cause = cAPERTURE ∧ tr.w2 = addrOf s r1 i ∧ exec (.scalarStore k r1 r2 i) s = .next (raiseCore s tr)) ∧
  (∀ (s : State) (k : LoadKind) (rd r1 : Reg) (i : BitVec 12), addrOf s r1 i % loadSize k = 0 →
    ¬ isGeneric (addrOf s r1 i) → ¬ inImem (addrOf s r1 i) → ¬ inDmem (addrOf s r1 i) →
    ∃ tr : Trap, tr.cause = cAPERTURE ∧ tr.w2 = addrOf s r1 i ∧ exec (.scalarLoad k rd r1 i) s = .next (raiseCore s tr)) ∧
  (∀ (s : State) (tr : Trap), s.fc < 3 → s.cur.machine = false → controlCause tr.cause = false →
    (raiseCore s tr).cur = { s.cur with stat := .faulted, blocked := false, waited := 0 } ∧
    (raiseCore s tr).mem = s.mem ∧ (raiseCore s tr).writes = s.writes ∧
    (∀ c, c < 3 → c ≠ s.fc → ((raiseCore s tr).tile s.ft).core c = (s.tile s.ft).core c) ∧
    ∃ r, ((raiseCore s tr).die (s.ft / 512)).faults = (s.die (s.ft / 512)).faults ++ [r] ∧ r.1.w2 = BitVec.ofNat 64 tr.w2 ∧
      r.1.w3 = BitVec.ofNat 64 tr.w3)

/-- The counters, TILE_ID, TILE_TASK and TILE_RSV are read by any core; the trap CSRs by the control core alone, another core
raising ILLEGAL; a write of TILE_TVEC, TILE_TEPC or TILE_MXPEERn keeps the reserved bits 0 and gives the old value, the set and clear
forms with a source that is not x0 (or an immediate that is not 0) setting and clearing its bits in the old value; TILE_RSV has the base of the
task's scratchpad reserve where it has one; a form that writes
a read-only CSR, a number that is not defined and a machine CSR in user mode raise ILLEGAL. In machine mode the scratch
register is read and written, and a number that no CSR has and a write of the machine's identity registers raise ILLEGAL (which
numbers the machine CSRs have is the privileged architecture's, log entry 7). -/
def Obligations.CsrAccess : Prop :=
  (∀ (s : State) (rd : Reg),
    exec (.csrAccess .rs rd 0 0xC00) s = .next (finishRd s rd (BitVec.ofNat 64 (s.tile s.ft).cycle)) ∧
    exec (.csrAccess .rs rd 0 0xC01) s = .next (finishRd s rd (BitVec.ofNat 64 s.time)) ∧
    exec (.csrAccess .rs rd 0 0xC02) s = .next (finishRd s rd s.cur.instret) ∧
    exec (.csrAccess .rs rd 0 0xCC0) s = .next (finishRd s rd (BitVec.ofNat 64 (s.ft * 4 + s.fc))) ∧
    (∀ k, (s.tile s.ft).task s.fslot = some k → exec (.csrAccess .rs rd 0 0xCC1) s =
      .next (finishRd s rd (BitVec.ofNat 64 (k.lidx * 2 ^ 16 + s.fslot * 2 ^ 8 + k.prio)))) ∧
    (∀ k, (s.tile s.ft).task s.fslot = some k → k.ssize = 0 → exec (.csrAccess .rs rd 0 0xCC7) s =
      .next (finishRd s rd (BitVec.ofNat 64 (k.tbase * 2 ^ 43 + k.tsize * 2 ^ 32)))) ∧
    (∀ k, (s.tile s.ft).task s.fslot = some k → k.ssize ≠ 0 → exec (.csrAccess .rs rd 0 0xCC7) s =
      .next (finishRd s rd (BitVec.ofNat 64 (k.tbase * 2 ^ 43 + k.tsize * 2 ^ 32 + k.sbase / 64 % 2 ^ 15 * 64))))) ∧
  (∀ (s : State) (rd : Reg), s.fc = 0 →
    exec (.csrAccess .rs rd 0 0x800) s = .next (finishRd s rd (s.tile s.ft).csr.tvec) ∧
    exec (.csrAccess .rs rd 0 0x801) s = .next (finishRd s rd (s.tile s.ft).csr.tepc) ∧
    exec (.csrAccess .rs rd 0 0xCC2) s = .next (finishRd s rd (s.tile s.ft).csr.trec.w0) ∧
    exec (.csrAccess .rs rd 0 0xCC3) s = .next (finishRd s rd (s.tile s.ft).csr.trec.w1) ∧
    exec (.csrAccess .rs rd 0 0xCC4) s = .next (finishRd s rd (s.tile s.ft).csr.trec.w2) ∧
    exec (.csrAccess .rs rd 0 0xCC5) s = .next (finishRd s rd (s.tile s.ft).csr.trec.w3) ∧
    exec (.csrAccess .rs rd 0 0xCC6) s = .next (finishRd s rd (s.tile s.ft).csr.tstat) ∧
    (∀ n, n < 4 → exec (.csrAccess .rs rd 0 (BitVec.ofNat 12 (0x840 + n))) s =
      .next (finishRd s rd (mapGet 0 (s.tile s.ft).csr.mxpeer n)))) ∧
  (∀ (s : State) (rd src : Reg), s.fc = 0 → ∃ t : State, exec (.csrAccess .rw rd src 0x800) s = .next t ∧
    (t.tile s.ft).csr = { (s.tile s.ft).csr with tvec := s.rx src &&& 0xFFFF } ∧
    t.cur = (s.cur.wx rd (s.tile s.ft).csr.tvec).advance) ∧
  (∀ (s : State) (rd src : Reg), s.fc = 0 → ∃ t : State, exec (.csrAccess .rw rd src 0x801) s = .next t ∧
    (t.tile s.ft).csr = { (s.tile s.ft).csr with tepc := s.rx src } ∧
    t.cur = (s.cur.wx rd (s.tile s.ft).csr.tepc).advance) ∧
  (∀ (s : State) (rd src : Reg) (n : Nat), s.fc = 0 → n < 4 →
    ∃ t : State, exec (.csrAccess .rw rd src (BitVec.ofNat 12 (0x840 + n))) s = .next t ∧
      mapGet 0 (t.tile s.ft).csr.mxpeer n = s.rx src &&& 0x8000FF83 ∧ (t.tile s.ft).csr.tvec = (s.tile s.ft).csr.tvec ∧
      t.cur = (s.cur.wx rd (mapGet 0 (s.tile s.ft).csr.mxpeer n)).advance) ∧
  (∀ (s : State) (k : CsrKind) (rd src : Reg) (x : DWord), s.fc = 0 → src ≠ 0 →
    (k = .rs ∧ x = (s.tile s.ft).csr.tvec ||| s.rx src ∨ k = .rc ∧ x = (s.tile s.ft).csr.tvec &&& ~~~(s.rx src) ∨
      k = .rsi ∧ x = (s.tile s.ft).csr.tvec ||| src.setWidth 64 ∨ k = .rci ∧ x = (s.tile s.ft).csr.tvec &&& ~~~(src.setWidth 64)) →
    ∃ t : State, exec (.csrAccess k rd src 0x800) s = .next t ∧
      (t.tile s.ft).csr = { (s.tile s.ft).csr with tvec := x &&& 0xFFFF } ∧ t.cur = (s.cur.wx rd (s.tile s.ft).csr.tvec).advance) ∧
  (∀ (s : State) (k : CsrKind) (rd src : Reg) (x : DWord), s.fc = 0 → src ≠ 0 →
    (k = .rs ∧ x = (s.tile s.ft).csr.tepc ||| s.rx src ∨ k = .rc ∧ x = (s.tile s.ft).csr.tepc &&& ~~~(s.rx src)) →
    ∃ t : State, exec (.csrAccess k rd src 0x801) s = .next t ∧
      (t.tile s.ft).csr = { (s.tile s.ft).csr with tepc := x } ∧ t.cur = (s.cur.wx rd (s.tile s.ft).csr.tepc).advance) ∧
  (∀ (s : State) (k : CsrKind) (rd src : Reg) (n : Nat) (x : DWord), s.fc = 0 → n < 4 → src ≠ 0 →
    (k = .rs ∧ x = mapGet 0 (s.tile s.ft).csr.mxpeer n ||| s.rx src ∨ k = .rc ∧ x = mapGet 0 (s.tile s.ft).csr.mxpeer n &&& ~~~(s.rx src)) →
    ∃ t : State, exec (.csrAccess k rd src (BitVec.ofNat 12 (0x840 + n))) s = .next t ∧
      mapGet 0 (t.tile s.ft).csr.mxpeer n = x &&& 0x8000FF83 ∧ t.cur = (s.cur.wx rd (mapGet 0 (s.tile s.ft).csr.mxpeer n)).advance) ∧
  (∀ (s : State) (k : CsrKind) (rd src : Reg) (n : BitVec 12), s.fc ≠ 0 →
    (n = 0x800 ∨ n = 0x801 ∨ (0x840 ≤ n.toNat ∧ n.toNat ≤ 0x843) ∨ (0xCC2 ≤ n.toNat ∧ n.toNat ≤ 0xCC6)) →
    exec (.csrAccess k rd src n) s = .next (raiseCore s ⟨cILLEGAL, s.cur.iword.toNat, 0, false⟩)) ∧
  (∀ (s : State) (k : CsrKind) (rd src : Reg) (n : BitVec 12), (0xC00 ≤ n.toNat ∧ n.toNat ≤ 0xC02) ∨ (0xCC0 ≤ n.toNat ∧ n.toNat ≤ 0xCC7) →
    k = .rw ∨ k = .rwi ∨ src ≠ 0 → exec (.csrAccess k rd src n) s = .next (raiseCore s ⟨cILLEGAL, s.cur.iword.toNat, 0, false⟩)) ∧
  (∀ (s : State) (k : CsrKind) (rd src : Reg) (n : BitVec 12), (n.toNat / 256) % 4 ≠ 3 → n ≠ 0x800 → n ≠ 0x801 →
    ¬ (0x840 ≤ n.toNat ∧ n.toNat ≤ 0x843) → ¬ (0xC00 ≤ n.toNat ∧ n.toNat ≤ 0xC02) → ¬ (0xCC0 ≤ n.toNat ∧ n.toNat ≤ 0xCC7) →
    exec (.csrAccess k rd src n) s = .next (raiseCore s ⟨cILLEGAL, s.cur.iword.toNat, 0, false⟩)) ∧
  (∀ (s : State) (k : CsrKind) (rd src : Reg) (n : BitVec 12), s.cur.machine = false → (n.toNat / 256) % 4 = 3 →
    exec (.csrAccess k rd src n) s = .next (raiseCore s ⟨cILLEGAL, s.cur.iword.toNat, 0, false⟩)) ∧
  (∀ (s : State) (rd src : Reg), s.cur.machine = true → ∃ t : State, exec (.csrAccess .rw rd src 0x340) s = .next t ∧
    mapGet 0 t.cur.mcsr 0x340 = s.rx src ∧ t.cur.machine = true ∧ t.cur.pc = nextPc s ∧
    (rd ≠ 0 → t.rx rd = mapGet 0 s.cur.mcsr 0x340)) ∧
  (∀ (s : State) (k : CsrKind) (rd src : Reg) (n : BitVec 12), (n.toNat = 0x302 ∨ n.toNat = 0x3FF ∨ n.toNat = 0xF10) →
    exec (.csrAccess k rd src n) s = .next (raiseCore s ⟨cILLEGAL, s.cur.iword.toNat, 0, false⟩)) ∧
  (∀ (s : State) (rd src : Reg) (n : BitVec 12), 0xF11 ≤ n.toNat → n.toNat ≤ 0xF15 →
    exec (.csrAccess .rw rd src n) s = .next (raiseCore s ⟨cILLEGAL, s.cur.iword.toNat, 0, false⟩))

/-- fence, fence.tso and fence.i complete and change nothing; ecall, mret, sret, wfi and sfence.vma raise ILLEGAL in user mode, as
does every reserved encoding. In machine mode, which only the tile monitor enters, ecall saves the pc and goes to the machine
vector, mret returns to the saved pc with the interrupt enable and the mode that mstatus stacked, and wfi completes: the
privileged architecture's, from outside the manual (log entry 7). -/
def Obligations.FencesAndPrivilegedForms : Prop :=
  (∀ (s : State) (k : FenceKind), exec (.fence k) s = .next (finish s)) ∧
  (∀ (s : State) (k : PrivKind), s.cur.machine = false →
    exec (.ecall k) s = .next (raiseCore s ⟨cILLEGAL, s.cur.iword.toNat, 0, false⟩)) ∧
  (∀ (s : State) (w : Word), exec (.baseInstruction (.reserved w)) s = .next (raiseCore s ⟨cILLEGAL, s.cur.iword.toNat, 0, false⟩)) ∧
  (∀ s : State, s.cur.machine = true →
    exec (.ecall .wfi) s = .next (finish s) ∧
    (∃ t : State, exec (.ecall .ecall) s = .next t ∧ t.cur.pc = mapGet 0 s.cur.mcsr 0x305 &&& 0xFFFFFFFFFFFFFFFC ∧
      mapGet 0 t.cur.mcsr 0x341 = s.cur.pc ∧ mapGet 0 t.cur.mcsr 0x342 = 11 ∧ (∀ r, t.rx r = s.rx r)) ∧
    (∃ t : State, exec (.ecall .mret) s = .next t ∧ t.cur.pc = mapGet 0 s.cur.mcsr 0x341 ∧
      (∀ n, n ≠ 0x300 → mapGet 0 t.cur.mcsr n = mapGet 0 s.cur.mcsr n) ∧
      (mapGet 0 t.cur.mcsr 0x300).getLsbD 3 = (mapGet 0 s.cur.mcsr 0x300).getLsbD 7 ∧
      (mapGet 0 t.cur.mcsr 0x300).getLsbD 7 = true ∧ (mapGet 0 t.cur.mcsr 0x300).toNat / 2 ^ 11 % 4 = 0 ∧
      t.cur.machine = decide ((mapGet 0 s.cur.mcsr 0x300).toNat / 2 ^ 11 % 4 = 3)))

/-- io.cfg in window mode, for a port that does not stream, a window open on the tile with whole words and EXD 0, and in tensor
mode, for a descriptor that passes its checks and names a tensor of that page size, leaves the port READY at the first token
with that configuration and every other port as it stood; a STREAMING port raises RESOURCE. A window that is not open, has no whole words or
comes with an EXD, a descriptor that fails a check (which checks is spelt out) and a page size that is not the tensor's raise CFGREJECT, a
tensor with no valid descriptor APERTURE and a descriptor's address that is no multiple of 8 ALIGN, and no port changes. io.arm makes a port that is READY,
DONE or HALTED STREAMING at its first token with an empty queue and MOVED 0; it leaves a STREAMING port alone, and an IDLE
one raises RESOURCE. -/
def Obligations.PortConfigure : Prop :=
  (∀ (s : State) (a b : Reg) (p w : Nat) (sc : Bool) (x : Window), p < 16 → w < 64 →
    s.rn b = p + 2 ^ 4 * bit01 sc + 2 ^ 9 + 2 ^ 10 * w → s.rn a = 0 → ((s.tile s.ft).port p).stat ≠ .streaming →
    (s.tile s.ft).win (windowKey (s.taskLaunch s.ft s.fslot) w) = some x → x.tok % 4 = 0 →
    ∃ t : State, exec (.ioCfg a b) s = .next t ∧ ((t.tile s.ft).port p).stat = .ready ∧ ((t.tile s.ft).port p).cfg.wm = true ∧
      ((t.tile s.ft).port p).cfg.win = windowKey (s.taskLaunch s.ft s.fslot) w ∧ ((t.tile s.ft).port p).cfg.sc = sc ∧ ((t.tile s.ft).port p).queue = [] ∧
      ((t.tile s.ft).port p).nextStep = 0 ∧
      (∀ q, q ≠ p → (t.tile s.ft).port q = (s.tile s.ft).port q) ∧ t.cur = s.cur.advance ∧ t.mem = s.mem) ∧
  (∀ (s : State) (a b : Reg) (p exd : Nat) (sc : Bool) (bs : List Byte) (d : TDesc), p < 16 → exd < 4 →
    s.rn b = p + 2 ^ 4 * bit01 sc + 2 ^ 5 * exd → ((s.tile s.ft).port p).stat ≠ .streaming → readSpad s (s.rn a) 48 8 = .ok bs →
    portDescFail bs p exd = none → descOf s (s.taskCtx s.ft s.fslot) (parseBind bs).tensor = some d →
    d.pg = (parseBind bs).pageCode →
    ∃ t : State, exec (.ioCfg a b) s = .next t ∧ ((t.tile s.ft).port p).stat = .ready ∧
      ((t.tile s.ft).port p).cfg = (parseBind bs).cfg exd sc ∧ ((t.tile s.ft).port p).queue = [] ∧
      ((t.tile s.ft).port p).nextStep = 0 ∧
      (∀ q, q ≠ p → (t.tile s.ft).port q = (s.tile s.ft).port q) ∧ t.cur = s.cur.advance ∧ t.mem = s.mem) ∧
  (∀ (s : State) (a b : Reg), s.rn b < 2 ^ 16 → s.rn b / 2 ^ 7 % 4 = 0 → ((s.tile s.ft).port (s.rn b % 16)).stat = .streaming →
    exec (.ioCfg a b) s = .next (raiseCore s ⟨cRESOURCE, s.cur.iword.toNat, 0, false⟩)) ∧
  (∀ (s : State) (a b : Reg) (p w exd : Nat), p < 16 → w < 64 → exd < 4 → s.rn b = p + 2 ^ 5 * exd + 2 ^ 9 + 2 ^ 10 * w → s.rn a = 0 →
    ((s.tile s.ft).port p).stat ≠ .streaming →
    ((s.tile s.ft).win (windowKey (s.taskLaunch s.ft s.fslot) w) = none ∨
      (∃ x, (s.tile s.ft).win (windowKey (s.taskLaunch s.ft s.fslot) w) = some x ∧ (x.tok % 4 ≠ 0 ∨ exd ≠ 0))) →
    ∃ tr : Trap, tr.cause = cCFGREJECT ∧ exec (.ioCfg a b) s = .next (raiseCore s tr)) ∧
  (∀ (s : State) (a b : Reg) (p exd : Nat), p < 16 → exd < 4 → s.rn b = p + 2 ^ 5 * exd → ((s.tile s.ft).port p).stat ≠ .streaming →
    (s.rn a < 2 ^ 21 → s.rn a % 8 ≠ 0 → exec (.ioCfg a b) s = .next (raiseCore s ⟨cALIGN, s.rn a, 8, false⟩)) ∧
    (∀ bs, readSpad s (s.rn a) 48 8 = .ok bs →
      (portDescFail bs p exd ≠ none →
        ∃ tr : Trap, tr.cause = cCFGREJECT ∧ tr.w3 = s.rn a ∧ exec (.ioCfg a b) s = .next (raiseCore s tr)) ∧
      (portDescFail bs p exd = none → descOf s (s.taskCtx s.ft s.fslot) (fieldAt bs 4 2) = none →
        ∃ tr : Trap, tr.cause = cAPERTURE ∧ tr.w2 = 2 ^ 63 + fieldAt bs 4 2 * 2 ^ 47 ∧ exec (.ioCfg a b) s = .next (raiseCore s tr)) ∧
      (∀ d, portDescFail bs p exd = none → descOf s (s.taskCtx s.ft s.fslot) (fieldAt bs 4 2) = some d → d.pg ≠ fieldAt bs 2 1 / 2 % 4 →
        ∃ tr : Trap, tr.cause = cCFGREJECT ∧ tr.w3 = s.rn a ∧ exec (.ioCfg a b) s = .next (raiseCore s tr)))) ∧
  (∀ (bs : List Byte) (p exd : Nat), portDescFail bs p exd = none ↔
    fieldAt bs 0 1 = p ∧ fieldAt bs 2 1 % 2 = (if 8 ≤ p then 1 else 0) ∧ 1 ≤ fieldAt bs 3 1 ∧ fieldAt bs 3 1 ≤ 4 ∧ exd < fieldAt bs 3 1 ∧
      fieldAt bs 2 1 / 2 % 4 ≠ 3 ∧ ∀ i, i < fieldAt bs 3 1 → fieldAt bs (8 + 2 * i) 2 ≠ 0) ∧
  (∀ (s : State) (tr : Trap) (q : Nat), ((raiseCore s tr).tile s.ft).port q = (s.tile s.ft).port q) ∧
  (∀ (s : State) (a : Reg) (p : Nat) (ev : Bool), p < 16 → s.rn a = p + 2 ^ 8 * bit01 ev →
    ((((s.tile s.ft).port p).stat = .ready ∨ ((s.tile s.ft).port p).stat = .done ∨ ((s.tile s.ft).port p).stat = .halted) →
      ∃ t : State, exec (.ioArm a) s = .next t ∧ ((t.tile s.ft).port p).stat = .streaming ∧ ((t.tile s.ft).port p).queue = [] ∧
        ((t.tile s.ft).port p).nextStep = 0 ∧ ((t.tile s.ft).port p).moved = 0 ∧ ((t.tile s.ft).port p).ev = ev ∧
        ((t.tile s.ft).port p).cfg = ((s.tile s.ft).port p).cfg ∧
        (∀ q, q ≠ p → (t.tile s.ft).port q = (s.tile s.ft).port q) ∧ t.cur = s.cur.advance ∧ t.mem = s.mem) ∧
    (((s.tile s.ft).port p).stat = .streaming → exec (.ioArm a) s = .next (finish s)) ∧
    (((s.tile s.ft).port p).stat = .idle →
      exec (.ioArm a) s = .next (raiseCore s ⟨cRESOURCE, s.cur.iword.toNat, 0, false⟩)))

/-- io.halt leaves a port that is not IDLE HALTED with an empty queue and nothing held, an inbound one with MOVED as it was, and
an IDLE port alone; where a write that it performs must wait for a free slot of its window, which happens in window mode with tokens queued only, the form waits. io.stat gives MOVED, the queue's length, HELD and the state's code, and changes no port and no byte that
any observer reads. A port number above 15 or a reserved bit raises ILLEGAL. -/
def Obligations.PortHaltAndStat : Prop :=
  (∀ (s : State) (a : Reg), s.rn a < 16 →
    (((s.tile s.ft).port (s.rn a)).stat = .idle → exec (.ioHalt a) s = .next (finish s)) ∧
    (((s.tile s.ft).port (s.rn a)).stat ≠ .idle →
      s.rn a < 8 ∨ portWaits (flushPort s.ft (s.rn a) 16 s) s.ft (s.rn a) = false →
      ∃ t : State, exec (.ioHalt a) s = .next t ∧
      ((t.tile s.ft).port (s.rn a)).stat = .halted ∧ ((t.tile s.ft).port (s.rn a)).queue = [] ∧
      ((t.tile s.ft).port (s.rn a)).held = none ∧
      (s.rn a < 8 → ((t.tile s.ft).port (s.rn a)).moved = ((s.tile s.ft).port (s.rn a)).moved ∧ t.cur = s.cur.advance ∧
        (∀ q, q ≠ s.rn a → (t.tile s.ft).port q = (s.tile s.ft).port q) ∧ ∀ o x, t.byteAt o x = s.byteAt o x)) ∧
    (8 ≤ s.rn a → ((s.tile s.ft).port (s.rn a)).cfg.wm = false ∨ ((s.tile s.ft).port (s.rn a)).queue = [] →
      portWaits (flushPort s.ft (s.rn a) 16 s) s.ft (s.rn a) = false) ∧
    (∀ x, 8 ≤ s.rn a → ((s.tile s.ft).port (s.rn a)).stat = .streaming → ((s.tile s.ft).port (s.rn a)).held = none →
      ((s.tile s.ft).port (s.rn a)).queue ≠ [] → ((s.tile s.ft).port (s.rn a)).cfg.wm = true →
      s.win s.ft ((s.tile s.ft).port (s.rn a)).cfg.win = some x → 4 ≤ x.tok →
      freeCount x (s.prod s.ft s.ft ((s.tile s.ft).port (s.rn a)).cfg.win) = 0 →
      ∃ t : State, exec (.ioHalt a) s = .next t ∧ Blocks s t)) ∧
  (∀ (s : State) (d a : Reg), s.rn a < 16 → ∃ t : State, exec (.ioStat d a) s = .next t ∧
    t.cur = (s.cur.wx d (BitVec.ofNat 64 (((s.tile s.ft).port (s.rn a)).moved.toNat * 2 ^ 16 +
      ((s.tile s.ft).port (s.rn a)).queue.length * 2 ^ 8 + (if ((s.tile s.ft).port (s.rn a)).held.isSome then 8 else 0) +
      (match ((s.tile s.ft).port (s.rn a)).stat with
        | .idle => 0 | .ready => 1 | .streaming => 2 | .done => 3 | .halted => 4)))).advance ∧
    (t.tile s.ft).fabric = (s.tile s.ft).fabric ∧ ∀ o x, t.byteAt o x = s.byteAt o x) ∧
  (∀ (s : State) (d a : Reg), 16 ≤ s.rn a →
    exec (.ioHalt a) s = .next (raiseCore s ⟨cILLEGAL, s.cur.iword.toNat, 0, false⟩) ∧
    exec (.ioStat d a) s = .next (raiseCore s ⟨cILLEGAL, s.cur.iword.toNat, 0, false⟩))

/-- A STREAMING inbound port of a tensor-mode walk with room in its queue fetches the token of its next step: the four bytes of
the tensor as the port reads them, with the tensor's format code and SC as its tag; the walk moves on.
A STREAMING outbound one performs the write of its oldest token: the queue loses it, the token's place holds the token's bytes as the port
reads it and at home, no byte outside the token's place
changes for any observer, and after the last token of the walk the port is DONE. In window mode a token fills the next word of the window's next
free slot, where every observer reads it. A fetch takes a queue to no more than 16 tokens, and a token that lands takes the entry reserved for it, so
that queue and reserved entries together grow no longer (R216). -/
def Obligations.PortTokens : Prop :=
  (∀ (s : State) (t p off : Nat) (ps : List Part), p < 8 → ((s.tile t).port p).stat = .streaming →
    ((s.tile t).port p).queue.length < 16 → ((s.tile t).port p).held = none → ((s.tile t).port p).cfg.wm = false →
    ((s.tile t).port p).nextStep < ((s.tile t).port p).cfg.total →
    stepOffset s (s.taskCtx t (s.slot t)) ((s.tile t).port p).cfg ((s.tile t).port p).nextStep .read = .ok off →
    (xlate s (s.taskCtx t (s.slot t)) ((s.tile t).port p).cfg.tensor off 4 .read kSTREAM p).res = .ok ps →
    ∃ (u : State) (k : PortTok), exec (.portTokenFetch t p) s = .next u ∧ ((u.tile t).port p).queue = ((s.tile t).port p).queue ++ [k] ∧
      k.val.bits = BitVec.ofNat 32 (leNat (s.readParts (.tile t (6 + p)) ps)) ∧
      k.val.tag = BitVec.ofNat 8 (portFmt s (s.taskCtx t (s.slot t)) ((s.tile t).port p).cfg +
        128 * bit01 ((s.tile t).port p).cfg.sc) ∧
      ((u.tile t).port p).nextStep = ((s.tile t).port p).nextStep + 1 ∧ ((u.tile t).port p).stat = .streaming ∧ u.mem = s.mem) ∧
  (∀ (s : State) (t p off : Nat) (k : PortTok) (rest : List PortTok) (ps : List Part), 8 ≤ p →
    ((s.tile t).port p).stat = .streaming → ((s.tile t).port p).held = none → ((s.tile t).port p).cfg.wm = false →
    ((s.tile t).port p).queue = k :: rest →
    stepOffset s (s.taskCtx t (s.slot t)) ((s.tile t).port p).cfg k.step .write = .ok off →
    (xlate s (s.taskCtx t (s.slot t)) ((s.tile t).port p).cfg.tensor off 4 .write kSTREAM p).res = .ok ps →
    ∃ u : State, exec (.portTokenWrite t p) s = .next u ∧ ((u.tile t).port p).queue = rest ∧
      ((u.tile t).port p).written = ((s.tile t).port p).written + 1 ∧
      (((u.tile t).port p).stat = .done ↔ ((s.tile t).port p).written + 1 = ((s.tile t).port p).cfg.total) ∧
      (∀ a, ps = [⟨a, 4⟩] → ∀ j, j < 4 → u.byteAt (.tile t (6 + p)) (a + j) = byteOf k.val.bits.toNat j ∧
        u.homeByte (a + j) = byteOf k.val.bits.toNat j) ∧
      (∀ o x, outside ps x → u.byteAt o x = s.byteAt o x)) ∧
  (∀ (s : State) (t p : Nat) (k : PortTok) (rest : List PortTok) (x : Window), 8 ≤ p →
    ((s.tile t).port p).stat = .streaming → ((s.tile t).port p).held = none → ((s.tile t).port p).cfg.wm = true →
    ((s.tile t).port p).queue = k :: rest → s.win t ((s.tile t).port p).cfg.win = some x → x.outWord + 1 < x.tok / 4 →
    (s.prod t t ((s.tile t).port p).cfg.win).occ < x.cap →
    ∃ u : State, exec (.portTokenWrite t p) s = .next u ∧ ((u.tile t).port p).queue = rest ∧
      u.win t ((s.tile t).port p).cfg.win = some { x with outWord := x.outWord + 1 } ∧
      ∀ o y, u.byteAt o y =
        if spadBase t + x.slotOff (s.prod t t ((s.tile t).port p).cfg.win).wr + 4 * x.outWord ≤ y ∧
          y < spadBase t + x.slotOff (s.prod t t ((s.tile t).port p).cfg.win).wr + 4 * x.outWord + 4
        then byteOf k.val.bits.toNat (y - (spadBase t + x.slotOff (s.prod t t ((s.tile t).port p).cfg.win).wr + 4 * x.outWord))
        else s.byteAt o y) ∧
  (∀ (s u : State) (t p : Nat), ((s.tile t).port p).queue.length ≤ 16 → exec (.portTokenFetch t p) s = .next u →
    ((u.tile t).port p).queue.length ≤ 16) ∧
  (∀ (v : Tile) (p : Nat) (x : TVal), 0 < (v.port p).reserved →
    ((landToken v p x).port p).queue.length + ((landToken v p x).port p).reserved ≤ (v.port p).queue.length + (v.port p).reserved)

/-- rw.open opens a window from a descriptor that passes its checks, with both indices, the lap counter and the occupancy 0 and
rd 0; of an open window rd is 1 and nothing changes. rw.push by the producer, with N within the free count and a copy slot free,
enters a copy into the tile-copy unit and takes N slots; N = 0 has no effect; with too few slots it raises RESOURCE. rw.pop with
REL consumes N tokens at once; without REL it enters a copy and stays blocked at its instruction; of more tokens than the window holds it raises
RESOURCE. What these forms, the messages and the end of a push leave keeps the bound WindowBound: the tokens in a window, on their way to it and
released from it are no more than its producer counts, and those no more than its capacity. -/
def Obligations.WindowMoves : Prop :=
  (∀ (s : State) (d a b : Reg) (w k : Nat) (bs : List Byte), s.rn a = w → w < 64 → k = windowKey (s.taskLaunch s.ft s.fslot) w → readSpad s (s.rn b) 32 8 = .ok bs →
    ((s.tile s.ft).win k ≠ none → exec (.rwOpen d a b) s = .next (finishRd s d 1)) ∧
    ((s.tile s.ft).win k = none → windowFail s s.ft bs = none →
      ∃ (t : State) (x : Window), exec (.rwOpen d a b) s = .next t ∧ (t.tile s.ft).win k = some x ∧ x.base = fieldAt bs 0 4 ∧
        x.tok = fieldAt bs 4 2 + 1 ∧ x.cap = fieldAt bs 6 2 ∧ x.pTile = fieldAt bs 8 2 / 4 ∧ x.rd = 0 ∧ x.wr = 0 ∧ x.occ = 0 ∧
        x.lap = 0 ∧ t.cur = (s.cur.wx d 0).advance ∧ t.mem = s.mem)) ∧
  (∀ (s : State) (a b : Reg) (r : WinRef) (x : Window), winRef (s.taskLaunch s.ft s.fslot) s.ft (s.rn a) = r → r.reserved = false → r.badTile = false →
    r.rel = false → r.space = false → (s.tile r.tile).win r.w = some x → x.pTile = s.ft → x.pPkg = s.pkg.num →
    monitorCheck s s.ft s.fslot r.w (s.rn a) x true (s.prod s.ft r.tile r.w).pCount r.n = none →
    (x.cap - (s.prod s.ft r.tile r.w).occ < r.n →
      exec (.rwPush a b) s = .next (raiseCore s ⟨cRESOURCE, s.cur.iword.toNat, 0, false⟩)) ∧
    (r.n = 0 → exec (.rwPush a b) s = .next (finish s)) ∧
    (0 < r.n → r.n ≤ x.cap - (s.prod s.ft r.tile r.w).occ → (s.tile s.ft).slotsUsed < 96 →
      ∃ (t : State) (c : Copy), exec (.rwPush a b) s = .next t ∧ (t.tile s.ft).copies = (s.tile s.ft).copies ++ [c] ∧
        c.kind = .push r.w r.n r.tile ∧ c.src = s.rx b ∧ c.rows = r.n ∧ c.rowBytes = x.tok ∧
        (t.prod s.ft r.tile r.w).wr = ((s.prod s.ft r.tile r.w).wr + r.n) % x.cap ∧
        (t.prod s.ft r.tile r.w).occ = (s.prod s.ft r.tile r.w).occ + r.n ∧ (t.prod s.ft r.tile r.w).occ ≤ x.cap ∧ t.cur = s.cur.advance ∧
        (∀ y, t.homeByte y = s.homeByte y) ∧ (∀ u c y, c < 3 → t.byteAt (.tile u c) y = s.byteAt (.tile u c) y))) ∧
  (∀ (s : State) (a b : Reg) (r : WinRef) (x : Window), winRef (s.taskLaunch s.ft s.fslot) s.ft (s.rn a) = r → r.reserved = false → r.badTile = false →
    r.rmt = false → r.space = false → (s.tile s.ft).win r.w = some x → popInFlight s r.w = false → x.proxy = false →
    monitorCheck s s.ft s.fslot r.w (s.rn a) x false x.cCount r.n = none →
    (r.rel = true → s.rn b = 0 → 0 < r.n → r.n ≤ x.occ →
      ∃ (t : State) (y : Window), exec (.rwPop a b) s = .next t ∧ (t.tile s.ft).win r.w = some y ∧ y.rd = (x.rd + r.n) % x.cap ∧ y.occ = x.occ - r.n ∧
        y.lap = (x.lap + (x.rd + r.n) / x.cap) % 2 ^ 16 ∧ y.wr = x.wr ∧ t.cur = s.cur.advance ∧ (∀ z, t.homeByte z = s.homeByte z)) ∧
    ((r.rel = true → s.rn b = 0) → x.occ < r.n →
      exec (.rwPop a b) s = .next (raiseCore s ⟨cRESOURCE, s.cur.iword.toNat, 0, false⟩)) ∧
    (r.rel = false → 0 < r.n → r.n ≤ x.occ → (s.tile s.ft).slotsUsed < 96 →
      ∃ (t : State) (c : Copy), exec (.rwPop a b) s = .next t ∧ (t.tile s.ft).copies = (s.tile s.ft).copies ++ [c] ∧ c.kind = .pop r.w ∧
        c.dst = s.rx b ∧ c.rows = r.n ∧ t.cur.pc = s.cur.pc ∧ t.cur.blocked = true ∧ (∀ q, t.rx q = s.rx q))) ∧
  (∀ (s u : State) (a b : Reg) (r : WinRef), winRef (s.taskLaunch s.ft s.fslot) s.ft (s.rn a) = r → WindowBound s r.tile r.w →
    exec (.rwPush a b) s = .next u ∨ exec (.rwPop a b) s = .next u → WindowBound u r.tile r.w) ∧
  (∀ (s u : State) (t w : Nat), WindowBound s t w → exec (.advanceMessage t w) s = .next u ∨ exec (.releaseMessage t w) s = .next u →
    WindowBound u t w) ∧
  (∀ (s u : State) (t w i n : Nat) (x : Window) (c : Copy), WindowBound s t w → (s.tile t).win w = some x → (s.tile x.pTile).copies[i]? = some c →
    c.kind = .push w n t → exec (.tileCopyComplete x.pTile i) s = .next u → WindowBound u t w)

/-- rw.wait completes with the count in rd when the count is N or more, or at once with limit 0, and otherwise blocks at its
instruction with no effect; when its limit is used up below N, its expiry puts the count in rd and raises WAITEXP, with the window, SPACE, N and
both indices in the record (the bit that holds SPACE is the model's choice, log entry 24). rw.stat
gives LAP, OCC, WIDX and RIDX, and rw.lap the lap counter, the pacing bit and the base, as the tile knows them. -/
def Obligations.WindowTests : Prop :=
  (∀ (s : State) (d a b : Reg) (r : WinRef) (x : Window), winRef (s.taskLaunch s.ft s.fslot) s.ft (s.rn a) = r → r.reserved = false → r.badTile = false →
    r.ev = false → r.rel = false → (r.space = false → r.rmt = false) → (s.tile r.tile).win r.w = some x → s.rn b < 2 ^ 32 →
    (r.n ≤ waitCount s r x ∨ s.rn b = 0 → ∃ t : State, exec (.rwWait d a b) s = .next t ∧
      t.cur = (s.cur.wx d (BitVec.ofNat 64 (waitCount s r x))).advance ∧ (∀ y, t.homeByte y = s.homeByte y) ∧
      (t.tile r.tile).win r.w = some x) ∧
    (waitCount s r x < r.n → s.rn b ≠ 0 → ∃ t : State, exec (.rwWait d a b) s = .next t ∧ t.cur.pc = s.cur.pc ∧
      t.cur.blocked = true ∧ t.cur.instret = s.cur.instret ∧ (∀ q, t.rx q = s.rx q) ∧ t.mem = s.mem)) ∧
  (∀ (s : State) (r : WinRef) (x : Window), (r.space = false → waitCount s r x = x.occ) ∧
    (r.space = true → x.pTile = s.ft → x.pPkg = s.pkg.num → waitCount s r x = x.cap - (s.prod s.ft r.tile r.w).occ)) ∧
  (∀ (s : State) (t c : Nat) (d a b : Reg) (r : WinRef) (x : Window), c < 3 → ((s.tile t).core c).stat = .run →
    ((s.tile t).core c).blocked = true →
    decodeFetched ((s.tile t).core c).iword ((s.tile t).core c).ilen = .rwWait d a b →
    winRef (s.taskLaunch t (s.slot t)) t (((s.tile t).core c).rx a).toNat = r → (s.tile r.tile).win r.w = some x →
    waitCount { s with focus := (t, c) } r x < r.n → 0 < (((s.tile t).core c).rx b).toNat →
    (((s.tile t).core c).rx b).toNat ≤ ((s.tile t).core c).waited →
    exec (.rwWaitExpiry t c) s = .next { raiseCore ({ s with focus := (t, c) }.wx d
        (BitVec.ofNat 64 (waitCount { s with focus := (t, c) } r x)))
      ⟨cWAITEXP, 1 + 2 ^ 8 * (r.w % 64) + 2 ^ 14 * bit01 r.space + 2 ^ 16 * r.n + 2 ^ 32 * (winView { s with focus := (t, c) } r x).2.1 +
        2 ^ 48 * (winView { s with focus := (t, c) } r x).1, 0, false⟩ with focus := s.focus }) ∧
  (∀ (s : State) (d a : Reg) (r : WinRef) (x : Window), winRef (s.taskLaunch s.ft s.fslot) s.ft (s.rn a) = r → r.reserved = false → r.badTile = false →
    r.ev = false → r.rel = false → r.space = false → r.n = 0 → (s.tile r.tile).win r.w = some x →
    (r.rmt = false → x.proxy = false →
      exec (.rwStat d a) s = .next (finishRd s d (BitVec.ofNat 64 (x.rd + 2 ^ 16 * x.wr + 2 ^ 32 * x.occ + 2 ^ 48 * x.lap))) ∧
      exec (.rwLap d a) s = .next (finishRd s d (BitVec.ofNat 64 (x.lap + 2 ^ 16 * bit01 x.pace + 2 ^ 32 * x.base)))) ∧
    (r.rmt = true → x.pTile = s.ft → x.pPkg = s.pkg.num →
      exec (.rwStat d a) s = .next (finishRd s d (BitVec.ofNat 64 ((s.prod s.ft r.tile r.w).rdMirror +
        2 ^ 16 * (s.prod s.ft r.tile r.w).wr + 2 ^ 32 * (s.prod s.ft r.tile r.w).occ + 2 ^ 48 * (s.prod s.ft r.tile r.w).lapMirror))) ∧
      exec (.rwLap d a) s = .next (finishRd s d (BitVec.ofNat 64 ((s.prod s.ft r.tile r.w).lapMirror +
        2 ^ 16 * bit01 x.pace + 2 ^ 32 * x.base))))) ∧
  (∀ q own x : Nat, (winRef q own x).n = x / 2 ^ 48 % 2 ^ 16 ∧ (winRef q own x).w = q * 64 + x % 64 ∧
    (winRef q own x).ev = decide (x / 2 ^ 8 % 2 = 1) ∧ (winRef q own x).rel = decide (x / 2 ^ 7 % 2 = 1) ∧
    (winRef q own x).space = decide (x / 2 ^ 6 % 2 = 1) ∧
    ((winRef q own x).badTile = decide (23 < x / 2 ^ 23 % 32 ∨ 23 < x / 2 ^ 14 % 32)) ∧
    (x / 2 ^ 31 % 2 = 0 → (winRef q own x).tile = own ∧ (winRef q own x).rmt = false))

/-- The oldest advance message moves the window's write index by its count and adds it to the occupancy; the oldest release
message gives the producer's copy its read index and lap and frees its slots; each leaves the window's messages without it. At a
proxy the release is the remote consumer's (log entry 28), and how many tokens it covers is free, within those it can have taken (log entry 5). -/
def Obligations.WindowMessages : Prop :=
  (∀ (s : State) (t w : Nat) (g : WinMsg) (x : Window), (s.tile t).win w = some x →
    (mapGet [] s.msgs (winNo t w)).find? (fun m => m.advance) = some g →
    ∃ (u : State) (y : Window), exec (.advanceMessage t w) s = .next u ∧ (u.tile t).win w = some y ∧ y.wr = (x.wr + g.n) % x.cap ∧ y.occ = x.occ + g.n ∧
      y.rd = x.rd ∧ y.lap = x.lap ∧ mapGet [] u.msgs (winNo t w) = (mapGet [] s.msgs (winNo t w)).eraseP (fun m => m.advance) ∧
      u.mem = s.mem) ∧
  (∀ (s : State) (t w : Nat) (g : WinMsg) (x : Window), (s.tile t).win w = some x → x.proxy = false →
    (mapGet [] s.msgs (winNo t w)).find? (fun m => !m.advance) = some g →
    ∃ u : State, exec (.releaseMessage t w) s = .next u ∧ (u.prod x.pTile t w).rdMirror = g.index ∧
      (u.prod x.pTile t w).lapMirror = g.lap ∧ (u.prod x.pTile t w).occ = (s.prod x.pTile t w).occ - g.n ∧
      (u.prod x.pTile t w).wr = (s.prod x.pTile t w).wr ∧
      mapGet [] u.msgs (winNo t w) = (mapGet [] s.msgs (winNo t w)).eraseP (fun m => !m.advance) ∧
      (u.tile t).win w = some x ∧ u.mem = s.mem) ∧
  (∀ (s : State) (t w : Nat) (x : Window), (s.tile t).win w = some x → x.proxy = true →
    ∃ (u : State) (n : Nat), exec (.releaseMessage t w) s = .next u ∧ n ≤ (s.prod t t w).occ - x.occ ∧
      (u.prod t t w).occ = (s.prod t t w).occ - n ∧ (u.prod t t w).rdMirror = ((s.prod t t w).rdMirror + n) % x.cap ∧
      (u.tile t).win w = some x ∧ u.mem = s.mem)

/-- tc.copy of a length in range with a slot free, and tc.copy2 of a valid descriptor, return the task's next ticket and put the
copy in flight; a length of 0 completes at once. tc.stat and tc.wait give 8 for a ticket not issued, the kept status of a
complete one and 4 where it is kept no longer; in flight tc.stat gives 16 and tc.wait blocks; the all-copies form of tc.wait, with no tc.copy or
tc.copy2 of the core in flight (the copies of the other forms do not count, log entry 29), gives the status collected for the core and clears it. -/
def Obligations.TileCopyForms : Prop :=
  (∀ (s : State) (d a b : Reg) (n : Nat) (ev : Bool), n < 2 ^ 24 → s.rn d = n + 2 ^ 63 * bit01 ev →
    (0 < n → (s.tile s.ft).slotsUsed < 96 → ∃ (t : State) (c : Copy), exec (.tcCopy d a b) s = .next t ∧
      (t.tile s.ft).copies = (s.tile s.ft).copies ++ [c] ∧ c.kind = .copy ∧ c.src = s.rx b ∧ c.dst = s.rx a ∧ c.rowBytes = n ∧
      c.rows = 1 ∧ c.ev = ev ∧ c.ticket = (s.ext s.ft s.fslot).tcNext ∧
      (t.ext s.ft s.fslot).tcNext = ((s.ext s.ft s.fslot).tcNext + 1) % 2 ^ 31 ∧
      t.cur = (s.cur.wx d (BitVec.ofNat 64 (s.ext s.ft s.fslot).tcNext)).advance ∧ t.mem = s.mem ∧ t.writes = s.writes) ∧
    (n = 0 → ∃ t : State, exec (.tcCopy d a b) s = .next t ∧ (t.tile s.ft).copies = (s.tile s.ft).copies ∧
      t.cur = (s.cur.wx d (BitVec.ofNat 64 (s.ext s.ft s.fslot).tcNext)).advance ∧
      (t.ext s.ft s.fslot).tcNext = ((s.ext s.ft s.fslot).tcNext + 1) % 2 ^ 31 ∧ t.mem = s.mem)) ∧
  (∀ (s : State) (d a b : Reg) (ev : Bool) (bs : List Byte), s.rn d = 2 ^ 63 * bit01 ev → readSpad s (s.rn b) 32 8 = .ok bs →
    1 ≤ fieldAt bs 8 4 → fieldAt bs 8 4 < 2 ^ 24 → 1 ≤ fieldAt bs 0x0C 4 → fieldAt bs 0x0C 4 < 2 ^ 16 →
    (s.tile s.ft).slotsUsed < 96 → ∃ (t : State) (c : Copy), exec (.tcCopy2 d a b) s = .next t ∧
      (t.tile s.ft).copies = (s.tile s.ft).copies ++ [c] ∧ c.kind = .copy ∧ c.src = BitVec.ofNat 64 (fieldAt bs 0 8) ∧
      c.dst = s.rx a ∧ c.rowBytes = fieldAt bs 8 4 ∧ c.rows = fieldAt bs 0x0C 4 ∧ c.srcPitch = sext 64 (fieldAt bs 0x10 8) ∧
      c.dstPitch = sext 64 (fieldAt bs 0x18 8) ∧ c.ticket = (s.ext s.ft s.fslot).tcNext ∧
      t.cur = (s.cur.wx d (BitVec.ofNat 64 (s.ext s.ft s.fslot).tcNext)).advance ∧ t.mem = s.mem) ∧
  (∀ (s : State) (d a : Reg), s.rn a < 2 ^ 31 →
    ((s.rn a + 2 ^ 31 - (s.ext s.ft s.fslot).tcNext) % 2 ^ 31 < 2 ^ 30 →
      exec (.tcStat d a) s = .next (finishRd s d 8) ∧ exec (.tcWait d a) s = .next (finishRd s d 8)) ∧
    (2 ^ 30 ≤ (s.rn a + 2 ^ 31 - (s.ext s.ft s.fslot).tcNext) % 2 ^ 31 →
      (∃ c ∈ (s.tile s.ft).copies, c.kind = .copy ∧ c.slot = s.fslot ∧ c.ticket = s.rn a) →
      exec (.tcStat d a) s = .next (finishRd s d 16) ∧
      ∃ t : State, exec (.tcWait d a) s = .next t ∧ t.cur.pc = s.cur.pc ∧ t.cur.blocked = true ∧ ∀ q, t.rx q = s.rx q) ∧
    (2 ^ 30 ≤ (s.rn a + 2 ^ 31 - (s.ext s.ft s.fslot).tcNext) % 2 ^ 31 →
      (∀ c ∈ (s.tile s.ft).copies, c.kind = .copy → c.slot = s.fslot → c.ticket ≠ s.rn a) →
      ∀ st, st = (if ((s.ext s.ft s.fslot).tcNext + 2 ^ 31 - 1 - s.rn a) % 2 ^ 31 < 256
          then mapGet 0 (s.ext s.ft s.fslot).tcStat (s.rn a % 256) else 4) →
        (∃ t : State, exec (.tcStat d a) s = .next t ∧ t.cur = (s.cur.wx d (BitVec.ofNat 64 st)).advance ∧ ∀ o x, t.byteAt o x = s.byteAt o x) ∧
        (∃ t : State, exec (.tcWait d a) s = .next t ∧ t.cur = (s.cur.wx d (BitVec.ofNat 64 st)).advance ∧ ∀ o x, t.byteAt o x = s.byteAt o x))) ∧
  (∀ (s : State) (d a : Reg), 2 ^ 63 ≤ s.rn a →
    (∀ c ∈ (s.tile s.ft).copies, c.kind = .copy → c.slot = s.fslot → c.core ≠ s.fc) →
    ∃ t : State, exec (.tcWait d a) s = .next t ∧
      t.cur = (s.cur.wx d (BitVec.ofNat 64 (mapGet 0 (s.ext s.ft s.fslot).tcAll s.fc))).advance ∧
      mapGet 0 (t.ext s.ft s.fslot).tcAll s.fc = 0 ∧ ∀ o x, t.byteAt o x = s.byteAt o x)

/-- What the first copy in the unit leaves when it completes, its source being LOCAL: everything is read and written at that one step (log entry 27),
as the unit reads memory. Of one row, overlapping or not, every byte of the destination is what the source byte was before, and every other byte is
as before; other observers see no change yet; the ticket's status is 0 and no register changes. Of several rows to rows that do not overlap, each row
moves its bytes. A push fills the slots of its window, where every observer reads them, and then moves the write index on its own tile or sends the
advance message. A pop copies the tokens of its window out, moves the read index and lets its core go on. A cast
writes each other member's scratchpad, as that member's unit reads (log entry 35). A destination that cannot be reached stops the copy with no byte
written: status 2, and the record goes to the die's manager. A poisoned source byte poisons the destination, with status 1. -/
def Obligations.TileCopyCompletes : Prop :=
  (∀ (s : State) (t : Nat) (c : Copy) (rest : List Copy) (src dst n : Nat), FirstCopy s t c rest src 0 1 n → c.kind = .copy → c.dstPitch = 0 →
    c.dst = BitVec.ofNat 64 dst → dst + n ≤ 2 ^ 21 → cleanRows s t src 0 1 n →
    ∃ u : State, exec (.tileCopyComplete t 0) s = .next u ∧ (u.tile t).copies = rest ∧
      (∀ x, u.byteAt (.tile t 4) x =
        if spadBase t + dst ≤ x ∧ x < spadBase t + dst + n then s.byteAt (.tile t 4) (x - dst + src) else s.byteAt (.tile t 4) x) ∧
      (∀ o x, o ≠ .tile t 4 → u.byteAt o x = s.byteAt o x) ∧ statusIs u t c 0 ∧
      (∀ k r, ((u.tile t).core k).rx r = ((s.tile t).core k).rx r)) ∧
  (∀ (s : State) (t : Nat) (c : Copy) (rest : List Copy) (src dst sp dp rows n : Nat), FirstCopy s t c rest src sp rows n → c.kind = .copy →
    c.dst = BitVec.ofNat 64 dst → c.dstPitch = (dp : Int) → n ≤ dp → dst + dp * (rows - 1) + n ≤ 2 ^ 21 → cleanRows s t src sp rows n →
    ∃ u : State, exec (.tileCopyComplete t 0) s = .next u ∧ (u.tile t).copies = rest ∧ statusIs u t c 0 ∧
      (∀ r i, r < rows → i < n →
        u.byteAt (.tile t 4) (spadBase t + dst + dp * r + i) = s.byteAt (.tile t 4) (spadBase t + src + sp * r + i)) ∧
      (∀ o x, o ≠ .tile t 4 → u.byteAt o x = s.byteAt o x)) ∧
  (∀ (s : State) (t : Nat) (c : Copy) (rest : List Copy) (w tile src n : Nat) (x : Window), FirstCopy s t c rest src x.tok n x.tok →
    c.kind = .push w n tile → s.win tile w = some x → x.proxy = false → n ≤ x.cap → cleanRows s t src x.tok n x.tok →
    ∃ (u : State) (y : Window), exec (.tileCopyComplete t 0) s = .next u ∧ (u.tile t).copies = rest ∧ u.win tile w = some y ∧
      (∀ o r i, r < n → i < x.tok →
        u.byteAt o (spadBase tile + x.slotOff (c.dst.toNat + r) + i) = s.byteAt (.tile t 4) (spadBase t + src + x.tok * r + i)) ∧
      (tile = t → y.wr = (x.wr + n) % x.cap ∧ y.occ = x.occ + n ∧ u.msgs = s.msgs) ∧
      (tile ≠ t → y = x ∧ mapGet [] u.msgs (winNo tile w) = mapGet [] s.msgs (winNo tile w) ++ [⟨true, n, 0, 0, none⟩])) ∧
  (∀ (s : State) (t : Nat) (c : Copy) (rest : List Copy) (w dst n : Nat) (x : Window), (s.tile t).copies = c :: rest → c.held = none →
    c.mask = [] → c.kind = .pop w → c.ev = false → c.after = 0 → c.rows = n → 0 < n → c.rowBytes = x.tok → 0 < x.tok → s.win t w = some x →
    n ≤ x.cap → x.base + x.cap * x.tok ≤ 2 ^ 21 → c.dst = BitVec.ofNat 64 dst → c.dstPitch = (x.tok : Int) → dst + n * x.tok ≤ 2 ^ 21 →
    (∀ i, i < x.cap * x.tok → s.poisonAt (spadBase t + x.base + i) = false) → (s.ext t c.slot).rollback = none →
    ∃ (u : State) (y : Window), exec (.tileCopyComplete t 0) s = .next u ∧ (u.tile t).copies = rest ∧
      (∀ r i, r < n → i < x.tok →
        u.byteAt (.tile t 4) (spadBase t + dst + x.tok * r + i) = s.byteAt (.tile t 4) (spadBase t + x.slotOff (c.src.toNat + r) + i)) ∧
      u.win t w = some y ∧ y.rd = (x.rd + n) % x.cap ∧ y.occ = x.occ - n ∧ y.lap = (x.lap + (x.rd + n) / x.cap) % 2 ^ 16 ∧
      (u.tile t).core c.core = ((s.tile t).core c.core).advance) ∧
  (∀ (s : State) (t gid : Nat) (c : Copy) (rest : List Copy) (src dst n : Nat), FirstCopy s t c rest src 0 1 n → c.kind = .cast gid →
    c.dst = BitVec.ofNat 64 dst → dst + n ≤ 2 ^ 21 → cleanRows s t src 0 1 n →
    ∃ u : State, exec (.tileCopyComplete t 0) s = .next u ∧ (u.tile t).copies = rest ∧
      (∀ v i, v ∈ castTiles s t gid (s.taskLaunch t c.slot) → i < n →
        u.byteAt (.tile v 4) (spadBase v + dst + i) = s.byteAt (.tile v 4) (spadBase t + src + i)) ∧
      (∀ o i, i < 2 ^ 21 → u.byteAt o (spadBase t + i) = s.byteAt o (spadBase t + i))) ∧
  (∀ (s : State) (t : Nat) (c : Copy) (rest : List Copy) (src n : Nat) (tr : Trap), FirstCopy s t c rest src 0 1 n → c.kind = .copy →
    c.dstPitch = 0 → (∀ k, k ≤ n → (s.find (copyWho t c) c.dst.toNat k .write).res = .error tr) → tr.cause ≠ cNOTPRESENT →
    ∃ (u : State) (r : TrapRec × Nat × Option Nat), exec (.tileCopyComplete t 0) s = .next u ∧ (u.tile t).copies = rest ∧ statusIs u t c 2 ∧
      (∀ o x, u.byteAt o x = s.byteAt o x) ∧ (u.die (t / 512)).faults = (s.die (t / 512)).faults ++ [r] ∧ r.1.cause = tr.cause ∧
      r.1.w2 = BitVec.ofNat 64 tr.w2) ∧
  (∀ (s : State) (t : Nat) (c : Copy) (rest : List Copy) (src dst n : Nat), FirstCopy s t c rest src 0 1 n → c.kind = .copy → c.dstPitch = 0 →
    c.dst = BitVec.ofNat 64 dst → dst + n ≤ 2 ^ 21 → src % 8 = 0 → dst % 8 = 0 → n % 8 = 0 →
    (∃ i, i < n ∧ s.poisonAt (spadBase t + src + i) = true) →
    ∃ u : State, exec (.tileCopyComplete t 0) s = .next u ∧ (u.tile t).copies = rest ∧ statusIs u t c 1 ∧
      ∀ i, i < n → s.poisonAt (spadBase t + src + i) = true → u.poisonAt (spadBase t + dst + i) = true)

/-- In the task's range of entries, tg.look completes and gives OFFSET, index and SIZE of the lowest valid entry with the key, and all
ones where there is none; tg.ins of a valid slot word completes and makes the entry with the key, else the lowest invalid one, hold key and
word, with its index in rd, and gives all ones and changes nothing where none is free; tg.inv completes and makes the entry with the key invalid,
or does nothing; tg.slot of an index below the reserve completes and reads the slot word with the valid bit in bit 63, or, with rs1[63] set, the
key, 0 for an invalid entry. In tg.ins a reserved bit that is set or a SIZE of 9 to 15 raises ILLEGAL, an OFFSET that is no multiple of the slot size
ALIGN (a slot at a multiple of its size ends within the scratchpad, so none reaches past it); in tg.slot a reserved bit that is set raises ILLEGAL and an index at or above the reserve APERTURE, with the operand as word 2 (log entry 160). An entry that is set
leaves the others as they stood. -/
def Obligations.TagTable : Prop :=
  (∀ (s : State) (d a : Reg),
    ((∀ i, i < s.tagRange.2 → ¬ ((s.tag i).valid = true ∧ (s.tag i).key = s.rx a)) →
      exec (.tgLook d a) s = .next (finishRd s d (BitVec.allOnes 64)) ∧ exec (.tgInv a) s = .next (finish s)) ∧
    (∀ i, i < s.tagRange.2 → (s.tag i).valid = true → (s.tag i).key = s.rx a →
      (∀ j, j < i → ¬ ((s.tag j).valid = true ∧ (s.tag j).key = s.rx a)) →
      exec (.tgLook d a) s = .next (finishRd s d (BitVec.ofNat 64 ((s.tag i).slot.toNat % 2 ^ 21 + i * 2 ^ 21 +
        (s.tag i).slot.toNat / 2 ^ 24 % 16 * 2 ^ 32))) ∧
      exec (.tgInv a) s = .next (finish (s.setTag i { s.tag i with valid := false })))) ∧
  (∀ (s : State) (d a b : Reg), s.rn b / 2 ^ 28 = 0 → s.rn b / 2 ^ 21 % 8 = 0 → s.rn b / 2 ^ 24 ≤ 8 →
    (s.rn b % 2 ^ 21 % 2 ^ (8 + s.rn b / 2 ^ 24) = 0 →
      (∀ i, i < s.tagRange.2 → (s.tag i).valid = true → (s.tag i).key = s.rx a →
        (∀ j, j < i → ¬ ((s.tag j).valid = true ∧ (s.tag j).key = s.rx a)) →
        exec (.tgIns d a b) s = .next (finishRd (s.setTag i ⟨true, s.rx a, s.rx b⟩) d (BitVec.ofNat 64 i))) ∧
      ((∀ i, i < s.tagRange.2 → ¬ ((s.tag i).valid = true ∧ (s.tag i).key = s.rx a)) →
        (∀ i, i < s.tagRange.2 → (s.tag i).valid = false → (∀ j, j < i → (s.tag j).valid = true) →
          exec (.tgIns d a b) s = .next (finishRd (s.setTag i ⟨true, s.rx a, s.rx b⟩) d (BitVec.ofNat 64 i))) ∧
        ((∀ i, i < s.tagRange.2 → (s.tag i).valid = true) → exec (.tgIns d a b) s = .next (finishRd s d (BitVec.allOnes 64))))) ∧
    (s.rn b % 2 ^ 21 % 2 ^ (8 + s.rn b / 2 ^ 24) ≠ 0 →
      exec (.tgIns d a b) s = .next (raiseCore s ⟨cALIGN, s.rn b % 2 ^ 21, 2 ^ (8 + s.rn b / 2 ^ 24), false⟩))) ∧
  (∀ (s : State) (d a b : Reg), (8 < s.rn b / 2 ^ 24 % 16 ∨ s.rn b / 2 ^ 21 % 8 ≠ 0 ∨ s.rn b / 2 ^ 28 ≠ 0) →
    exec (.tgIns d a b) s = .next (illegalAt s)) ∧
  (∀ (s : State) (d a : Reg) (i : Nat), i < 1024 → i < s.tagRange.2 →
    (s.rn a = i → (s.tag i).valid = true → exec (.tgSlot d a) s = .next (finishRd s d ((s.tag i).slot ||| 0x8000000000000000))) ∧
    (s.rn a = i → (s.tag i).valid = false → exec (.tgSlot d a) s = .next (finishRd s d (s.tag i).slot)) ∧
    (s.rn a = 2 ^ 63 + i → (s.tag i).valid = true → exec (.tgSlot d a) s = .next (finishRd s d (s.tag i).key)) ∧
    (s.rn a = 2 ^ 63 + i → (s.tag i).valid = false → exec (.tgSlot d a) s = .next (finishRd s d 0))) ∧
  (∀ (s : State) (d a : Reg),
    (s.rn a / 2 ^ 10 % 2 ^ 53 ≠ 0 → exec (.tgSlot d a) s = .next (illegalAt s)) ∧
    (s.rn a / 2 ^ 10 % 2 ^ 53 = 0 → s.tagRange.2 ≤ s.rn a % 2 ^ 10 →
      exec (.tgSlot d a) s = .next (raiseCore s (trapAperture (s.rn a) kSCALAR .read)))) ∧
  (∀ (s : State) (i : Nat) (e : TagEntry), (s.setTag i e).tag i = e ∧ ∀ j, j ≠ i → (s.setTag i e).tag j = s.tag j)

/-- ga.cvt: a LOCAL offset becomes the CLUSTER form of the own tile; a CLUSTER address naming the own tile becomes the LOCAL address of
the same byte; one naming another tile and a SHARED address come back as they are; any other address, a core address among
them, gives all ones; the form always completes. ga.test: rd is 1 when rs1 belongs to the class of rs2 (0 valid LOCAL, 1 valid CLUSTER,
2 SHARED with a valid descriptor and a byte within the span, 3 this tile's scratchpad, 4 CLUSTER naming another tile) and 0
otherwise; codes 5 and above raise ILLEGAL. -/
def Obligations.GaForms : Prop :=
  (∀ (s : State) (d a : Reg), s.rn a < 2 ^ 21 →
    exec (.gaCvt d a) s = .next (finishRd s d (BitVec.ofNat 64 (2 ^ 60 + s.ft % 32 * 2 ^ 21 + s.rn a)))) ∧
  (∀ (s : State) (d a : Reg) (c off : Nat), c < 24 → off < 2 ^ 21 → s.rn a = 2 ^ 60 + c * 2 ^ 21 + off →
    (c = s.ft % 32 → exec (.gaCvt d a) s = .next (finishRd s d (BitVec.ofNat 64 off))) ∧
    (c ≠ s.ft % 32 → exec (.gaCvt d a) s = .next (finishRd s d (s.rx a)))) ∧
  (∀ (s : State) (d a : Reg), 2 ^ 63 ≤ s.rn a → exec (.gaCvt d a) s = .next (finishRd s d (s.rx a))) ∧
  (∀ (s : State) (d a : Reg), 2 ^ 21 ≤ s.rn a → s.rn a < 2 ^ 63 →
    (s.rn a < 2 ^ 60 ∨ 2 ^ 60 + 24 * 2 ^ 21 ≤ s.rn a) → exec (.gaCvt d a) s = .next (finishRd s d (BitVec.allOnes 64))) ∧
  (∀ (s : State) (d a b : Reg), s.rn b < 5 → ∃ y : Bool, exec (.gaTest d a b) s = .next (finishRd s d (if y then 1 else 0)) ∧
    (y = true ↔
      (s.rn b = 0 ∧ s.rn a < 2 ^ 21) ∨
      (s.rn b = 1 ∧ 2 ^ 60 ≤ s.rn a ∧ s.rn a < 2 ^ 60 + 24 * 2 ^ 21) ∨
      (s.rn b = 2 ∧ 2 ^ 63 ≤ s.rn a ∧ ∃ dd, descOf s (s.taskCtx s.ft s.fslot) (s.rn a / 2 ^ 47 % 2 ^ 16) = some dd ∧
        s.rn a % 2 ^ 47 < dd.span) ∨
      (s.rn b = 3 ∧ (s.rn a < 2 ^ 21 ∨
        (2 ^ 60 + s.ft % 32 * 2 ^ 21 ≤ s.rn a ∧ s.rn a < 2 ^ 60 + (s.ft % 32 + 1) * 2 ^ 21 ∧ s.ft % 32 < 24))) ∨
      (s.rn b = 4 ∧ 2 ^ 60 ≤ s.rn a ∧ s.rn a < 2 ^ 60 + 24 * 2 ^ 21 ∧
        ¬ (2 ^ 60 + s.ft % 32 * 2 ^ 21 ≤ s.rn a ∧ s.rn a < 2 ^ 60 + (s.ft % 32 + 1) * 2 ^ 21)))) ∧
  (∀ (s : State) (d a b : Reg), 5 ≤ s.rn b →
    exec (.gaTest d a b) s = .next (raiseCore s ⟨cILLEGAL, s.cur.iword.toNat, 0, false⟩))

/-- For each of the seven operations, every scope 0 to 4 and every word that atomicFind reaches (8-byte aligned, translated, not of
a host tensor, not poisoned): the form completes with the old word in rd; the core that issued it reads the combined word at the
address, and the word's home holds it; the write is a strong store of the scope, its one moment for the scope's observers still
to come, and no other observer sees it yet (log entry 31); no other byte changes for any observer; no other register changes. A scope code above 4
raises ILLEGAL and a misaligned address ALIGN before every other cause (log entry 22), of each of them. A LOCAL word that is aligned, within the scratchpad and not poisoned is reached. -/
def Obligations.Atomics : Prop :=
  (∀ (s : State) (d a b : Reg) (sc : BitVec 3) (s1 : State) (pa old new : Nat), sc.toNat < 5 →
    atomicFind s (s.rn a) = (s1, .ok pa) → old = s.homeNat pa 8 →
    ∀ i : Instr, (i = .amAdd d a b sc ∧ new = (old + s.rn b) % 2 ^ 64) ∨
      (i = .amMin d a b sc ∧ new = if sext 64 (s.rn b) < sext 64 old then s.rn b else old) ∨
      (i = .amMax d a b sc ∧ new = if sext 64 old < sext 64 (s.rn b) then s.rn b else old) ∨
      (i = .amAnd d a b sc ∧ new = old &&& s.rn b) ∨ (i = .amOr d a b sc ∧ new = old ||| s.rn b) ∨
      (i = .amXchg d a b sc ∧ new = s.rn b) ∨ (i = .amCas d a b sc ∧ new = if old = s.rn d then s.rn b else old) →
    ∃ t : State, exec i s = .next t ∧ t.cur = (s.cur.wx d (BitVec.ofNat 64 old)).advance ∧
      (∀ j, j < 8 → t.byteAt (.tile s.ft s.fc) (pa + j) = byteOf new j ∧ t.homeByte (pa + j) = byteOf new j) ∧
      (∃ w ∈ t.writes, w.addr = pa ∧ w.bytes = leBytes 8 new ∧ w.writer = .tile s.ft s.fc ∧ w.reach = [.strong s.ft sc.toNat]) ∧
      (∀ o, o ≠ .tile s.ft s.fc → ∀ x, t.byteAt o x = s.byteAt o x) ∧
      (∀ o x, x < pa ∨ pa + 8 ≤ x → t.byteAt o x = s.byteAt o x ∧ t.homeByte x = s.homeByte x)) ∧
  (∀ (s : State) (d a b : Reg) (sc : BitVec 3) (i : Instr), i = .amAdd d a b sc ∨ i = .amMin d a b sc ∨ i = .amMax d a b sc ∨
      i = .amAnd d a b sc ∨ i = .amOr d a b sc ∨ i = .amXchg d a b sc ∨ i = .amCas d a b sc →
    (5 ≤ sc.toNat → exec i s = .next (illegalAt s)) ∧
    (sc.toNat < 5 → s.rn a % 8 ≠ 0 → exec i s = .next (raiseCore s ⟨cALIGN, s.rn a, 8, false⟩))) ∧
  (∀ (s : State) (a : Nat), a % 8 = 0 → a < 2 ^ 21 → s.poisonIn (spadBase s.ft + a) 8 = false →
    atomicFind s a = (s, .ok (spadBase s.ft + a)))

/-- sy.bind of a descriptor within its values writes the slot, length 0 clearing it; a region base of no aperture raises
APERTURE. sy.acq on a lock word of 0 stores LIDX + 1
there and gives 0; on another value it gives that value, the word stays and the core's later loads of it see that value or a
later one; sy.rel on a word that holds LIDX + 1 stores 0, and
on any other raises RESOURCE; in sy.acq and sy.rel a slot that is no lock raises RESOURCE, as does a cleared one (log entry 11), and in each of the three a slot number
above 15 ILLEGAL. -/
def Obligations.BindingsAndLocks : Prop :=
  (∀ (s : State) (a b : Reg) (bs : List Byte), s.rn a < 16 → readSpad s (s.rn b) 32 8 = .ok bs → bindingFail bs = none →
    (gaddr (parseBinding bs).base.toNat).isSome = true → (parseBinding bs).kind ≠ 0 ∨ (parseBinding bs).obj.toNat % 8 = 0 →
    ∃ t : State, exec (.syBind a b) s = .next t ∧ mapGet Binding.zero (t.ext s.ft s.fslot).binds (s.rn a) =
        (if fieldAt bs 8 8 = 0 then Binding.zero else parseBinding bs) ∧
      (∀ k, k ≠ s.rn a → mapGet Binding.zero (t.ext s.ft s.fslot).binds k = mapGet Binding.zero (s.ext s.ft s.fslot).binds k) ∧
      t.cur = s.cur.advance ∧ t.mem = s.mem) ∧
  (∀ (s : State) (a b : Reg) (bs : List Byte), s.rn a < 16 → readSpad s (s.rn b) 32 8 = .ok bs → bindingFail bs = none →
    gaddr (parseBinding bs).base.toNat = none →
    exec (.syBind a b) s = .next (raiseCore s ⟨cAPERTURE, (parseBinding bs).base.toNat, kSCALAR, false⟩)) ∧
  (∀ (s : State) (d a : Reg) (s1 : State) (pa : Nat), s.rn a < 16 →
    (mapGet Binding.zero (s.ext s.ft s.fslot).binds (s.rn a)).kind = 0 → (mapGet Binding.zero (s.ext s.ft s.fslot).binds (s.rn a)).len ≠ 0 →
    atomicFind s (mapGet Binding.zero (s.ext s.ft s.fslot).binds (s.rn a)).obj.toNat = (s1, .ok pa) →
    (s.homeNat pa 8 = 0 → ∃ t : State, exec (.syAcq d a) s = .next t ∧ t.cur = (s.cur.wx d 0).advance ∧
      (∀ j, j < 8 → t.homeByte (pa + j) = byteOf ((s.taskLidx s.ft s.fslot + 1) % 2 ^ 64) j) ∧
      (∀ x, x < pa ∨ pa + 8 ≤ x → t.homeByte x = s.homeByte x)) ∧
    (s.homeNat pa 8 ≠ 0 → ∃ t : State, exec (.syAcq d a) s = .next t ∧ t.cur = (s.cur.wx d (BitVec.ofNat 64 (s.homeNat pa 8))).advance ∧
      (∀ x, t.homeByte x = s.homeByte x) ∧ (∀ j, j < 8 → t.byteAt (.tile s.ft s.fc) (pa + j) = s.homeByte (pa + j))) ∧
    (s.homeNat pa 8 = (s.taskLidx s.ft s.fslot + 1) % 2 ^ 64 → ∃ t : State, exec (.syRel a) s = .next t ∧ t.cur = s.cur.advance ∧
      (∀ j, j < 8 → t.homeByte (pa + j) = 0) ∧ (∀ x, x < pa ∨ pa + 8 ≤ x → t.homeByte x = s.homeByte x)) ∧
    (s.homeNat pa 8 ≠ (s.taskLidx s.ft s.fslot + 1) % 2 ^ 64 → ∃ t : State, exec (.syRel a) s =
        .next (raiseCore t ⟨cRESOURCE, s.cur.iword.toNat, 0, false⟩) ∧ ∀ o x, t.byteAt o x = s.byteAt o x)) ∧
  (∀ (s : State) (d a : Reg), s.rn a < 16 → (mapGet Binding.zero (s.ext s.ft s.fslot).binds (s.rn a)).kind ≠ 0 ∨ (mapGet Binding.zero (s.ext s.ft s.fslot).binds (s.rn a)).len = 0 →
    exec (.syAcq d a) s = .next (raiseCore s ⟨cRESOURCE, s.cur.iword.toNat, 0, false⟩) ∧
    exec (.syRel a) s = .next (raiseCore s ⟨cRESOURCE, s.cur.iword.toNat, 0, false⟩)) ∧
  (∀ (s : State) (d a : Reg), 16 ≤ s.rn a →
    exec (.syAcq d a) s = .next (illegalAt s) ∧ exec (.syRel a) s = .next (illegalAt s) ∧ exec (.syBind a d) s = .next (illegalAt s))

/-- sy.fence.s with a legal scope completes: every SCALAR write of the core that is still on its way is then performed for every
observer within the scope, and the core's later loads see every write of those observers that is performed for it; another core's loads read what they
read before (they may lag behind the writes performed for that core: log entry 31). pf.fence
with legal classes completes: the seen-complete writes of the task on both classes are then performed for every observer. Where SCALAR is
named with another class, writes that the task has acquired are performed for that class's units; and where SCALAR is named, the later loads of the
task's cores see every write that is performed for them (R392), no strong store's moment being still to come.
Neither changes a register but the pc, nor a byte as its home holds it. A write on its way becomes performed for the observer of a number of its own accord:
that observer then reads its bytes, where no later write covers them and it is single-copy atomic; of any other write a part may be performed, so that
each byte reads as before or as written (R384; log entry 31). No byte changes at its home. A scope code above 4 and a class code above 5 raise
ILLEGAL. -/
def Obligations.Fences : Prop :=
  (∀ (s : State) (sc : BitVec 3), sc.toNat < 5 → ∃ t : State, exec (.syFence sc) s = .next t ∧ t.cur = s.cur.advance ∧
    (∀ x, t.homeByte x = s.homeByte x) ∧
    (∀ w ∈ t.writes, w.writer = .tile s.ft s.fc → w.cls = kSCALAR →
      ∀ o, inScope s.ft sc.toNat o = true → w.performedFor o = true) ∧
    (∀ w ∈ t.writes, inScope s.ft sc.toNat w.writer = true → w.performedFor (.tile s.ft s.fc) = true →
      w.seenBy (.tile s.ft s.fc) = true) ∧
    (∀ u c x, c < 3 → (u, c) ≠ (s.ft, s.fc) → t.byteAt (.tile u c) x = s.byteAt (.tile u c) x)) ∧
  (∀ (s : State) (x y : BitVec 5), x.toNat < 6 → y.toNat < 6 → ∃ t : State, exec (.pfFence x y) s = .next t ∧ t.cur = s.cur.advance ∧
    (∀ a, t.homeByte a = s.homeByte a) ∧
    (∀ w ∈ t.writes, w.task = some (s.ft, s.fslot) → w.done = true → w.cls = x.toNat ∨ w.cls = y.toNat → ∀ o, w.performedFor o = true) ∧
    (x ≠ y → x = 0 ∨ y = 0 → ∀ w ∈ t.writes, (s.ft, s.fslot) ∈ w.acquired →
      ∀ o, inScope s.ft (if 4 ≤ max x.toNat y.toNat then 3 else 0) o = true → w.performedFor o = true) ∧
    (x = 0 ∨ y = 0 → (∀ w ∈ s.writes, ∀ u k, Reach.strong u k ∉ w.reach) →
      ∀ w ∈ t.writes, ∀ c, c < 3 → w.performedFor (.tile s.ft c) = true → w.seenBy (.tile s.ft c) = true)) ∧
  (∀ (s : State) (sc : BitVec 3), 5 ≤ sc.toNat → exec (.syFence sc) s = .next (illegalAt s)) ∧
  (∀ (s : State) (x y : BitVec 5), 6 ≤ x.toNat ∨ 6 ≤ y.toNat → exec (.pfFence x y) s = .next (illegalAt s)) ∧
  (∀ (s : State) (i o : Nat), ∃ t : State, exec (.writePerformed i o) s = .next t ∧ (∀ x, t.homeByte x = s.homeByte x) ∧
    t.tiles = s.tiles ∧ t.pkg = s.pkg ∧
    ∀ w ob x, s.writes[i]? = some w → (observerNo o).shows ob = true → w.covers x = true →
      (∀ v ∈ s.writes.drop (i + 1), v.covers x = false) →
      (w.divisible = false → t.byteAt ob x = w.bytes.getD (x - w.addr) 0) ∧
      (w.divisible = true → w.cls ≠ kSTREAM → hostLink w.addr = none → (∀ v ∈ s.writes, v.seq = w.seq → v = w) →
        t.byteAt ob x = s.byteAt ob x ∨ t.byteAt ob x = w.bytes.getD (x - w.addr) 0))

/-- A write enters the coherence order last, but for a plain store of a core that crosses a plain store of another core which
nobody has seen (their order at the home is free: log entry 31): its bytes are what its home then holds; what its writer and
every observer that sees it reads; every byte outside it is as before for every observer. Retiring writes changes no byte for
any observer. -/
def Obligations.WriteThenRead : Prop :=
  (∀ (s : State) (w : PWrite) (p : Bool), 0 < w.bytes.length →
    ((∀ x ∈ s.writes, x.touches w.addr w.bytes.length = true → x.unseen w = false) →
      ∀ i, i < w.bytes.length → (s.addWrite w p).homeByte (w.addr + i) = w.bytes.getD i 0) ∧
    (∀ o i, i < w.bytes.length → w.seenBy o = true → (s.addWrite w p).byteAt o (w.addr + i) = w.bytes.getD i 0) ∧
    (∀ o x, x < w.addr ∨ w.addr + w.bytes.length ≤ x → (s.addWrite w p).byteAt o x = s.byteAt o x) ∧
    (∀ o x, w.seenBy o = false → (s.addWrite w p).byteAt o x = s.byteAt o x)) ∧
  (∀ (s : State) (o : Obs) (x : Nat), s.settle.byteAt o x = s.byteAt o x ∧ s.settle.homeByte x = s.homeByte x)

/-- On the control core st.key sets K and s, st.member sets m and IB, each leaving the other two as they stood, and both complete;
a reserved bit that is set raises ILLEGAL, as does another core. -/
def Obligations.SteepingForms : Prop :=
  (∀ (s : State) (a b : Reg), s.fc = 0 → s.rn b < 2 ^ 32 → ∃ t : State, exec (.stKey a b) s = .next t ∧
    (t.ext s.ft s.fslot).steep = { (s.ext s.ft s.fslot).steep with key := s.rn a, stream := s.rn b } ∧
    t.cur = s.cur.advance ∧ t.mem = s.mem) ∧
  (∀ (s : State) (a b : Reg), s.fc = 0 → s.rn a < 2 ^ 16 → s.rn b < 2 ^ 48 → ∃ t : State, exec (.stMember a b) s = .next t ∧
    (t.ext s.ft s.fslot).steep = { (s.ext s.ft s.fslot).steep with member := s.rn a, base := s.rn b } ∧
    t.cur = s.cur.advance ∧ t.mem = s.mem) ∧
  (∀ (s : State) (a b : Reg), (s.fc ≠ 0 ∨ 2 ^ 32 ≤ s.rn b) →
    exec (.stKey a b) s = .next (raiseCore s ⟨cILLEGAL, s.cur.iword.toNat, 0, false⟩)) ∧
  (∀ (s : State) (a b : Reg), (s.fc ≠ 0 ∨ 2 ^ 16 ≤ s.rn a ∨ 2 ^ 48 ≤ s.rn b) →
    exec (.stMember a b) s = .next (raiseCore s ⟨cILLEGAL, s.cur.iword.toNat, 0, false⟩))

/-- A handle word with a legal cluster names its entry when the generation matches and the entry is not EMPTY, and raises STALE
otherwise, and POISON where a live entry is uncorrectable (R431, R458); a cluster of 384 or more raises APERTURE, with the handle word as word 2
(log entry 23). fu.new takes the lowest EMPTY entry of its cluster, PENDING with value 0, and
returns its handle, or 0 when none is EMPTY. fu.set makes a PENDING entry READY, or POISONED with bit 63, with its value and no
continuation left; on a resolved entry it raises RESOURCE. Setting an entry with one KIND 0 continuation of a bound task writes
that task's class-3 record. fu.drop leaves the entry EMPTY at the next generation, 1 following 2,047, and a core in user mode that is blocked at a
fu.wait on the handle stops with STALE. -/
def Obligations.FutureSetting : Prop :=
  (∀ (s : State) (g cl i : Nat) (p b : Bool) (acc : Acc), g < 2 ^ 11 → cl < 2 ^ 9 → i < 2 ^ 12 → (p = true → b = true) →
    handleCheck s (g * 2 ^ 21 + cl * 2 ^ 12 + i + 2 ^ 63 * bit01 p) b acc =
      if 384 ≤ cl then .error (trapAperture (g * 2 ^ 21 + cl * 2 ^ 12 + i + 2 ^ 63 * bit01 p) kSCALAR acc)
      else if (s.fut (cl * 4096 + i)).stat ≠ .empty ∧ (s.fut (cl * 4096 + i)).gen = g then
        (if mapGet false s.pkg.futPoison (cl * 4096 + i) = true then .error ⟨cPOISON, cl % 16 * 4096 + i, 0x06, false⟩ else .ok ⟨g, cl, i⟩)
      else .error ⟨cSTALE, g * 2 ^ 21 + cl * 2 ^ 12 + i, (s.fut (cl * 4096 + i)).gen, false⟩) ∧
  (∀ (s : State) (d : Reg),
    (∀ i, i < 4096 → (s.fut (s.ft / 32 * 4096 + i)).stat = .empty → (∀ j, j < i → (s.fut (s.ft / 32 * 4096 + j)).stat ≠ .empty) →
      ∃ t : State, exec (.fuNew d) s = .next t ∧ Returns s t d
          (BitVec.ofNat 64 ((s.fut (s.ft / 32 * 4096 + i)).gen * 2 ^ 21 + s.ft / 32 * 2 ^ 12 + i)) ∧
        (t.fut (s.ft / 32 * 4096 + i)).stat = .pending ∧ (t.fut (s.ft / 32 * 4096 + i)).val = 0 ∧
        (t.fut (s.ft / 32 * 4096 + i)).gen = (s.fut (s.ft / 32 * 4096 + i)).gen ∧
        ∀ k, k ≠ s.ft / 32 * 4096 + i → t.fut k = s.fut k) ∧
    ((∀ i, i < 4096 → (s.fut (s.ft / 32 * 4096 + i)).stat ≠ .empty) → exec (.fuNew d) s = .next (finishRd s d 0))) ∧
  (∀ (s : State) (a b : Reg) (h : Handle), handleCheck s (s.rn a) true .write = .ok h →
    ((s.fut h.key).stat ≠ .pending → exec (.fuSet a b) s = .next (resourceAt s)) ∧
    ((s.fut h.key).stat = .pending → s.cur.blocked = false → ∃ t : State, exec (.fuSet a b) s = .next t ∧
      (t.fut h.key).stat = (if s.rn a < 2 ^ 63 then .ready else .poisoned) ∧ (t.fut h.key).val = s.rx b ∧
      (t.fut h.key).gen = (s.fut h.key).gen ∧ (t.fut h.key).conts = [] ∧ t.cur = s.cur.advance ∧ (∀ x, t.homeByte x = s.homeByte x) ∧
      ((s.fut h.key).conts = [] → (∀ k, k ≠ h.key → t.fut k = s.fut k) ∧ (t.tile s.ft).events = (s.tile s.ft).events) ∧
      (∀ c, (s.fut h.key).conts = [c] → c.kind = 0 → contAlive s c = true → s.rn a < 2 ^ 63 →
        (s.tile c.tile).events.length < 256 → (s.tile c.tile).pending = [] →
        (t.tile c.tile).events = (s.tile c.tile).events ++ [⟨3, c.slot, c.core, BitVec.ofNat 32 h.word, s.rx b⟩]))) ∧
  (∀ (s : State) (a : Reg) (h : Handle), handleCheck s (s.rn a) false .write = .ok h → s.cur.blocked = false →
    ∃ t : State, exec (.fuDrop a) s = .next t ∧ Completes s t ∧ (t.fut h.key).stat = .empty ∧ (t.fut h.key).conts = [] ∧
      (t.fut h.key).gen = (if (s.fut h.key).gen = 2047 then 1 else (s.fut h.key).gen + 1) ∧
      (∀ k, k ≠ h.key → t.fut k = s.fut k) ∧
      ∀ u c d b w, c < 3 → ((s.tile u).core c).blocked = true → ((s.tile u).core c).stat = .run → ((s.tile u).core c).machine = false →
        decodeFetched ((s.tile u).core c).iword ((s.tile u).core c).ilen = .fuWait d w b →
        (handleOf (((s.tile u).core c).rx w).toNat).word = h.word →
        ((t.tile u).core c).stat = .faulted ∧ ((t.tile u).core c).pc = ((s.tile u).core c).pc ∧
          ∃ r ∈ (t.die (u / 512)).faults, r.1.cause = cSTALE ∧ r.1.w2 = BitVec.ofNat 64 h.word) ∧
  (∀ (s : State) (a b d : Reg) (tr : Trap), handleCheck s (s.rn a) false .read = .error tr →
    exec (.fuGet d a) s = .next (raiseCore s tr) ∧
    (s.rn b < 2 ^ 32 → exec (.fuWait d a b) s = .next (raiseCore s tr)))

/-- Of a live entry fu.get gives the state code; fu.wait gives the value of a READY one, raises POISON with the value of a POISONED
one, and blocks on a PENDING one until its limit is used up, which raises WAITEXP with kind 3 and the handle; a limit of 2^32 or more
is ILLEGAL. fu.then adds a continuation to a PENDING entry and takes a node of its cluster, RESOURCE with all 8,192 taken; on a READY
entry, where it acts at once and takes no node (log entry 33), a KIND 0 continuation writes its record, and a KIND 1 one resolves its PENDING
target with the same value. -/
def Obligations.FutureWaiting : Prop :=
  (∀ (s : State) (d a : Reg) (h : Handle), handleCheck s (s.rn a) false .read = .ok h →
    ∃ t : State, exec (.fuGet d a) s = .next t ∧ ReturnsHome s t d (match (s.fut h.key).stat with
      | .empty => 0 | .pending => 1 | .ready => 2 | .poisoned => 3) ∧ t.pkg = s.pkg) ∧
  (∀ (s : State) (d a b : Reg) (h : Handle), s.rn b < 2 ^ 32 → handleCheck s (s.rn a) false .read = .ok h →
    ((s.fut h.key).stat = .ready → ∃ t : State, exec (.fuWait d a b) s = .next t ∧ ReturnsHome s t d (s.fut h.key).val ∧ t.pkg = s.pkg) ∧
    ((s.fut h.key).stat = .poisoned →
      exec (.fuWait d a b) s = .next (raiseCore s ⟨cPOISON, h.word, (s.fut h.key).val.toNat, true⟩)) ∧
    ((s.fut h.key).stat = .pending → ∃ t : State, exec (.fuWait d a b) s = .next t ∧ Blocks s t)) ∧
  (∀ (s : State) (d a b : Reg), 2 ^ 32 ≤ s.rn b → exec (.fuWait d a b) s = .next (illegalAt s)) ∧
  (∀ (s : State) (t c : Nat) (d a b : Reg), ((s.tile t).core c).blocked = true → ((s.tile t).core c).stat = .run →
    decodeFetched ((s.tile t).core c).iword ((s.tile t).core c).ilen = .fuWait d a b →
    (handleOf (((s.tile t).core c).rx a).toNat).live s = true →
    (s.fut (handleOf (((s.tile t).core c).rx a).toNat).key).stat = .pending → 0 < (((s.tile t).core c).rx b).toNat →
    (((s.tile t).core c).rx b).toNat ≤ ((s.tile t).core c).waited →
    exec (.fuWaitExpiry t c) s = .next { raiseCore { s with focus := (t, c) }
      ⟨cWAITEXP, 3, (handleOf (((s.tile t).core c).rx a).toNat).word, false⟩ with focus := s.focus }) ∧
  (∀ (s : State) (a b : Reg) (h : Handle) (k : Task) (kind g : Nat), kind < 2 → g < 2 ^ 32 → (kind = 0 → g = 0) →
    s.rn b = kind * 2 ^ 62 + g → handleCheck s (s.rn a) false .read = .ok h → s.task s.ft s.fslot = some k → k.stat ≠ .ended →
    ((s.fut h.key).stat = .pending → s.nodesUsed h.cl < 8192 → ∃ (t : State) (c : Cont), exec (.fuThen a b) s = .next t ∧ Completes s t ∧
      (t.fut h.key).conts = (s.fut h.key).conts ++ [c] ∧ c.kind = kind ∧ c.target = g ∧ c.tile = s.ft ∧ c.slot = s.fslot ∧
      c.core = s.fc ∧ (t.fut h.key).stat = .pending ∧ t.nodesUsed h.cl = s.nodesUsed h.cl + 1) ∧
    ((s.fut h.key).stat = .pending → 8192 ≤ s.nodesUsed h.cl → exec (.fuThen a b) s = .next (resourceAt s)) ∧
    ((s.fut h.key).stat = .ready → kind = 0 → (s.tile s.ft).events.length < 256 → (s.tile s.ft).pending = [] →
      ∃ t : State, exec (.fuThen a b) s = .next t ∧ Completes s t ∧ t.pkg = s.pkg ∧ (t.tile s.ft).events =
        (s.tile s.ft).events ++ [⟨3, s.fslot, s.fc, BitVec.ofNat 32 h.word, (s.fut h.key).val⟩]) ∧
    ((s.fut h.key).stat = .ready → kind = 1 → (handleOf g).live s = true → (s.fut (handleOf g).key).stat = .pending →
      (s.fut (handleOf g).key).conts = [] → s.cur.blocked = false → ∃ t : State, exec (.fuThen a b) s = .next t ∧ t.cur = s.cur.advance ∧
        (∀ x, t.homeByte x = s.homeByte x) ∧ (t.fut (handleOf g).key).stat = .ready ∧ (t.fut (handleOf g).key).val = (s.fut h.key).val ∧ t.fut h.key = s.fut h.key))

/-- On the control core of a member with no cast to the group outstanding, gr.arrive and an unarrived gr.bar count the task as arrived; when every
member has arrived or ended the phase advances modulo 2^16 and no member is arrived; with such a cast outstanding both block. gr.wait and gr.bar of an arrived task return its
phase once the group's phase has moved on, and the task is no longer arrived; otherwise they block. A second gr.arrive, or a
gr.wait before any, raises RESOURCE; a task that is no member gets PERMISSION from each of the three, with the group register as word 2 (log entry
23); another core, or a reserved bit of the group word, ILLEGAL.
Of a group that is not debug-held a wait whose limit is used up raises WAITEXP with kind 4,
the group, the count of members arrived or ended and the phase; the task stays arrived. -/
def Obligations.GroupBarriers : Prop :=
  (∀ (s : State) (d a b : Reg) (i : Nat) (g : Grp), s.fc = 0 → s.rn a < 256 →
    groupOf s (s.taskLaunch s.ft s.fslot) (s.rn a) = some (i, g) → s.taskLidx s.ft s.fslot ∈ g.members →
    (arrivedAt s (s.rn a) = none → castsOut s (s.rn a) = false →
      let full : Prop := ∀ m ∈ g.members, m = s.taskLidx s.ft s.fslot ∨ m ∈ g.arrived ∨ m ∈ g.ended
      (full →
        (∃ (t : State) (n : Nat), exec (.grArrive a) s = .next t ∧ t.cur = s.cur.advance ∧ (∀ x, t.homeByte x = s.homeByte x) ∧
          arrivedAt t (s.rn a) = some g.phase ∧
          mapGet none t.pkg.groups i = some { g with phase := (g.phase + 1) % 2 ^ 16, arrived := [], doneAt := n }) ∧
        (∃ (t : State) (n : Nat), exec (.grBar d a b) s = .next t ∧ ReturnsHome s t d (BitVec.ofNat 64 g.phase) ∧ arrivedAt t (s.rn a) = none ∧
          mapGet none t.pkg.groups i = some { g with phase := (g.phase + 1) % 2 ^ 16, arrived := [], doneAt := n })) ∧
      (¬ full →
        (∃ t : State, exec (.grArrive a) s = .next t ∧ t.cur = s.cur.advance ∧ (∀ x, t.homeByte x = s.homeByte x) ∧
          arrivedAt t (s.rn a) = some g.phase ∧
          mapGet none t.pkg.groups i = some { g with arrived := s.taskLidx s.ft s.fslot :: g.arrived }) ∧
        (∃ t : State, exec (.grBar d a b) s = .next t ∧ t.cur.pc = s.cur.pc ∧ t.cur.blocked = true ∧ (∀ q, t.rx q = s.rx q) ∧
          arrivedAt t (s.rn a) = some g.phase ∧
          mapGet none t.pkg.groups i = some { g with arrived := s.taskLidx s.ft s.fslot :: g.arrived }))) ∧
    (arrivedAt s (s.rn a) = none → castsOut s (s.rn a) = true → ∀ x : Instr, x = .grArrive a ∨ x = .grBar d a b →
      ∃ t : State, exec x s = .next t ∧ Blocks s t) ∧
    (arrivedAt s (s.rn a) = none → exec (.grWait d a b) s = .next (resourceAt s)) ∧
    (∀ p, arrivedAt s (s.rn a) = some p →
      exec (.grArrive a) s = .next (resourceAt s) ∧
      (g.phase ≠ p → ∀ x : Instr, x = .grWait d a b ∨ x = .grBar d a b →
        ∃ t : State, exec x s = .next t ∧ ReturnsHome s t d (BitVec.ofNat 64 p) ∧ arrivedAt t (s.rn a) = none ∧ t.pkg = s.pkg) ∧
      (g.phase = p → ∀ x : Instr, x = .grWait d a b ∨ x = .grBar d a b → ∃ t : State, exec x s = .next t ∧ Blocks s t))) ∧
  (∀ (s : State) (d a b : Reg) (x : Instr), x = .grArrive a ∨ x = .grWait d a b ∨ x = .grBar d a b →
    (s.fc ≠ 0 ∨ 256 ≤ s.rn a → exec x s = .next (illegalAt s)) ∧
    (s.fc = 0 → s.rn a < 256 → (groupOf s (s.taskLaunch s.ft s.fslot) (s.rn a) = none ∨
        ∃ i g, groupOf s (s.taskLaunch s.ft s.fslot) (s.rn a) = some (i, g) ∧ s.taskLidx s.ft s.fslot ∉ g.members) →
      exec x s = .next (raiseCore s ⟨cPERMISSION, s.rn a, 0, false⟩))) ∧
  (∀ (s : State) (t : Nat) (d a b : Reg) (i : Nat) (g : Grp), (s.tile t).ctl.blocked = true → (s.tile t).ctl.stat = .run →
    decodeFetched (s.tile t).ctl.iword (s.tile t).ctl.ilen = .grWait d a b ∨
      decodeFetched (s.tile t).ctl.iword (s.tile t).ctl.ilen = .grBar d a b →
    groupOf s (s.taskLaunch t (s.slot t)) (((s.tile t).ctl.rx a).toNat % 256) = some (i, g) → g.debugHeld = false →
    mapGet none (s.ext t (s.slot t)).arrived (((s.tile t).ctl.rx a).toNat % 256) = some g.phase →
    0 < ((s.tile t).ctl.rx b).toNat → ((s.tile t).ctl.rx b).toNat ≤ (s.tile t).ctl.waited →
    ∃ u : State, exec (.grWaitExpiry t) s = .next u ∧ u = { raiseCore { s with focus := (t, 0) }
      ⟨cWAITEXP, 4 + 2 ^ 8 * (((s.tile t).ctl.rx a).toNat % 256) +
        2 ^ 16 * (g.members.filter (fun m => g.arrived.contains m || g.ended.contains m)).length + 2 ^ 32 * g.phase, 0, false⟩
      with focus := s.focus } ∧ mapGet none (u.ext t (s.slot t)).arrived (((s.tile t).ctl.rx a).toNat % 256) = some g.phase)

/-- gr.cast by a member's control core, of 1 to 65,536 bytes that end within the scratchpad, enters one copy of those bytes for the
group when a slot is free and retires at once; a length of 0 or above 65,536 raises CFGREJECT with the field's lowest bit, 40 (log entry 35), and a range past the scratchpad
APERTURE; with no slot free it blocks. -/
def Obligations.GroupCast : Prop :=
  ∀ (s : State) (a b : Reg) (len off gid i : Nat) (g : Grp), s.fc = 0 → len < 2 ^ 17 → off < 2 ^ 21 → gid < 256 →
    s.rn a = len * 2 ^ 40 + off * 2 ^ 8 + gid → groupOf s (s.taskLaunch s.ft s.fslot) gid = some (i, g) →
    s.taskLidx s.ft s.fslot ∈ g.members →
    (0 < len → len ≤ 65536 → off + len ≤ 2 ^ 21 → (s.tile s.ft).slotsUsed < 96 →
      ∃ (t : State) (c : Copy), exec (.grCast a b) s = .next t ∧ Completes s t ∧ (t.tile s.ft).copies = (s.tile s.ft).copies ++ [c] ∧
        c.kind = .cast gid ∧ c.src = s.rx b ∧ c.dst = BitVec.ofNat 64 off ∧ c.rowBytes = len ∧ c.rows = 1 ∧ c.slot = s.fslot ∧
        c.ev = false ∧ c.moved = 0) ∧
    (0 < len → len ≤ 65536 → off + len ≤ 2 ^ 21 → 96 ≤ (s.tile s.ft).slotsUsed →
      ∃ t : State, exec (.grCast a b) s = .next t ∧ Blocks s t) ∧
    (len = 0 ∨ 65536 < len → exec (.grCast a b) s =
      .next (raiseCore s ⟨cCFGREJECT, 40 * 2 ^ 24 + 5 * 2 ^ 31, 0, false⟩)) ∧
    (0 < len → len ≤ 65536 → 2 ^ 21 < off + len →
      exec (.grCast a b) s = .next (raiseCore s (trapAperture off kTCOPY .write)))

/-- On the control core, with i below the number of the task's records, ev.pop writes the 16 bytes of its i-th oldest record to the
scratchpad, where the core reads them, and to no other byte, removes it and gives the number left; ev.peek gives word 0 and removes nothing; past the last
record both give all ones. ev.wait gives the place of the oldest record of a class in its mask; with none it gives all ones for
limit 0 and otherwise blocks, and its expiry gives all ones and raises WAITEXP with kind 2, the mask and the number of records. A
held record enters the queue while it has room and no older record of its source is held. A record never takes the queue past 256. -/
def Obligations.EventForms : Prop :=
  (∀ (s : State) (d a : Reg) (dst i : Nat), s.fc = 0 → dst < 2 ^ 21 → dst % 16 = 0 → i < 256 → s.rn a = dst + 2 ^ 24 * i →
    ((taskRecords (s.tile s.ft) s.fslot).length ≤ i →
      exec (.evPop d a) s = .next (finishRd s d (BitVec.allOnes 64))) ∧
    (∀ r j, (taskRecords (s.tile s.ft) s.fslot)[i]? = some (r, j) → ∃ t : State, exec (.evPop d a) s = .next t ∧
      t.cur = (s.cur.wx d (BitVec.ofNat 64 ((taskRecords (s.tile s.ft) s.fslot).length - 1))).advance ∧
      (t.tile s.ft).events = (s.tile s.ft).events.eraseIdx j ∧ (s.tile s.ft).events[j]? = some r ∧ r.slot = s.fslot ∧
      (∀ k, k < 16 → t.byteAt (.tile s.ft s.fc) (spadBase s.ft + dst + k) = byteOf ((r.cls + 2 ^ 8 * (r.slot % 8) + 2 ^ 11 * r.core +
        2 ^ 32 * r.tag.toNat) % 2 ^ 64 + 2 ^ 64 * r.payload.toNat) k) ∧
      (∀ x, x < spadBase s.ft + dst ∨ spadBase s.ft + dst + 16 ≤ x → t.homeByte x = s.homeByte x))) ∧
  (∀ (s : State) (d a : Reg), s.fc = 0 → s.rn a < 256 →
    ((taskRecords (s.tile s.ft) s.fslot).length ≤ s.rn a → exec (.evPeek d a) s = .next (finishRd s d (BitVec.allOnes 64))) ∧
    (∀ r j, (taskRecords (s.tile s.ft) s.fslot)[s.rn a]? = some (r, j) → ∃ t : State, exec (.evPeek d a) s = .next t ∧
      Returns s t d (BitVec.ofNat 64 (r.cls + 2 ^ 8 * (r.slot % 8) + 2 ^ 11 * r.core + 2 ^ 32 * r.tag.toNat)) ∧
      (t.tile s.ft).events = (s.tile s.ft).events)) ∧
  (∀ (s : State) (d a b : Reg), s.fc = 0 → s.rn a < 128 → s.rn b < 2 ^ 32 →
    (∀ i r j, (taskRecords (s.tile s.ft) s.fslot)[i]? = some (r, j) → bitOf (s.rn a) r.cls = true →
      (∀ i' r' j', i' < i → (taskRecords (s.tile s.ft) s.fslot)[i']? = some (r', j') → bitOf (s.rn a) r'.cls = false) →
      ∃ t : State, exec (.evWait d a b) s = .next t ∧ Returns s t d (BitVec.ofNat 64 i) ∧
        (t.tile s.ft).events = (s.tile s.ft).events) ∧
    ((∀ r ∈ (s.tile s.ft).events, r.slot = s.fslot → bitOf (s.rn a) r.cls = false) →
      (s.rn b = 0 → exec (.evWait d a b) s = .next (finishRd s d (BitVec.allOnes 64))) ∧
      (s.rn b ≠ 0 → ∃ t : State, exec (.evWait d a b) s = .next t ∧ Blocks s t))) ∧
  (∀ (s : State) (t : Nat) (d a b : Reg), (s.tile t).ctl.blocked = true → (s.tile t).ctl.stat = .run →
    decodeFetched (s.tile t).ctl.iword (s.tile t).ctl.ilen = .evWait d a b →
    (∀ r ∈ (s.tile t).events, r.slot = s.slot t → bitOf ((s.tile t).ctl.rx a).toNat r.cls = false) →
    0 < ((s.tile t).ctl.rx b).toNat → ((s.tile t).ctl.rx b).toNat ≤ (s.tile t).ctl.waited →
    exec (.evWaitExpiry t) s = .next { raiseCore ({ s with focus := (t, 0) }.wx d (BitVec.allOnes 64))
      ⟨cWAITEXP, 2 + 2 ^ 8 * ((s.tile t).ctl.rx a).toNat,
        ((s.tile t).events.filter (fun r => r.slot == s.slot t)).length, false⟩ with focus := s.focus }) ∧
  (∀ (s : State) (t i : Nat) (r : EvRec), (s.tile t).pending[i]? = some r → (s.tile t).events.length < 256 →
    (∀ q ∈ (s.tile t).pending.take i, sameSource q r = false) →
    ∃ u : State, exec (.eventRecordWrite t i) s = .next u ∧ (u.tile t).events = (s.tile t).events ++ [r] ∧
      (u.tile t).pending = (s.tile t).pending.eraseIdx i ∧ u.mem = s.mem ∧ (∀ k, k ≠ t → u.tile k = s.tile k)) ∧
  (∀ (v : Tile) (r : EvRec), v.events.length ≤ 256 → (v.event r).events.length ≤ 256) ∧
  (∀ (s u : State) (t i : Nat), (s.tile t).events.length ≤ 256 → exec (.eventRecordWrite t i) s = .next u → (u.tile t).events.length ≤ 256)

/-- sys.brk and ebreak raise BREAK with code 0, the halfword 0x9002 is ebreak, sys.trap raises it with code rs1[15:0] and ILLEGAL with
another bit set. In user mode, on the control core, with a handler enabled and none running or waiting, the handler is entered: the record
stands in TREC, TSTAT holds cause, source and BUSY, TEPC the next instruction, pc the handler, and no other register changes. On
the loader or storer the core stops and its trap waits. With no handler enabled, or one running, the record goes to the die
manager as a fault and the core stops. -/
def Obligations.BreakTraps : Prop :=
  decodeHalf 0x9002 = .ebreak ∧
  (∀ (s : State) (i : Instr) (a : Reg) (code : Nat),
    (i = .sysBrk ∧ code = 0) ∨ (i = .ebreak ∧ code = 0) ∨ (i = .sysTrap a ∧ s.rn a = code ∧ code < 2 ^ 16) →
    exec i s = .next (raiseCore s ⟨cBREAK, code, 0, false⟩) ∧
    (s.fc = 0 → s.cur.machine = false → (s.tile s.ft).csr.tvec.getLsbD 0 = true → (s.tile s.ft).csr.tstat.getLsbD 0 = false →
      (s.tile s.ft).traps = [] → (∀ c ∈ (s.tile s.ft).copies, ∀ w, c.kind = .pop w → c.core ≠ 0) →
      ∃ t : State, exec i s = .next t ∧
        t.cur.pc = BitVec.ofNat 64 (0x2000000000000000 + (s.tile s.ft).csr.tvec.toNat / 2 % 2 ^ 15 * 2) ∧ t.cur.stat = .run ∧
        t.cur.machine = false ∧ (∀ r, t.rx r = s.rx r) ∧
        (t.tile s.ft).csr.tepc = nextPc s ∧ (t.tile s.ft).csr.tstat = BitVec.ofNat 64 (0x0F * 2 ^ 8 + 1) ∧
        (t.tile s.ft).csr.trec = ⟨BitVec.ofNat 64 (0x0F + 2 ^ 10 * (s.fslot % 8) + 2 ^ 16 * (s.ft % 2 ^ 14) +
          2 ^ 32 * (s.taskLidx s.ft s.fslot % 2 ^ 32)), BitVec.ofNat 64 (s.cur.pc.toNat % 2 ^ 62), BitVec.ofNat 64 code, 0⟩ ∧
        (t.tile s.ft).csr.tvec = (s.tile s.ft).csr.tvec ∧ (t.tile s.ft).traps = [] ∧ t.mem = s.mem ∧ t.dies = s.dies) ∧
    (s.fc = 1 ∨ s.fc = 2 → s.cur.machine = false → (s.tile s.ft).csr.tvec.getLsbD 0 = true → (s.tile s.ft).csr.tstat.getLsbD 0 = false →
      ∃ (t : State) (r : TrapRec), exec i s = .next t ∧ t.cur.stat = .trapped ∧ t.cur.pc = nextPc s ∧ (t.tile s.ft).traps = (s.tile s.ft).traps ++ [(r, s.fc)] ∧
        r.cause = 0x0F ∧ r.w2 = BitVec.ofNat 64 code ∧ (t.tile s.ft).ctl = (s.tile s.ft).ctl) ∧
    (s.fc < 3 → s.cur.machine = false → (s.tile s.ft).csr.tvec.getLsbD 0 = false ∨ (s.tile s.ft).csr.tstat.getLsbD 0 = true →
      ∃ (t : State) (r : TrapRec), exec i s = .next t ∧ t.cur.stat = .faulted ∧
        (t.die (s.ft / 512)).faults = (s.die (s.ft / 512)).faults ++ [(r, s.taskLaunch s.ft s.fslot, none)] ∧
        r.cause = 0x0F ∧ r.w0.getLsbD 13 = true ∧ (t.tile s.ft).csr = (s.tile s.ft).csr)) ∧
  (∀ (s : State) (a : Reg), 2 ^ 16 ≤ s.rn a → exec (.sysTrap a) s = .next (illegalAt s))

/-- The oldest waiting trap of a tile with its handler enabled is entered when none runs, the control core is neither faulted nor
held, and no rw.pop of it is copying: TREC, TSTAT and TEPC take the record, the source and the control core's pc, and the core runs
at the handler in user mode with its registers unchanged. sys.eret while BUSY, with no rollback waiting, sets pc to TEPC, clears BUSY, and resumes
a stopped loader or storer; a trapped source other than the one handled stays so, and so does a source of which another trap still
waits. With BUSY clear, or on another core, it raises ILLEGAL. -/
def Obligations.TrapEntryAndReturn : Prop :=
  (∀ (s : State) (t src : Nat) (r : TrapRec) (rest : List (TrapRec × Nat)), (s.tile t).traps = (r, src) :: rest →
    (s.tile t).csr.tvec.getLsbD 0 = true → (s.tile t).csr.tstat.getLsbD 0 = false → (s.tile t).ctl.stat ≠ .faulted →
    (s.tile t).ctl.stat ≠ .held → (∀ c ∈ (s.tile t).copies, ∀ w, c.kind = .pop w → c.core ≠ 0) →
    ∃ u : State, exec (.trapEntry t) s = .next u ∧ (u.tile t).traps = rest ∧ (u.tile t).csr.trec = r ∧
      (u.tile t).csr.tstat = BitVec.ofNat 64 (r.cause * 2 ^ 8 + src * 2 ^ 4 + 1) ∧ (u.tile t).csr.tepc = (s.tile t).ctl.pc ∧
      (u.tile t).ctl.pc = BitVec.ofNat 64 (0x2000000000000000 + (s.tile t).csr.tvec.toNat / 2 % 2 ^ 15 * 2) ∧
      (u.tile t).ctl.stat = .run ∧ (u.tile t).ctl.blocked = false ∧ (u.tile t).ctl.machine = false ∧
      (u.tile t).ctl.x = (s.tile t).ctl.x ∧
      (u.tile t).ldr = (s.tile t).ldr ∧ (u.tile t).sto = (s.tile t).sto ∧ (u.tile t).fabric = (s.tile t).fabric ∧ u.mem = s.mem) ∧
  (∀ (s : State) (src : Nat), s.fc = 0 → src < 4 → (s.tile s.ft).csr.tstat.getLsbD 0 = true →
    (s.tile s.ft).csr.tstat.toNat / 2 ^ 4 % 4 = src → (s.ext s.ft s.fslot).rollback = none →
    ∃ t : State, exec .sysEret s = .next t ∧ t.cur.pc = (s.tile s.ft).csr.tepc ∧ (t.tile s.ft).csr.tstat.getLsbD 0 = false ∧
      (∀ r, t.rx r = s.rx r) ∧ t.cur.instret = s.cur.instret + 1 ∧ t.mem = s.mem ∧ (t.tile s.ft).csr.tepc = (s.tile s.ft).csr.tepc ∧
      (t.tile s.ft).csr.trec = (s.tile s.ft).csr.trec ∧
      (t.cur.stat = if ∃ x ∈ (s.tile s.ft).traps, x.2 = 0 then .trapped else .run) ∧
      (∀ c, c = 1 ∨ c = 2 → ((t.tile s.ft).core c).pc = ((s.tile s.ft).core c).pc ∧
        ((t.tile s.ft).core c).stat = if c = src ∧ ((s.tile s.ft).core c).stat = .trapped ∧ ¬ (∃ x ∈ (s.tile s.ft).traps, x.2 = c)
          then .run else ((s.tile s.ft).core c).stat) ∧
      (src ≠ 3 → (t.tile s.ft).fabric = (s.tile s.ft).fabric) ∧
      (src = 3 → (∃ x ∈ (s.tile s.ft).traps, x.2 = 3) → (t.tile s.ft).fabric = (s.tile s.ft).fabric) ∧
      (src = 3 → (∀ x ∈ (s.tile s.ft).traps, x.2 ≠ 3) → (t.tile s.ft).fabric.trapFroze = [])) ∧
  (∀ (s : State), s.fc ≠ 0 ∨ (s.tile s.ft).csr.tstat.getLsbD 0 = false → exec .sysEret s = .next (illegalAt s))

namespace Sys2Proof.Spec

/-! ### What the element operations compute (R126 to R167) -/

/-- Lane `i` of the result of an opcode in a format is `g` of the lanes `i` of its sources (R97). -/
def laneWise (o f rnd cv : Nat) (sat : Bool) (g : Nat → Nat → Nat → Nat) : Prop :=
  ∀ (k : SteepKeys) (imm a b c i : Nat), i < fmtLanes f → lane (elemBits k o f rnd sat cv imm a b c) (fmtWidth f) i =
    g (lane a (fmtWidth f) i) (lane b (fmtWidth f) i) (lane c (fmtWidth f) i)

/-- The integer that a lane holds: unsigned in UINT8, two's complement elsewhere (R131). -/
def laneInt (f x : Nat) : Int := if f = fmtUINT8 ∨ x < 2 ^ (fmtWidth f - 1) then (x : Int) else (x : Int) - (2 ^ fmtWidth f : Nat)

/-- An exact integer written to a lane: wrapped, or clamped to the range of the format first (R105). -/
def laneOf (f : Nat) (sat : Bool) (v : Int) : Nat :=
  let lo : Int := if f = fmtUINT8 then 0 else -(2 ^ (fmtWidth f - 1) : Nat)
  let hi : Int := if f = fmtUINT8 then 255 else (2 ^ (fmtWidth f - 1) : Nat) - 1
  ((if sat then (if v < lo then lo else if hi < v then hi else v) else v) % (2 ^ fmtWidth f : Nat)).toNat

/-- All ones of a lane where a condition holds, else zero. -/
def laneMask (f : Nat) (p : Prop) [Decidable p] : Nat := if p then 2 ^ fmtWidth f - 1 else 0

/-- R131, R134 to R138: the integer operations, with their exact values. -/
structure IntegerLanes (f : Nat) (sat : Bool) : Prop where
  add : laneWise 0x10 f 0 0 sat (fun x y _ => laneOf f sat (laneInt f x + laneInt f y))
  sub : laneWise 0x11 f 0 0 sat (fun x y _ => laneOf f sat (laneInt f x - laneInt f y))
  mul : laneWise 0x12 f 0 0 sat (fun x y _ => laneOf f sat (laneInt f x * laneInt f y))
  mulHigh : laneWise 0x13 f 0 0 false (fun x y _ => laneOf f false (laneInt f x * laneInt f y / (2 ^ fmtWidth f : Nat)))
  mulHighU : laneWise 0x14 f 0 0 false (fun x y _ => x * y / 2 ^ fmtWidth f)
  mulAdd : laneWise 0x15 f 0 0 sat (fun x y z => laneOf f sat (laneInt f x * laneInt f y + laneInt f z))
  neg : laneWise 0x16 f 0 0 sat (fun x _ _ => laneOf f sat (-laneInt f x))
  abs : laneWise 0x17 f 0 0 sat (fun x _ _ => laneOf f sat (laneInt f x).natAbs)
  least : laneWise 0x18 f 0 0 false (fun x y _ => if laneInt f x ≤ laneInt f y then x else y)
  greatest : laneWise 0x19 f 0 0 false (fun x y _ => if laneInt f x ≤ laneInt f y then y else x)
  leastU : laneWise 0x1A f 0 0 false (fun x y _ => min x y)
  greatestU : laneWise 0x1B f 0 0 false (fun x y _ => max x y)
  shl : laneWise 0x25 f 0 0 false (fun x n _ => if fmtWidth f ≤ n then 0 else x * 2 ^ n % 2 ^ fmtWidth f)
  shr : laneWise 0x26 f 0 0 false (fun x n _ => if fmtWidth f ≤ n then 0 else x / 2 ^ n)
  sar : ∀ (k : SteepKeys) (imm a b c i j : Nat), i < fmtLanes f → j < fmtWidth f →
    Nat.testBit (lane (elemBits k 0x27 f 0 false 0 imm a b c) (fmtWidth f) i) j =
      Nat.testBit (lane a (fmtWidth f) i) (min (j + lane b (fmtWidth f) i) (fmtWidth f - 1))
  rol : ∀ (k : SteepKeys) (imm a b c i j : Nat), i < fmtLanes f → j < fmtWidth f →
    Nat.testBit (lane (elemBits k 0x28 f 0 false 0 imm a b c) (fmtWidth f) i) ((j + lane b (fmtWidth f) i) % fmtWidth f) =
      Nat.testBit (lane a (fmtWidth f) i) j
  clz : ∀ (k : SteepKeys) (imm a b c i : Nat), i < fmtLanes f → ∀ n, n = lane (elemBits k 0x29 f 0 false 0 imm a b c) (fmtWidth f) i →
    n ≤ fmtWidth f ∧ lane a (fmtWidth f) i < 2 ^ (fmtWidth f - n) ∧ (n < fmtWidth f → 2 ^ (fmtWidth f - n - 1) ≤ lane a (fmtWidth f) i)
  popc : laneWise 0x2A f 0 0 false (fun x _ _ => ((List.range (fmtWidth f)).filter (fun j => x.testBit j)).length)
  equal : laneWise 0x30 f 0 0 false (fun x y _ => laneMask f (x = y)) ∧ laneWise 0x30 f 0 1 false (fun x y _ => laneMask f (x ≠ y))
  compare : laneWise 0x30 f 0 2 false (fun x y _ => laneMask f (laneInt f x < laneInt f y)) ∧
    laneWise 0x30 f 0 3 false (fun x y _ => laneMask f (laneInt f x ≤ laneInt f y)) ∧
    laneWise 0x30 f 0 4 false (fun x y _ => laneMask f (laneInt f y < laneInt f x)) ∧
    laneWise 0x30 f 0 5 false (fun x y _ => laneMask f (laneInt f y ≤ laneInt f x))
  compareU : laneWise 0x30 f 0 6 false (fun x y _ => laneMask f (x < y)) ∧ laneWise 0x30 f 0 7 false (fun x y _ => laneMask f (x ≤ y)) ∧
    laneWise 0x30 f 0 8 false (fun x y _ => laneMask f (y < x)) ∧ laneWise 0x30 f 0 9 false (fun x y _ => laneMask f (y ≤ x))
  clamp : laneWise 0x33 f 0 0 false (fun x y z =>
    let m := if laneInt f x < laneInt f y then y else x
    if laneInt f z < laneInt f m then z else m)

/-- R126 to R128, R133, R137, R141, R142: the operations that move bits, on words of 32 bits; a word of MOV keeps its tag. -/
structure BitMoves : Prop where
  mov : ∀ (k : SteepKeys) (w : ElemWord) (x : TVal), ewOpc w = opMOV → elemResult k w [x] = x
  const : ∀ (k : SteepKeys) (f rnd imm a b c : Nat) (sat : Bool), imm < 2 ^ 16 → elemBits k opCONST f rnd sat 0 imm a b c = imm ∧
    elemBits k opCONST f rnd sat 1 imm a b c = imm * 2 ^ 16 ∧
    elemBits k opCONST f rnd sat 2 imm a b c = (if imm < 2 ^ 15 then imm else 2 ^ 32 - 2 ^ 16 + imm) ∧
    elemBits k opCONST f rnd sat 3 imm a b c = imm * 2 ^ 16 + imm
  logic : ∀ (k : SteepKeys) (f imm a b c j : Nat), a < 2 ^ 32 → b < 2 ^ 32 → j < 32 →
    (elemBits k 0x20 f 0 false 0 imm a b c).testBit j = (a.testBit j && b.testBit j) ∧
    (elemBits k 0x21 f 0 false 0 imm a b c).testBit j = (a.testBit j || b.testBit j) ∧
    (elemBits k 0x22 f 0 false 0 imm a b c).testBit j = (a.testBit j ^^ b.testBit j) ∧
    (elemBits k 0x23 f 0 false 0 imm a b c).testBit j = (a.testBit j && !b.testBit j) ∧
    (elemBits k 0x24 f 0 false 0 imm a b c).testBit j = !a.testBit j
  sel : ∀ f, laneWise opSEL f 0 0 false (fun x y m => if m ≠ 0 then x else y)
  pack2 : ∀ (k : SteepKeys) (f imm a b c : Nat), fmtWidth f = 16 → a < 2 ^ 32 →
    lane (elemBits k 0x61 f 0 false 0 imm a b c) 16 0 = lane a 16 1 ∧ lane (elemBits k 0x61 f 0 false 0 imm a b c) 16 1 = lane b 16 0
  pack4 : ∀ (k : SteepKeys) (f imm a b c : Nat), fmtWidth f = 8 → a < 2 ^ 32 →
    (∀ i, i < 3 → lane (elemBits k 0x62 f 0 false 0 imm a b c) 8 i = lane a 8 (i + 1)) ∧
    lane (elemBits k 0x62 f 0 false 0 imm a b c) 8 3 = lane b 8 0
  unpk : ∀ (k : SteepKeys) (f cv imm a b c i : Nat), i < fmtLanes f → cv < fmtLanes f → cv < 4 →
    lane (elemBits k 0x63 f 0 false cv imm a b c) (fmtWidth f) i = lane a (fmtWidth f) ((i + cv) % fmtLanes f)

/-- A NaN among the lanes read gives the generated NaN of the first one's cause; else the value is rounded once (R148). -/
def roundedLane (f rnd : Nat) (sat : Bool) (v : XVal → XVal → XVal → XVal) (reads : Nat) (x y z : Nat) : Nat :=
  match ([x, y, z].take reads).find? (isNan f) with
  | some n => genNan f (nanCause f n)
  | none => Machine.encode (v (decodeLane f x) (decodeLane f y) (decodeLane f z)) f rnd sat

/-- R148, R150 to R153: the floating-point operations of FP32, BF16 and FP16, by their exact values. -/
structure FloatLanes (f rnd : Nat) (sat : Bool) : Prop where
  add : laneWise 0x40 f rnd 0 sat (roundedLane f rnd sat (fun x y _ => XVal.add rnd x y) 2)
  sub : laneWise 0x41 f rnd 0 sat (roundedLane f rnd sat (fun x y _ => XVal.add rnd x y.neg) 2)
  mul : laneWise 0x42 f rnd 0 sat (roundedLane f rnd sat (fun x y _ => x.mul y) 2)
  fma : laneWise 0x43 f rnd 0 sat (roundedLane f rnd sat (fun x y z => XVal.add rnd (x.mul y) z) 3)
  fms : laneWise 0x44 f rnd 0 sat (roundedLane f rnd sat (fun x y z => XVal.add rnd (x.mul y) z.neg) 3)
  fnma : laneWise 0x45 f rnd 0 sat (roundedLane f rnd sat (fun x y z => XVal.add rnd (x.mul y).neg z) 3)
  /-- The sign bit alone changes; a NaN becomes the generated one (R150). -/
  abs : laneWise 0x48 f 0 0 false (fun x _ _ => if isNan f x then genNan f (nanCause f x) else x % 2 ^ (fmtWidth f - 1))
  neg : laneWise 0x49 f 0 0 false (fun x _ _ => if isNan f x then genNan f (nanCause f x) else
    (x + 2 ^ (fmtWidth f - 1)) % 2 ^ fmtWidth f)
  /-- The special cases of R152: reciprocal and square root of a zero or an infinity, and NaN 5 of a negative value. -/
  special : ∀ (o : Nat) (x : XVal) (r : XVal), (o, x, r) ∈ [(0x50, .inf false, .fin false 0 0), (0x50, .inf true, .fin true 0 0),
      (0x50, .fin false 0 0, .inf false), (0x50, .fin true 0 0, .inf true), (0x51, .inf false, .fin false 0 0), (0x51, .inf true, .nan 5),
      (0x51, .fin false 0 0, .inf false), (0x51, .fin true 0 0, .inf true), (0x51, .fin true 1 0, .nan 5), (0x52, .inf false, .inf false),
      (0x52, .inf true, .nan 5), (0x52, .fin false 0 0, .fin false 0 0), (0x52, .fin true 0 0, .fin true 0 0), (0x52, .fin true 1 0, .nan 5),
      (0x53, .inf false, .inf false), (0x53, .inf true, .fin false 0 0), (0x54, .inf false, .inf false), (0x54, .inf true, .nan 5),
      (0x54, .fin false 0 0, .inf true), (0x54, .fin true 0 0, .inf true), (0x54, .fin true 1 0, .nan 5)] →
    floatFn o f rnd sat (Machine.encode x f rnd false) = Machine.encode r f rnd sat
  /-- FSCALB multiplies by a power of two, exactly (R153). -/
  scalb : laneWise 0x55 f rnd 0 sat (fun x n _ => Machine.encode (match decodeLane f x with
    | .fin s m e => .fin s m (e + (if n < 2 ^ (fmtWidth f - 1) then (n : Int) else (n : Int) - (2 ^ fmtWidth f : Nat)))
    | v => v) f rnd sat)

/-- R138, R149, R151, R155, R156: what orders lanes by value, in a float or binary8 format. -/
structure OrderLanes (f : Nat) : Prop where
  least : laneWise 0x46 f 0 0 false (fun x y _ => match [x, y].find? (isNan f) with
    | some n => genNan f (nanCause f n)
    | none => if (decodeLane f y).below (decodeLane f x) then y else x)
  greatest : laneWise 0x47 f 0 0 false (fun x y _ => match [x, y].find? (isNan f) with
    | some n => genNan f (nanCause f n)
    | none => if (decodeLane f x).below (decodeLane f y) then y else x)
  clamp : laneWise 0x33 f 0 0 false (fun x y z => match [x, y, z].find? (isNan f) with
    | some n => genNan f (nanCause f n)
    | none =>
      let m := if (decodeLane f x).below (decodeLane f y) then y else x
      if (decodeLane f z).below (decodeLane f m) then z else m)
  compare : ∀ (x y : Nat), isNan f x = false → isNan f y = false → fcmp f 6 x y = false ∧ fcmp f 7 x y = true ∧
    fcmp f 2 x y = (decodeLane f x).lt (decodeLane f y) ∧ fcmp f 4 x y = (decodeLane f y).lt (decodeLane f x) ∧
    fcmp f 0 x y = (!fcmp f 2 x y && !fcmp f 4 x y) ∧ fcmp f 1 x y = !fcmp f 0 x y ∧ fcmp f 3 x y = !fcmp f 4 x y ∧ fcmp f 5 x y = !fcmp f 2 x y
  unordered : ∀ (x y cond : Nat), cond < 8 → isNan f x = true ∨ isNan f y = true → fcmp f cond x y = decide (cond = 1 ∨ cond = 6)
  masks : ∀ (cond : Nat), cond < 8 → laneWise 0x31 f 0 cond false (fun x y _ => laneMask f (fcmp f cond x y = true))

/-- R139, R140, R143, R144: the operations that change the format, on the lanes both formats have; the rest of the result is zero. -/
structure ConvertLanes (sf df rnd : Nat) (sat : Bool) : Prop where
  convert : ∀ (k : SteepKeys) (imm a b c i : Nat), i < fmtLanes df →
    lane (elemBits k 0x60 df rnd sat sf imm a b c) (fmtWidth df) i =
      if i < fmtLanes sf then Machine.encode (decodeLane sf (lane a (fmtWidth sf) i)) df rnd sat else 0
  scale : ∀ (k : SteepKeys) (o imm a b c i : Nat), i < fmtLanes df → o = 0x64 ∨ o = 0x65 →
    lane (elemBits k o df rnd sat sf imm a b c) (fmtWidth df) i =
      if fmtLanes sf ≤ i then 0
      else if isNan sf (lane a (fmtWidth sf) i) then genNan df (nanCause sf (lane a (fmtWidth sf) i))
      else if isNan fmtFP32 b then genNan df 2
      else Machine.encode ((decodeLane sf (lane a (fmtWidth sf) i)).mul (decodeLane fmtFP32 b)) df rnd sat

/-- An element operation in RNE without saturation, with immediate 0. -/
def elemPlain (o f cv a b c : Nat) : Nat := elemBits SteepKeys.zero o f 0 false cv 0 a b c

/-- Values that the manual, or arithmetic by hand, gives: R131, R136, R137, R140, R143, R144, R148, R149, R152, R153, R155, R156, R158, R165. -/
structure ElemExamples : Prop where
  integers : elemPlain 0x10 fmtINT8 0 0x7F8001FF 0x01FF0101 0 = 0x807F0200 ∧ elemPlain 0x13 fmtINT16 0 0x40008000 0xFFFF8000 0 = 0xFFFF4000 ∧
    elemPlain 0x14 fmtINT16 0 0x40008000 0xFFFF8000 0 = 0x3FFF4000 ∧ elemPlain 0x30 fmtINT16 2 0x0005FFFE 0x00000003 0 = 0x0000FFFF
  converts : elemPlain 0x60 fmtB8p4se fmtFP32 0x41480000 0 0 = 0x5C ∧ elemPlain 0x60 fmtB8p4se fmtFP32 0x43960000 0 0 = 0x7F ∧
    elemPlain 0x60 fmtB8p4se fmtFP32 0x80000000 0 0 = 0 ∧ elemPlain 0x60 fmtB8p4se fmtFP32 0x7FC00003 0 0 = 0x80
  scales : elemPlain 0x65 fmtINT8 fmtFP32 0xC0533333 0x41200000 0 = 0xDF ∧ elemPlain 0x64 fmtFP32 fmtINT8 0xDF 0x3DCCCCCD 0 = 0xC0533333
  fused : elemPlain 0x43 fmtFP32 0 0x3F800001 0x3F800001 0xBF800002 = 0x28800000 ∧ elemPlain 0x45 fmtFP32 0 0 0x3F800000 0x80000000 = 0x80000000 ∧
    elemPlain 0x43 fmtFP32 0 0 0x7F800000 0xFF800000 = 0x7FC00004
  functions : elemPlain 0x50 fmtFP32 0 0x40400000 0 0 = 0x3EAAAAAB ∧ elemPlain 0x52 fmtFP32 0 0x40000000 0 0 = 0x3FB504F3 ∧
    elemPlain 0x51 fmtFP32 0 0x40000000 0 0 = 0x3F3504F3 ∧ elemPlain 0x53 fmtFP32 0 0x3F000000 0 0 = 0x3FB504F3 ∧
    elemPlain 0x54 fmtFP32 0 0x41000000 0 0 = 0x40400000
  scalb : elemPlain 0x55 fmtBF16 0 0x3F80 0xFF7B 0 = 0x0001 ∧ elemPlain 0x55 fmtBF16 0 0x3F80 0xFF7A 0 = 0x0000
  tournament : elemPlain 0x70 fmtBF16 0 0x40000000 0x40400001 0 = 0x40400001 ∧ elemPlain 0x70 fmtBF16 0 0x40400002 0x7FC10003 0 = 0x40400002 ∧
    elemPlain 0x70 fmtBF16 0 0x40400001 0x40400002 0 = 0x40400001 ∧ elemPlain 0x71 fmtBF16 0 0x40400001 0x40400001 0 = 0x4040FFFF ∧
    elemPlain 0x71 fmtBF16 0 0x40400002 0x40400001 0 = 0x40400002
  softmax : elemPlain 0x72 fmtFP32 0 0x40400000 0x3F800000 0 = 0x40400000 ∧ elemPlain 0x72 fmtFP32 1 0x40400000 0x3F800000 0 = 0x40000000 ∧
    elemPlain 0x72 fmtFP32 2 0x3FC00000 0x40000000 0x40000000 = 0x40000000 ∧ elemPlain 0x72 fmtFP32 2 0x40C00000 0xC0800000 0x40000000 = 0x40A00000
  steep : elemPlain opSTEEP fmtBF16 fmtPW16 0xC4FF4CFF 0 0 = 0xBFC04040 ∧ elemPlain opSTEEP fmtB8p4se fmtPW16 0xC4FF4CFF 0 0 = 0x0000C44C

/-- R96 to R99, R103: a lane that is no NaN is the one that its exact value rounds to, in every mode. -/
def ExactLanes : Prop :=
  ∀ f rnd x : Nat, (fmtIsFloat f = true ∨ fmtIsB8 f = true ∨ fmtIsInt f = true) → rnd < 4 → x < 2 ^ fmtWidth f → isNan f x = false →
    Machine.encode (decodeLane f x) f rnd false = x

/-- R164 to R166: the steeping operations draw for consecutive weight indices of the task's state. -/
structure SteepDraws : Prop where
  steep : ∀ (k : SteepKeys) (pf f rnd cv imm a b c i : Nat) (sat : Bool), cv % 64 = pf → pf = fmtPW16 ∨ pf = fmtPW32 →
    fmtIsFloat f = true ∨ fmtIsB8 f = true → i < fmtLanes f →
    lane (elemBits k opSTEEP f rnd sat cv imm a b c) (fmtWidth f) i = if i < fmtLanes pf then
      steepWeight (lane a (fmtWidth pf) i) pf (epsDraw k.key.toNat k.stream.toNat k.member.toNat ((k.base.toNat + b + i) % 2 ^ 48)) f rnd sat else 0
  eps : ∀ (k : SteepKeys) (imm a b c : Nat), elemBits k opEPS fmtFP32 0 false 0 imm a b c =
    epsDraw k.key.toNat k.stream.toNat k.member.toNat ((k.base.toNat + a) % 2 ^ 48)
  escl : ∀ (k : SteepKeys) (pf imm a b c : Nat), pf = fmtPW16 ∨ pf = fmtPW32 →
    isNan (pairEllFmt pf) (pairEll pf (lane a (fmtWidth pf) 0)) = false →
    elemBits k opESCL fmtFP32 0 false pf imm a b c = rn32 ((decodeLane fmtFP32 (pairSigma pf (lane a (fmtWidth pf) 0))).mul
      (decodeLane fmtFP32 (epsDraw k.key.toNat k.stream.toNat k.member.toNat ((k.base.toNat + b) % 2 ^ 48))))

/-- The values of the element operations. -/
structure ElemValues : Prop where
  moves : BitMoves
  integers : ∀ f sat, fmtIsInt f = true → IntegerLanes f sat
  floats : ∀ f rnd sat, fmtIsFloat f = true → rnd < 4 → FloatLanes f rnd sat
  orders : ∀ f, fmtIsFloat f = true ∨ fmtIsB8 f = true → OrderLanes f
  converts : ∀ sf df rnd sat, fmtIsFloat sf = true ∨ fmtIsInt sf = true ∨ fmtIsB8 sf = true →
    fmtIsFloat df = true ∨ fmtIsInt df = true ∨ fmtIsB8 df = true → rnd < 4 → ConvertLanes sf df rnd sat
  exact : ExactLanes
  draws : SteepDraws
  examples : ElemExamples

/-- A region of a resident configuration stands with its boundary's work done at a row of an active context, alone in its cycle. -/
structure RowStands (s : State) (t r ctx : Nat) (g : Region) (h : RegionHdr) (x : LoopCtx) : Prop where
  resident : (s.tile t).fabric.active ≠ none
  region : (s.tile t).fabric.regions[r]? = some g
  image : (s.tile t).fabric.act.regions[r]? = some h
  alone : (s.tile t).fabric.beat = []
  done : g.ready = true
  calm : ∀ y ∈ g.ctxs, y.resuming = false
  context : g.ctxs[ctx]? = some x
  runs : x.stat = .running ∨ x.stat = .draining
  header : rhCTX (mapGet 0 (s.tile t).fabric.act.hdrs (r * 32 + g.row)).toNat = ctx
  columns : h.ocol + h.width ≤ 16

/-- Such a row has issued: the counter is past it, and every word that gives a result has put it in its result register. -/
structure RowIssued (s u : State) (t r : Nat) (g : Region) (h : RegionHdr) (os : List ElemOut) : Prop where
  region : ∃ g' : Region, (u.tile t).fabric.regions[r]? = some g' ∧ g'.row = (if g.row + 1 = h.rows then 0 else g.row + 1) ∧
    g'.passEnd = decide (g.row + 1 = h.rows) ∧ g'.ready = false ∧ g'.holding = false
  results : ∀ o ∈ os, ∀ v, o.res = some v → mapGet TVal.empty (u.tile t).fabric.res o.el = v
  keeps : ∀ k, (∀ o ∈ os, o.el ≠ k) → mapGet TVal.empty (u.tile t).fabric.res k = mapGet TVal.empty (s.tile t).fabric.res k
  mem : u.mem = s.mem

end Sys2Proof.Spec

/-- fb.load of a configuration number with images in the task's container stages it in the idle plane and leaves the active plane alone;
while an expansion is in progress it blocks, and a number with no image raises CFGREJECT of the number's field (log entry 160). With
rs1[63] set it stages the images of a list in scratchpad in the same way, as configuration 255, or raises the trap that the list or an image gives:
ALIGN of a misaligned list, CFGREJECT of a count outside 1 to 8; rs1[62:21] other than 0 raises ILLEGAL, and so does a number of more than 8
bits. With no configuration resident plane 0 is the idle one (log entry 156). An expansion that completes leaves the staged plane whole. fb.swap with nothing staged gives all ones; with a whole staged plane and a quiescent configuration it installs
the plane and gives its number (CFGREJECT where a port it binds has another page size than its tensor: log entry 139), and otherwise it blocks, until PLANE_SWAP_INSTALL does the same at the blocked form. -/
def Obligations.PlaneSwap : Prop :=
  (∀ (s : State) (d a : Reg), s.fc = 0 → s.rn a < 256 →
    (confSections s.myContainer (s.rn a) ≠ [] → (s.tile s.ft).fabric.expanding = false → ∃ t : State, exec (.fbLoad d a) s = .next t ∧
      Returns s t d 0 ∧ (t.tile s.ft).fabric.staged = true ∧ (t.tile s.ft).fabric.expanding = true ∧
      ((t.tile s.ft).fabric.plane (s.tile s.ft).fabric.idle).conf = s.rn a ∧
      (∀ i, i < 2 → i ≠ (s.tile s.ft).fabric.idle → (t.tile s.ft).fabric.plane i = (s.tile s.ft).fabric.plane i) ∧
      (t.tile s.ft).fabric.active = (s.tile s.ft).fabric.active ∧ (t.tile s.ft).fabric.regions = (s.tile s.ft).fabric.regions) ∧
    (confSections s.myContainer (s.rn a) ≠ [] → (s.tile s.ft).fabric.expanding = true →
      ∃ t : State, exec (.fbLoad d a) s = .next t ∧ Blocks s t) ∧
    (confSections s.myContainer (s.rn a) = [] →
      exec (.fbLoad d a) s = .next (raiseCore s ⟨cCFGREJECT, 72 * 2 ^ 24 + 2 * 2 ^ 31, 0, false⟩))) ∧
  (∀ (s : State) (d a : Reg), s.fc = 0 →
    (s.rn a < 2 ^ 63 → 256 ≤ s.rn a → exec (.fbLoad d a) s = .next (illegalAt s)) ∧
    (2 ^ 63 + 2 ^ 21 ≤ s.rn a → exec (.fbLoad d a) s = .next (illegalAt s)) ∧
    (∀ off, off < 2 ^ 21 → s.rn a = 2 ^ 63 + off →
      (∀ ms, listImgs s off = .ok ms → (s.tile s.ft).fabric.expanding = false → ∃ t : State, exec (.fbLoad d a) s = .next t ∧
        Returns s t d 0 ∧ (t.tile s.ft).fabric.staged = true ∧ (t.tile s.ft).fabric.expanding = true ∧
        ((t.tile s.ft).fabric.plane (s.tile s.ft).fabric.idle).conf = 255 ∧
        ((t.tile s.ft).fabric.plane (s.tile s.ft).fabric.idle).regions = ms.map (fun m => m.hdr) ∧
        (∀ i, i < 2 → i ≠ (s.tile s.ft).fabric.idle → (t.tile s.ft).fabric.plane i = (s.tile s.ft).fabric.plane i) ∧
        (t.tile s.ft).fabric.active = (s.tile s.ft).fabric.active ∧ (t.tile s.ft).fabric.regions = (s.tile s.ft).fabric.regions) ∧
      (∀ ms, listImgs s off = .ok ms → (s.tile s.ft).fabric.expanding = true → ∃ t : State, exec (.fbLoad d a) s = .next t ∧ Blocks s t) ∧
      (∀ tr, listImgs s off = .error tr → exec (.fbLoad d a) s = .next (raiseCore s tr)) ∧
      (off % 4 ≠ 0 → exec (.fbLoad d a) s = .next (raiseCore s (tAlign off 4))) ∧
      (∀ b3 : Nat, off % 4 = 0 → off + 4 ≤ 2 ^ 21 → (∀ i, i < 4 → s.poisonAt (spadBase s.ft + off + i) = false) →
        b3 = (s.byteAt (.tile s.ft 0) (spadBase s.ft + off)).toNat → b3 = 0 ∨ 8 < b3 →
        exec (.fbLoad d a) s = .next (raiseCore s (tCfgDesc 0 off))))) ∧
  (∀ f : Fabric, f.idle = if f.active = some 0 then 1 else 0) ∧
  (∀ (s : State) (t : Nat), ∃ u : State, exec (.expansionComplete t) s = .next u ∧ (u.tile t).fabric = { (s.tile t).fabric with expanding := false } ∧
    u.mem = s.mem) ∧
  (∀ (s : State) (d : Reg), s.fc = 0 →
    ((s.tile s.ft).fabric.staged = false → exec (.fbSwap d) s = .next (finishRd s d (BitVec.allOnes 64))) ∧
    ((s.tile s.ft).fabric.staged = true → (s.tile s.ft).fabric.expanding = false → quiescent (s.tile s.ft) = true →
      stagedPageFail s s.ft s.fslot = true → exec (.fbSwap d) s = .next (raiseCore s ⟨cCFGREJECT, 17 * 2 ^ 24 + 5 * 2 ^ 31, 0, false⟩)) ∧
    ((s.tile s.ft).fabric.staged = true → (s.tile s.ft).fabric.expanding = false → quiescent (s.tile s.ft) = true →
      stagedPageFail s s.ft s.fslot = false →
      ∃ t : State, exec (.fbSwap d) s = .next t ∧ Returns s t d (BitVec.ofNat 64 ((s.tile s.ft).fabric.plane (s.tile s.ft).fabric.idle).conf) ∧
        (t.tile s.ft).fabric.active = some (s.tile s.ft).fabric.idle ∧ (t.tile s.ft).fabric.staged = false ∧
        (t.tile s.ft).fabric.plane0 = (s.tile s.ft).fabric.plane0 ∧ (t.tile s.ft).fabric.plane1 = (s.tile s.ft).fabric.plane1 ∧
        (t.tile s.ft).fabric.res = [] ∧ (t.tile s.ft).fabric.chan = [] ∧ (t.tile s.ft).fabric.flight = [] ∧
        (t.tile s.ft).fabric.ct = (s.tile s.ft).fabric.ct ∧ (t.tile s.ft).fabric.sk = (s.tile s.ft).fabric.sk) ∧
    ((s.tile s.ft).fabric.staged = true → (s.tile s.ft).fabric.expanding = true ∨ quiescent (s.tile s.ft) = false →
      ∃ t : State, exec (.fbSwap d) s = .next t ∧ Blocks s t)) ∧
  (∀ (s : State) (t : Nat) (d : Reg), (s.tile t).ctl.blocked = true → (s.tile t).ctl.stat = .run →
    decodeFetched (s.tile t).ctl.iword (s.tile t).ctl.ilen = .fbSwap d → (s.tile t).fabric.staged = true →
    (s.tile t).fabric.expanding = false → quiescent (s.tile t) = true → stagedPageFail s t (s.slot t) = false →
    ∃ u : State, exec (.planeSwapInstall t) s = .next u ∧ (u.tile t).fabric.active = some (s.tile t).fabric.idle ∧
      (u.tile t).fabric.staged = false ∧ u.focus = s.focus ∧ u.mem = s.mem ∧
      (u.tile t).ctl = ((s.tile t).ctl.wx d (BitVec.ofNat 64 ((s.tile t).fabric.plane (s.tile t).fabric.idle).conf)).advance) ∧
  (∀ (s : State) (t : Nat) (d : Reg), (s.tile t).ctl.blocked = true → (s.tile t).ctl.stat = .run →
    decodeFetched (s.tile t).ctl.iword (s.tile t).ctl.ilen = .fbSwap d → (s.tile t).fabric.staged = true →
    (s.tile t).fabric.expanding = false → quiescent (s.tile t) = true → stagedPageFail s t (s.slot t) = true →
    exec (.planeSwapInstall t) s = .next { raiseCore { s with focus := (t, 0) } ⟨cCFGREJECT, 17 * 2 ^ 24 + 5 * 2 ^ 31, 0, false⟩
      with focus := s.focus })

/-- fb.run makes each enabled context that its mask selects, 0 selecting all, start when it is UNSTARTED or EXITED and resume when
FROZEN, and leaves every other context; with no configuration it raises RESOURCE and on a matrix-mode one CFGREJECT (its field: log entry 49). After fb.stop
no context of the configuration is RUNNING or DRAINING, and one that was RUNNING at a boundary done is FROZEN at its row. fb.tok puts
a value in an empty token and blocks on a full one; fb.sink gives 0 of an empty sink, and of a full one its value with bit 63, emptying it. -/
def Obligations.FabricRunning : Prop :=
  (∀ (s : State) (a : Reg), s.fc = 0 → s.rn a < 16 →
    ((s.tile s.ft).fabric.active = none → exec (.fbRun a) s = .next (resourceAt s)) ∧
    ((s.tile s.ft).fabric.matrix = true → exec (.fbRun a) s =
      .next (raiseCore s ⟨cCFGREJECT, 24 * 2 ^ 24 + 2 * 2 ^ 31, 0, false⟩)) ∧
    ((s.tile s.ft).fabric.active ≠ none → (s.tile s.ft).fabric.matrix = false → ∃ t : State, exec (.fbRun a) s = .next t ∧ Completes s t ∧
      (t.tile s.ft).fabric.res = (s.tile s.ft).fabric.res ∧ (t.tile s.ft).fabric.rot = (s.tile s.ft).fabric.rot ∧
      ∀ (r : Nat) (g : Region) (h : RegionHdr), (s.tile s.ft).fabric.regions[r]? = some g →
        (s.tile s.ft).fabric.act.regions[r]? = some h → ∃ g' : Region, (t.tile s.ft).fabric.regions[r]? = some g' ∧ g'.row = g.row ∧
          ∀ (c : Nat) (y : LoopCtx), g.ctxs[c]? = some y → g'.ctxs[c]? = some
            (if bitOf h.lcMask c = true ∧ (s.rn a = 0 ∨ bitOf (s.rn a) c = true) then
              (match y.stat with
                | .running => y | .draining => y | .frozen => { y with resuming := true }
                | .exited => { y with starting := true } | .unstarted => { y with starting := true })
            else y))) ∧
  (∀ (s : State), s.fc = 0 → ∃ t : State, exec .fbStop s = .next t ∧ t.cur = s.cur.advance ∧ t.mem = s.mem ∧
    ∀ (r : Nat) (g : Region) (h : RegionHdr), (s.tile s.ft).fabric.regions[r]? = some g →
      (s.tile s.ft).fabric.act.regions[r]? = some h → ∃ g' : Region, (t.tile s.ft).fabric.regions[r]? = some g' ∧
        (∀ y ∈ g'.ctxs, y.stat ≠ .running ∧ y.stat ≠ .draining) ∧
        (g.ready = true → ∀ (c : Nat) (y : LoopCtx), g.ctxs[c]? = some y → y.stat = .running →
          g'.ctxs[c]? = some { y with stat := .frozen, wasDraining := false, frozenRow := g.row } ∧ g'.row = g.row)) ∧
  (∀ (s : State) (a : Reg) (k : BitVec 2), s.fc = 0 → s.rn a < 2 ^ 40 →
    (mapGet none (s.tile s.ft).fabric.ct k.toNat = none → ∃ t : State, exec (.fbTok a k) s = .next t ∧ Completes s t ∧
      mapGet none (t.tile s.ft).fabric.ct k.toNat = some ⟨BitVec.ofNat 32 (s.rn a), BitVec.ofNat 8 (s.rn a / 2 ^ 32)⟩ ∧
      ∀ j, j ≠ k.toNat → mapGet none (t.tile s.ft).fabric.ct j = mapGet none (s.tile s.ft).fabric.ct j) ∧
    (mapGet none (s.tile s.ft).fabric.ct k.toNat ≠ none → ∃ t : State, exec (.fbTok a k) s = .next t ∧ Blocks s t)) ∧
  (∀ (s : State) (d : Reg) (k : BitVec 2), s.fc = 0 →
    (mapGet none (s.tile s.ft).fabric.sk k.toNat = none → exec (.fbSink d k) s = .next (finishRd s d 0)) ∧
    (∀ x, mapGet none (s.tile s.ft).fabric.sk k.toNat = some x → ∃ t : State, exec (.fbSink d k) s = .next t ∧
      Returns s t d (BitVec.ofNat 64 (2 ^ 63 + 2 ^ 32 * x.tag.toNat + x.bits.toNat)) ∧
      mapGet none (t.tile s.ft).fabric.sk k.toNat = none ∧
      ∀ j, j ≠ k.toNat → mapGet none (t.tile s.ft).fabric.sk j = mapGet none (s.tile s.ft).fabric.sk j)) ∧
  (∀ (s : State) (d a : Reg) (k : BitVec 2), s.fc ≠ 0 → ∀ i : Instr, i ∈ [.fbLoad d a, .fbSwap d, .fbRun a, .fbStop, .fbTok a k,
    .fbSink d k] → exec i s = .next (illegalAt s))

/-- The lanes of each result are the exact value of the operation on the same lanes of its sources: integer operations wrapped, or clamped under .sat, shifts,
counts, comparisons and selections bit by bit; moves, constants, logic, packing and unpacking; floating-point operations rounded once, with the
generated NaN of the first NaN read; reciprocal, roots, exponential and logarithm at zeros, infinities and negative values; minimum, maximum, clamp and FCMP by
value; conversions and scalings on the lanes that both formats have (what CVT within one format does with a NaN is log entry 157), zero in the rest; the steeping
draws of consecutive weight indices. A lane that is no NaN is what its own exact value rounds to. With the manual's worked examples, tournament
entries and softmax partials among them. -/
def Obligations.ElementOperations : Prop := ElemValues

/-- A region whose boundary work is done, at a row of an active context: a row that is not ready holds the region, no result register,
entry, token or sink changing. A ready row writes each word's result to its result register, and the row counter moves on, to 0 after the last row. Where no
word traps: each route is on its way with its delay, each outbound port has one more entry reserved for each value driven to it, the control tokens read
are gone, and the one inbound port read, in tensor mode and not at its last token, has lost its oldest token, once. Where one word traps, its record goes to the control core, or as a
fault to the die manager; its result register stays, and no context of the region runs any more. A row that draws from an inverse-normal unit with both table copies failing does not
issue: its tile has a fatal fault. A region with nothing to run does nothing. A route that falls due puts its value on its channel, or, unless it is EMPTY, on its
outbound port. A context at the end of its 16th drain pass, with no value of its own still in flight, is
EXITED, its iteration counted and its EMPTY routes gone, with the rest of the boundary's work: the region's delay lines shift. -/
def Obligations.FabricRows : Prop :=
  (∀ (s : State) (t r ctx : Nat) (g : Region) (h : RegionHdr) (x : LoopCtx) (e : RowEnv) (os : List ElemOut), RowStands s t r ctx g h x →
    e = rowEnv s t (s.tile t) [] h g.row ctx x → os = e.execRow →
    (e.isReady os = false →
      ∃ (u : State) (g' : Region), exec (.rowIssue t r) s = .next u ∧ (u.tile t).fabric.regions[r]? = some g' ∧ g'.holding = true ∧ g'.row = g.row ∧
        (u.tile t).fabric.res = (s.tile t).fabric.res ∧ (u.tile t).fabric.rot = (s.tile t).fabric.rot ∧
        (u.tile t).fabric.ct = (s.tile t).fabric.ct ∧ (u.tile t).fabric.sk = (s.tile t).fabric.sk ∧ u.mem = s.mem) ∧
    (e.isReady os = true → drawsTables os = true → (s.tile t).tables = 3 →
      ∃ u : State, exec (.rowIssue t r) s = .next u ∧ t ∈ (u.die (t / 512)).fatal ∧ (u.tile t).fabric.regions[r]? = some g ∧
        (u.tile t).fabric.res = (s.tile t).fabric.res ∧ (u.tile t).fabric.rot = (s.tile t).fabric.rot ∧ u.mem = s.mem) ∧
    (e.isReady os = true → drawsTables os = false ∨ (s.tile t).tables ≠ 3 → (∀ o ∈ os, o.trap = none) →
      (e.portsRead os = [] → ∃ u : State, exec (.rowIssue t r) s = .next u ∧ RowIssued s u t r g h os ∧
        (∀ p, (u.tile t).port p = { (s.tile t).port p with reserved := ((s.tile t).port p).reserved + (os.map e.drives).flatten.count p }) ∧
        (u.tile t).fabric.flight = (s.tile t).fabric.flight.map (fun y => if y.region = r then { y with left := y.left - 1 } else y) ++
          (os.map (fun o => o.routes.map (fun w => ⟨r, w.2.2.1, e.port o.el w.1 w.2.1, neighbour o.el w.1, w.2.1, w.2.2.2, ctx⟩))).flatten ∧
        (e.real = true → ∀ o ∈ os, ∀ c ∈ ewReads o.w, 28 ≤ c → c < 32 → mapGet none (u.tile t).fabric.ct (c - 28) = none) ∧
        (∀ o k v, os = [o] → o.sink = some (k, v) → mapGet none (u.tile t).fabric.sk k = some v)) ∧
      (∀ p, e.portsRead os = [p] → ((s.tile t).port p).cfg.wm = false →
        ((s.tile t).port p).queue.tail ≠ [] ∨ ((s.tile t).port p).nextStep ≠ ((s.tile t).port p).cfg.total →
        ∃ u : State, exec (.rowIssue t r) s = .next u ∧ RowIssued s u t r g h os ∧
          (u.tile t).port p = { (s.tile t).port p with queue := ((s.tile t).port p).queue.tail, moved := ((s.tile t).port p).moved + 1 })) ∧
    (∀ o src tr, e.isReady os = true → drawsTables os = false ∨ (s.tile t).tables ≠ 3 → o ∈ os → o.trap = some (src, tr) →
      (∀ o' ∈ os, o'.trap.isSome → o'.el = o.el) → e.portsRead os = [] →
      ∃ (u : State) (g' : Region), exec (.rowIssue t r) s = .next u ∧ (u.tile t).fabric.regions[r]? = some g' ∧ u.mem = s.mem ∧
        (∀ y ∈ g'.ctxs, y.stat ≠ .running ∧ y.stat ≠ .draining) ∧
        mapGet TVal.empty (u.tile t).fabric.res o.el = mapGet TVal.empty (s.tile t).fabric.res o.el ∧
        (∀ o' ∈ os, ∀ v, o'.res = some v → mapGet TVal.empty (u.tile t).fabric.res o'.el = v) ∧
        ((s.tile t).takes tr = true → (u.tile t).traps = (s.tile t).traps ++
          [(mkRec s t (s.slot t) 3 (2 ^ 62 + g.row + 2 ^ 8 * (o.el / 16) + 2 ^ 12 * (o.el % 16) + 2 ^ 16 * src) tr false, 3)]) ∧
        ((s.tile t).takes tr = false → (u.die (t / 512)).faults = (s.die (t / 512)).faults ++
          [((mkRec s t (s.slot t) 3 (2 ^ 62 + g.row + 2 ^ 8 * (o.el / 16) + 2 ^ 12 * (o.el % 16) + 2 ^ 16 * src) tr true).asFault,
            s.taskLaunch t (s.slot t), none)]))) ∧
  (∀ (s : State) (t r : Nat) (g : Region), (s.tile t).fabric.regions[r]? = some g →
    (∀ y ∈ g.ctxs, y.stat ≠ .running ∧ y.stat ≠ .draining ∧ y.starting = false ∧ y.resuming = false) →
    exec (.rowIssue t r) s = .next s) ∧
  (∀ (s : State) (t r : Nat) (g : Region) (x : InFlight), (s.tile t).fabric.regions[r]? = some g → g.ready = false →
    (s.tile t).fabric.flight.filter (fun y => y.region == r && y.left == 0) = [x] →
    ∃ u : State, exec (.routeLanding t r) s = .next u ∧ u.mem = s.mem ∧
      (u.tile t).fabric.flight = (s.tile t).fabric.flight.filter (fun y => !(y.region == r && y.left == 0)) ∧
      (x.port = none → mapGet TVal.empty (u.tile t).fabric.chan (x.elem * 4 + x.chan) = x.val ∧
        (∀ k, k ≠ x.elem * 4 + x.chan → mapGet TVal.empty (u.tile t).fabric.chan k = mapGet TVal.empty (s.tile t).fabric.chan k) ∧
        ∀ p, (u.tile t).port p = (s.tile t).port p) ∧
      (∀ p, x.port = some p → (u.tile t).fabric.chan = (s.tile t).fabric.chan ∧ (∀ q, q ≠ p → (u.tile t).port q = (s.tile t).port q) ∧
        (x.val.tag = 0 → (u.tile t).port p = (s.tile t).port p) ∧
        (x.val.tag ≠ 0 → ((s.tile t).port p).stat = .streaming → (u.tile t).port p = { (s.tile t).port p with
          queue := ((s.tile t).port p).queue ++ [⟨x.val, 0, false, ((s.tile t).port p).nextStep⟩]
          nextStep := ((s.tile t).port p).nextStep + 1
          reserved := ((s.tile t).port p).reserved - 1
          moved := ((s.tile t).port p).moved + 1 }) ∧
        (x.val.tag ≠ 0 → ((s.tile t).port p).stat ≠ .streaming → (u.tile t).port p =
          { (s.tile t).port p with reserved := ((s.tile t).port p).reserved - 1 }))) ∧
  (∀ (s : State) (t r c : Nat) (g : Region) (h : RegionHdr) (x : LoopCtx), (s.tile t).fabric.regions[r]? = some g →
    (s.tile t).fabric.act.regions[r]? = some h → g.ctxs[c]? = some x → g.ready = false → g.passEnd = true → x.stat = .draining →
    x.drained = 15 → x.starting = false → x.resuming = false →
    (∀ y ∈ (s.tile t).fabric.flight, y.region = r → y.ctx = c → y.val.tag = 0) →
    ∃ (u : State) (g' : Region) (x' : LoopCtx), exec (.drainLimitExit t r c) s = .next u ∧ (u.tile t).fabric.regions[r]? = some g' ∧ g'.ctxs[c]? = some x' ∧
      x'.stat = .exited ∧ x'.iter = x.iter + 1 ∧ g'.ready = true ∧
      (∀ (k : Nat) (y : LoopCtx), g.ctxs[k]? = some y → y.stat ≠ .running → y.stat ≠ .draining → y.starting = false → y.resuming = false →
        g'.ctxs[k]? = some y) ∧
      (u.tile t).fabric.dl = (shiftLines (landRegion (s.tile t) r).fabric h).dl ∧
      (∀ y ∈ (u.tile t).fabric.flight, ¬ (y.region = r ∧ y.ctx = c)) ∧ u.mem = s.mem)

/-- mx.issue of a first row within the step table starts an idle sequencer there with its tag and both counters 0, and blocks on a
busy one; mx.wait gives 0 and removes the oldest class-4 record of its tag, or gives 1 when there is none, and blocks while a block
runs. MS.LOOP repeats its body while the counter is below the iterations and then goes on with it 0. MS.ZERO zeroes its rows in
its kind; MS.WAIT as a fence goes on, and as a receive names its peer; MS.END ends the block with its class-4 record. A peer drain
or a receive whose limit is used up traps with WAITEXP of kind 5, or of kind 6 with the rows accepted. A row that traps stops the
block: the record names the row, the row within it and the last row begun; how many of the rows that may have begun after it had
begun is free (log entry 51), none of them a row of its own unit directly behind it; those complete, after which the sequencer is idle, and an end among
them leaves no record. The rows above are of a block that no trap is ending. -/
def Obligations.MatrixBlocks : Prop :=
  (∀ (s : State) (a : Reg) (first : Nat) (u : Word), s.fc = 0 → first < 32 → s.rn a = first + 2 ^ 32 * u.toNat →
    ((s.tile s.ft).fabric.active = none → exec (.mxIssue a) s = .next (resourceAt s)) ∧
    ((s.tile s.ft).fabric.active ≠ none → (s.tile s.ft).fabric.matrix = true → first < (s.tile s.ft).fabric.act.steps.length →
      ((s.tile s.ft).mx.busy = false → ∃ t : State, exec (.mxIssue a) s = .next t ∧ Completes s t ∧ (t.tile s.ft).mx.busy = true ∧
        (t.tile s.ft).mx.row = first ∧ (t.tile s.ft).mx.utag = u ∧ (t.tile s.ft).mx.n0 = 0 ∧ (t.tile s.ft).mx.n1 = 0 ∧
        (t.tile s.ft).acc = (s.tile s.ft).acc) ∧
      ((s.tile s.ft).mx.busy = true → ∃ t : State, exec (.mxIssue a) s = .next t ∧ Blocks s t))) ∧
  (∀ (s : State) (d a : Reg), s.fc = 0 → s.rn a < 2 ^ 32 →
    ((s.tile s.ft).mx.busy = true → ∃ t : State, exec (.mxWait d a) s = .next t ∧ Blocks s t) ∧
    ((s.tile s.ft).mx.busy = false → (s.tile s.ft).pending = [] →
      (∀ i r, (s.tile s.ft).events[i]? = some r → r.slot = s.fslot → r.cls = 4 → r.tag = BitVec.ofNat 32 (s.rn a) →
        (∀ j q, j < i → (s.tile s.ft).events[j]? = some q → ¬ (q.slot = s.fslot ∧ q.cls = 4 ∧ q.tag = BitVec.ofNat 32 (s.rn a))) →
        ∃ t : State, exec (.mxWait d a) s = .next t ∧ Returns s t d 0 ∧ (t.tile s.ft).events = (s.tile s.ft).events.eraseIdx i) ∧
      ((∀ q ∈ (s.tile s.ft).events, ¬ (q.slot = s.fslot ∧ q.cls = 4 ∧ q.tag = BitVec.ofNat 32 (s.rn a))) →
        exec (.mxWait d a) s = .next (finishRd s d 1)))) ∧
  (∀ (s : State) (t : Nat) (target : BitVec 5) (lvl : BitVec 1) (it dk dm : BitVec 16) (da : BitVec 11) (dw : BitVec 13)
      (di : BitVec 24) (dd : BitVec 15) (n : Nat), (s.tile t).stepRow = some (.loop target lvl it dk dm da dw di dd) →
    (s.tile t).mx.wind = none → n = (if lvl = 0 then (s.tile t).mx.n0 else (s.tile t).mx.n1) →
    ∃ u : State, exec (.msLoop t) s = .next u ∧ (if lvl = 0 then (u.tile t).mx.n0 else (u.tile t).mx.n1) = (if n + 1 ≤ it.toNat then n + 1 else 0) ∧
      (u.tile t).mx.row = (if n + 1 ≤ it.toNat then target.toNat else (s.tile t).mx.row + 1) ∧ (u.tile t).mx.busy = true ∧
      (if lvl = 0 then (u.tile t).mx.n1 = (s.tile t).mx.n1 else (u.tile t).mx.n0 = (s.tile t).mx.n0) ∧
      (u.tile t).acc = (s.tile t).acc ∧ u.mem = s.mem) ∧
  (∀ (s : State) (t a : Nat) (abase cnt : BitVec 10) (ak : BitVec 1), (s.tile t).stepRow = some (.zero abase cnt ak) →
    (s.tile t).mx.wind = none →
    (s.tile t).effAcc abase.toNat cnt.toNat = .ok a →
    ∃ u : State, exec (.msZero t) s = .next u ∧ (u.tile t).mx.row = (s.tile t).mx.row + 1 ∧ u.mem = s.mem ∧
      (∀ i, i ≤ cnt.toNat → (u.tile t).accRow (a + i) = ⟨ak == 1, List.replicate 16 0⟩) ∧
      (∀ k, k < a ∨ a + cnt.toNat < k → (u.tile t).accRow k = (s.tile t).accRow k)) ∧
  (∀ (s : State) (t : Nat) (kind : BitVec 2) (abase cnt : BitVec 10) (slot pidx : BitVec 2) (limit : BitVec 24),
    (s.tile t).stepRow = some (.wait kind abase cnt slot pidx limit) →
    (kind = 1 → (s.tile t).mx.wind = none → ∃ u : State, exec (.msWait t) s = .next u ∧ (u.tile t).mx.row = (s.tile t).mx.row + 1 ∧ (u.tile t).acc = (s.tile t).acc ∧
      u.mem = s.mem) ∧
    (∀ a p, kind ≠ 1 → (s.tile t).effAcc abase.toNat cnt.toNat = .ok a → (s.tile t).rowPeer t pidx.toNat = .ok p →
      ∃ u : State, exec (.msWait t) s = .next u ∧ (u.tile t).mx.row = (s.tile t).mx.row ∧ (u.tile t).mx.prog.peer = some p ∧
        (u.tile t).mx.prog.rowsDone = (s.tile t).mx.prog.rowsDone ∧ (u.tile t).acc = (s.tile t).acc ∧ u.mem = s.mem) ∧
    (kind = 0 → limit ≠ 0 → limit.toNat * 256 ≤ (s.tile t).mx.prog.waited → exec (.msWaitExpiry t) s = .next
      (mxTrap s t (s.tile t).mx.prog.rowsDone ⟨cWAITEXP, 6, (s.tile t).mx.prog.rowsDone, false⟩))) ∧
  (∀ (s : State) (t : Nat) (clr : BitVec 1) (abase cnt : BitVec 10) (daddr : BitVec 15) (dfmt : BitVec 6) (rnd : BitVec 2)
      (sat : BitVec 1) (pidx : BitVec 2) (limit : BitVec 24),
    (s.tile t).stepRow = some (.drain 1 clr abase cnt daddr dfmt rnd sat pidx limit) → limit ≠ 0 →
    limit.toNat * 256 < (s.tile t).mx.prog.waited → exec (.drainStallExpiry t) s = .next
      (mxTrap s t (s.tile t).mx.prog.rowsDone ⟨cWAITEXP, 5, 0, false⟩)) ∧
  (∀ (s : State) (t sub : Nat) (x : StepRow) (tr : Trap), (s.tile t).stepRow = some x → (s.tile t).mx.wind = none →
    ∃ (n : Nat) (u : State), mxTrap s t sub tr =
        raiseTrap u t (s.slot t) 3 (2 * 2 ^ 62 + (s.tile t).mx.row + 2 ^ 5 * sub +
          2 ^ 15 * ((begun s t).take n).getLastD (s.tile t).mx.row) tr ∧
      n ≤ (begun s t).length ∧ (n = 0 → (u.tile t).mx.busy = false ∧ (u.tile t).mx.wind = none) ∧
      (0 < n → (u.tile t).mx = { (s.tile t).mx.after x with
        wind := some ⟨n, ((begun s t).take n).getLastD (s.tile t).mx.row, (s.ext t (s.slot t)).steep⟩ }) ∧
      (u.tile t).acc = (s.tile t).acc ∧ (u.tile t).fabric = (s.tile t).fabric ∧ u.mem = s.mem) ∧
  (∀ (s : State) (t : Nat) (x y : StepRow), (s.tile t).stepRow = some x →
    (({ s.tile t with mx := (s.tile t).mx.after x } : Tile)).stepRow = some y →
    (stepUnit x = stepUnit y → stepUnit y ≠ 4 → begun s t = []) ∧ (∀ k, (begun s t).head? = some k → k = ((s.tile t).mx.after x).row)) ∧
  (∀ (m : Mx) (w : Wind), m.wind = some w → (w.left ≤ 1 → m.next.busy = false ∧ m.next.wind = none) ∧
    (2 ≤ w.left → m.next.row = m.row + 1 ∧ m.next.busy = m.busy ∧ m.next.wind = some { w with left := w.left - 1 })) ∧
  (∀ (s : State) (t : Nat), (s.tile t).stepRow = some .fin → (s.tile t).mx.wind ≠ none →
    ∃ u : State, exec (.msEnd t) s = .next u ∧ (u.tile t).events = (s.tile t).events ∧ (u.tile t).mx = (s.tile t).mx.next ∧ u.mem = s.mem) ∧
  (∀ (s : State) (t : Nat), (s.tile t).stepRow = some .fin → (s.tile t).mx.wind = none → (s.tile t).events.length < 256 → (s.tile t).pending = [] →
    ∃ (u : State) (p : Nat), exec (.msEnd t) s = .next u ∧ (u.tile t).mx.busy = false ∧ u.mem = s.mem ∧ (u.tile t).acc = (s.tile t).acc ∧
      p % 2 ^ 32 = (s.tile t).mx.row % 2 ^ 32 ∧
      (u.tile t).events = (s.tile t).events ++ [⟨4, s.slot t, 3, (s.tile t).mx.utag, BitVec.ofNat 64 p⟩])

/-- MS.STEP, from a word row without a poisoned word, puts each interval's result in its accumulator row and no other. MS.LOAD and MS.STEEP, from a range without poison, write the
four entries of the bank of every MLDW word of their row with the 16 bytes of its chunk, or its steeped chunk, and the row's tag. MS.DRAIN to
scratchpad writes each row's bytes one after another, changes no other byte, and zeroes the rows it drains when CLR is set; into a
peer it names the peer and stands. A receiving tile takes the next row of the sender it names: the row is added to its
accumulator row of the same kind, and the sender's row is cleared when CLR is set. Each completed row, of a block that no trap is ending, moves the block to
the next. No accumulator row read is poisoned, no word of the row, and not both copies of the tables that MS.STEEP draws from (R421, R431); a trap in a row of
MS.LOAD or MS.STEEP leaves the other elements of that fabric row captured (log entries 52, 158). -/
def Obligations.MatrixRows : Prop :=
  (∀ (s : State) (t a : Nat) (wrow : BitVec 5) (acc : BitVec 1) (abase cnt : BitVec 10) (ud : BitVec 15) (m0 k0 : BitVec 16)
      (u : Unfold) (R : Nat → AccRow), (s.tile t).stepRow = some (.step wrow acc abase cnt ud m0 k0) → (s.tile t).mx.wind = none →
    (s.tile t).effAcc abase.toNat cnt.toNat = .ok a → wordTrap (s.tile t) wrow.toNat = none → readUnfold s t (ud.toNat * 64) = .ok u →
    (∀ i, i ≤ cnt.toNat → stepInterval s t wrow.toNat (acc == 1) u (m0.toNat + (s.tile t).loopAdd (fun x => x.dm) + i)
      (k0.toNat + (s.tile t).loopAdd (fun x => x.dk)) (a + i) = .ok (R i)) →
    ∃ v : State, exec (.msStep t) s = .next v ∧ (v.tile t).mx.row = (s.tile t).mx.row + 1 ∧ (v.tile t).mx.busy = true ∧ v.mem = s.mem ∧
      (∀ i, i ≤ cnt.toNat → (v.tile t).accRow (a + i) = R i) ∧
      (∀ k, k < a ∨ a + cnt.toNat < k → (v.tile t).accRow k = (s.tile t).accRow k)) ∧
  (∀ (s : State) (t a : Nat) (wrow : BitVec 5) (waddr : BitVec 13) (wfmt : BitVec 6) (wsc : BitVec 1),
    (s.tile t).stepRow = some (.load wrow waddr wfmt wsc) → (s.tile t).mx.wind = none → wordTrap (s.tile t) wrow.toNat = none →
    effSpad ((waddr.toNat + (s.tile t).loopAdd (fun x => x.dw)) * 256) 4096 .read = .ok a →
    (∀ i, i < 4096 → s.poisonAt (spadBase t + a + i) = false) →
    (∀ r c, r < 16 → c < 16 → ewOpc (mapGet 0 (s.tile t).fabric.act.words (wordKey wrow.toNat r c)) = opMLDW →
      ewFMT (mapGet 0 (s.tile t).fabric.act.words (wordKey wrow.toNat r c)) = wfmt.toNat) →
    ∃ v : State, exec (.msLoad t) s = .next v ∧ (v.tile t).mx.row = (s.tile t).mx.row + 1 ∧ v.mem = s.mem ∧ (v.tile t).acc = (s.tile t).acc ∧
      ∀ r c, r < 16 → c < 16 → ewOpc (mapGet 0 (s.tile t).fabric.act.words (wordKey wrow.toNat r c)) = opMLDW → ∀ q, q < 4 →
        mapGet TVal.empty (v.tile t).fabric.rot ((r * 16 + c) * 16 +
          (4 * (ewCV (mapGet 0 (s.tile t).fabric.act.words (wordKey wrow.toNat r c)) % 4) + q)) =
          ⟨BitVec.ofNat 32 (leNat (s.bytesAt (.tile t 5) (spadBase t + a + 256 * r + 16 * c + 4 * q) 4)),
            BitVec.ofNat 8 (wfmt.toNat + 128 * bit01 (wsc == 1))⟩) ∧
  (∀ (s : State) (t a len pw : Nat) (wrow : BitVec 5) (paddr : BitVec 13) (pf : BitVec 1) (tfmt : BitVec 6) (rnd : BitVec 2)
      (sat : BitVec 1) (widx : BitVec 32), (s.tile t).stepRow = some (.steep wrow paddr pf tfmt rnd sat widx) →
    (s.tile t).mx.wind = none → wordTrap (s.tile t) wrow.toNat = none → (s.tile t).tables ≠ 3 →
    pw = (if pf = 1 then fmtPW32 else fmtPW16) → len = 16 * kPrime tfmt.toNat * fmtBytes pw →
    effSpad ((paddr.toNat + (s.tile t).loopAdd (fun x => x.dw)) * 256) (16 * len) .read = .ok a →
    (∀ i, i < 16 * len → s.poisonAt (spadBase t + a + i) = false) →
    (∀ r c, r < 16 → c < 16 → ewOpc (mapGet 0 (s.tile t).fabric.act.words (wordKey wrow.toNat r c)) = opMLDW →
      ewFMT (mapGet 0 (s.tile t).fabric.act.words (wordKey wrow.toNat r c)) = tfmt.toNat) →
    ∃ v : State, exec (.msSteep t) s = .next v ∧ (v.tile t).mx.row = (s.tile t).mx.row + 1 ∧ v.mem = s.mem ∧ (v.tile t).acc = (s.tile t).acc ∧
      ∀ r c, r < 16 → c < 16 → ewOpc (mapGet 0 (s.tile t).fabric.act.words (wordKey wrow.toNat r c)) = opMLDW → ∀ q, q < 4 →
        mapGet TVal.empty (v.tile t).fabric.rot ((r * 16 + c) * 16 +
          (4 * (ewCV (mapGet 0 (s.tile t).fabric.act.words (wordKey wrow.toNat r c)) % 4) + q)) =
          ⟨BitVec.ofNat 32 (fieldAt ((steepChunks (s.ext t (s.slot t)).steep pw tfmt.toNat rnd.toNat (sat == 1)
            (widx.toNat + (s.tile t).loopAdd (fun x => x.di)) r (s.bytesAt (.tile t 5) (spadBase t + a + len * r) len)).getD c [])
            (4 * q) 4), BitVec.ofNat 8 tfmt.toNat⟩) ∧
  (∀ (s : State) (t a d len : Nat) (dst clr : BitVec 1) (abase cnt : BitVec 10) (daddr : BitVec 15) (dfmt : BitVec 6)
      (rnd : BitVec 2) (sat : BitVec 1) (pidx : BitVec 2) (limit : BitVec 24) (B : Nat → List Byte),
    (s.tile t).stepRow = some (.drain dst clr abase cnt daddr dfmt rnd sat pidx limit) → (s.tile t).mx.wind = none →
    (s.tile t).effAcc abase.toNat cnt.toNat = .ok a →
    (dst = 0 → (daddr.toNat + (s.tile t).loopAdd (fun x => x.dd)) * 64 = (d : Int) → d + (cnt.toNat + 1) * len ≤ 2 ^ 21 →
      (∀ i, i ≤ cnt.toNat → accTrap s t (a + i) = none) →
      (∀ i, i ≤ cnt.toNat → drainBytes ((s.tile t).accRow (a + i)) dfmt.toNat rnd.toNat (sat == 1) = .ok (B i) ∧
        (B i).length = len) →
      ∃ v : State, exec (.msDrain t) s = .next v ∧ (v.tile t).mx.row = (s.tile t).mx.row + 1 ∧
        (∀ i j, i ≤ cnt.toNat → j < len → v.homeByte (spadBase t + d + i * len + j) = (B i).getD j 0) ∧
        (∀ x, x < spadBase t + d ∨ spadBase t + d + (cnt.toNat + 1) * len ≤ x → v.homeByte x = s.homeByte x) ∧
        (∀ i, i ≤ cnt.toNat → (v.tile t).accRow (a + i) =
          if clr = 1 then ⟨((s.tile t).accRow (a + i)).int32, List.replicate 16 0⟩ else (s.tile t).accRow (a + i)) ∧
        (∀ k, k < a ∨ a + cnt.toNat < k → (v.tile t).accRow k = (s.tile t).accRow k)) ∧
    (∀ p, dst = 1 → (s.tile t).rowPeer t pidx.toNat = .ok p → mapGet false s.pkg.quarantined p.1 = false →
      ∃ v : State, exec (.msDrain t) s = .next v ∧ (v.tile t).mx.prog.peer = some p ∧ (v.tile t).mx.row = (s.tile t).mx.row ∧
        (v.tile t).acc = (s.tile t).acc ∧ v.mem = s.mem)) ∧
  (∀ (s : State) (t u a b : Nat) (x y : AccRow) (q : Nat) (slot pidx : BitVec 2) (abase cnt abase2 cnt2 : BitVec 10) (limit limit2 : BitVec 24)
      (kind pidx2 : BitVec 2) (clr : BitVec 1) (daddr : BitVec 15) (dfmt : BitVec 6) (rnd : BitVec 2) (sat : BitVec 1), t ≠ u →
    (s.tile t).stepRow = some (.wait kind abase cnt slot pidx limit) → (s.tile t).mx.prog.peer = some (u, q) →
    (s.tile u).stepRow = some (.drain 1 clr abase2 cnt2 daddr dfmt rnd sat pidx2 limit2) → (s.tile u).mx.prog.peer = some (t, slot.toNat) →
    (s.tile t).effAcc abase.toNat cnt.toNat = .ok a → (s.tile u).effAcc abase2.toNat cnt2.toNat = .ok b →
    x = (s.tile u).accRow (b + (s.tile u).mx.prog.rowsDone) → y = (s.tile t).accRow (a + (s.tile t).mx.prog.rowsDone) →
    x.int32 = y.int32 → accTrap s u (b + (s.tile u).mx.prog.rowsDone) = none → accTrap s t (a + (s.tile t).mx.prog.rowsDone) = none →
    (s.tile t).mx.wind = none → (s.tile u).mx.wind = none →
    ∃ v : State, exec (.drainedRowAccept t) s = .next v ∧ v.mem = s.mem ∧
      (v.tile t).accRow (a + (s.tile t).mx.prog.rowsDone) = ⟨x.int32, List.zipWith (accAdd x.int32) y.vals x.vals⟩ ∧
      (v.tile u).accRow (b + (s.tile u).mx.prog.rowsDone) = (if clr = 1 then ⟨x.int32, List.replicate 16 0⟩ else x) ∧
      (if (s.tile t).mx.prog.rowsDone = cnt.toNat then (v.tile t).mx.row = (s.tile t).mx.row + 1
        else (v.tile t).mx.prog.rowsDone = (s.tile t).mx.prog.rowsDone + 1) ∧
      (if (s.tile u).mx.prog.rowsDone = cnt2.toNat then (v.tile u).mx.row = (s.tile u).mx.row + 1
        else (v.tile u).mx.prog.rowsDone = (s.tile u).mx.prog.rowsDone + 1))

/-- xc.begin with no section open opens one that keeps the registers, the address after the form and rd, and gives 0; with one open
it raises RESOURCE, as xc.commit does with none. xc.commit blocks while a command of the section is not complete; then it sends one commit
to every target and blocks until each has acknowledged; then, or with no target, it gives 0 and the section is closed. A failure
before the decision takes a resident task's control core, no handler running and no rw.pop of it under way, back to the address after
xc.begin with the saved registers and the code in rd, closes the section and counts a rollback; in a handler, or under such a pop, the
section keeps its code and the core goes on; a failing implicit section is a fault XFAIL of the task. A commit goes in class 0 (log entry 8). -/
def Obligations.Sections : Prop :=
  (∀ (s : State) (d : Reg), s.fc = 0 → (s.ext s.ft s.fslot).sect = none → ∃ (t : State) (x : Sect), exec (.xcBegin d) s = .next t ∧ Returns s t d 0 ∧
    (t.ext s.ft s.fslot).sect = some x ∧ x.savedX = s.cur.x ∧ x.savedPc = nextPc s ∧ x.beginRd = d.toNat ∧ x.count = 0 ∧
    x.bytes = 0 ∧ x.targets = [] ∧ x.decided = false ∧ x.serial = (s.ext s.ft s.fslot).sections ∧
    (t.ext s.ft s.fslot).sections = (s.ext s.ft s.fslot).sections + 1 ∧
    (t.ext s.ft s.fslot).implicit = (s.ext s.ft s.fslot).implicit) ∧
  (∀ (s : State) (d : Reg), s.fc = 0 → (s.ext s.ft s.fslot).sect ≠ none → exec (.xcBegin d) s = .next (resourceAt s)) ∧
  (∀ (s : State) (d : Reg), s.fc = 0 → (s.ext s.ft s.fslot).sect = none → exec (.xcCommit d) s = .next (resourceAt s)) ∧
  (∀ (s : State) (d : Reg) (x : Sect), s.fc = 0 → (s.ext s.ft s.fslot).sect = some x → (s.ext s.ft s.fslot).rollback = none →
    ((∃ c ∈ (s.ext s.ft s.fslot).cmds, c.inSect = some x.serial ∧ c.done = false) →
      ∃ t : State, exec (.xcCommit d) s = .next t ∧ Blocks s t ∧ t.ext s.ft s.fslot = s.ext s.ft s.fslot) ∧
    ((∀ c ∈ (s.ext s.ft s.fslot).cmds, c.inSect = some x.serial → c.done = true) →
      ((x.decided = false ∧ x.targets = []) ∨ (x.decided = true ∧ x.pendingAck = []) →
        ∃ t : State, exec (.xcCommit d) s = .next t ∧ t.cur = (s.cur.wx d 0).advance ∧ (t.ext s.ft s.fslot).sect = none ∧
          (∀ c ∈ (t.ext s.ft s.fslot).cmds, c.inSect ≠ some x.serial) ∧ t.mem = s.mem) ∧
      (x.decided = false → x.targets ≠ [] →
        ∃ t : State, exec (.xcCommit d) s = .next t ∧ t.cur.pc = s.cur.pc ∧ t.cur.blocked = true ∧ (∀ q, t.rx q = s.rx q) ∧ t.mem = s.mem ∧
          (t.ext s.ft s.fslot).sect = some { x with decided := true, pendingAck := x.targets } ∧
          ∀ p ∈ x.targets, ∃ f ∈ (t.tx (flowKey p 0)).unacked, f.frame.opcode = 0x06 ∧ f.frame.dst = p ∧
            f.cmds = [(s.ft, s.fslot, 2 ^ 31 + x.serial)]) ∧
      (x.decided = true → x.pendingAck ≠ [] → ∃ t : State, exec (.xcCommit d) s = .next t ∧ Blocks s t ∧
        t.ext s.ft s.fslot = s.ext s.ft s.fslot))) ∧
  (∀ (s : State) (t slot code : Nat) (x : Sect), 1 ≤ code → code ≤ 7 → (s.ext t slot).sect = some x → x.decided = false →
    (s.ext t slot).rollback = none → (s.tile t).resident = some slot →
    ((s.tile t).csr.tstat.getLsbD 0 = true ∨ (s.tile t).popping slot = true → ∃ u : State, exec (.sectionRollback t slot code) s = .next u ∧
      (u.ext t slot).sect = some x ∧ (u.ext t slot).rollback = some code ∧ (u.tile t).ctl.pc = (s.tile t).ctl.pc ∧
      (∀ q : Reg, (u.tile t).ctl.rx q = (s.tile t).ctl.rx q) ∧ (∀ c ∈ (u.ext t slot).cmds, c.inSect ≠ some x.serial) ∧ u.mem = s.mem) ∧
    ((s.tile t).csr.tstat.getLsbD 0 = false → (s.tile t).popping slot = false → (s.tile t).ctl.stat ≠ .faulted →
    ∃ u : State, exec (.sectionRollback t slot code) s = .next u ∧ (u.ext t slot).sect = none ∧ (u.tile t).ctl.pc = x.savedPc ∧
      (u.tile t).ctl.stat = .run ∧ (u.tile t).ctl.blocked = false ∧
      (∀ q : Reg, q ≠ 0 → (u.tile t).ctl.rx q =
        if q = BitVec.ofNat 5 x.beginRd then BitVec.ofNat 64 code else mapGet 0 x.savedX q.toNat) ∧
      mapGet 0 (u.die (t / 512)).rollbacks code = mapGet 0 (s.die (t / 512)).rollbacks code + 1 ∧
      (∀ c ∈ (u.ext t slot).cmds, c.inSect ≠ some x.serial) ∧ u.mem = s.mem)) ∧
  (∀ (s : State) (t slot code : Nat) (x : Sect), 1 ≤ code → code ≤ 7 → (s.ext t slot).sect = none → (s.ext t slot).implicit = some x →
    x.decided = false → ∃ (u : State) (r : TrapRec), exec (.sectionRollback t slot code) s = .next u ∧ (u.ext t slot).implicit = none ∧ r.cause = cXFAIL ∧
      r.w2 = BitVec.ofNat 64 (code + 2 ^ 8) ∧
      (u.die (t / 512)).faults = (s.die (t / 512)).faults ++ [(r, s.taskLaunch t slot, none)] ∧ u.mem = s.mem)

/-- With a descriptor that passes its checks, aligned to its element, of a length that its section still takes, no rollback waiting, the section
not being committed and none of its staged commands to the package unfinished in another class (log entry 13), and
local bytes that translate and are not poisoned, xc.put and xc.red return the task's next ticket, keep the bytes read, join the open section, or the
implicit one, as its next command, and queue frames of opcode 1 or 2 in the flow of the package and class. xc.sig does the same with the
eight bytes of rs2 and opcode 3. xc.get outside a section returns a ticket and queues one request of opcode 4. A length of 0 takes
a ticket and does nothing else. A descriptor field outside its values raises CFGREJECT with its lowest bit. -/
def Obligations.RemoteCommands : Prop :=
  (∀ (s : State) (d a b : Reg) (op rop len : Nat) (ev ex : Bool) (bs : List Byte) (i : Instr) (ps : List Part),
    (op = 1 ∧ i = .xcPut d a b ∧ rop = 0) ∨ (op = 2 ∧ i = .xcRed d a b ∧ rop < 7 ∧ fieldAt bs 0x10 8 % redBytes rop = 0 ∧
      fieldAt bs 0 8 % redBytes rop = 0 ∧ len % redBytes rop = 0) →
    0 < len → len ≤ 2 ^ 20 → s.rn b = len + 2 ^ 56 * rop + 2 ^ 63 * bit01 ev → readSpad s (s.rn a) 32 8 = .ok bs → xcFail s bs = none →
    (s.ext s.ft s.fslot).rollback = none → ex = (s.ext s.ft s.fslot).sect.isSome →
    (∀ x, (s.ext s.ft s.fslot).section' ex = some x → x.count < 64 ∧ x.bytes + len ≤ 2 ^ 20) →
    (∀ x, (s.ext s.ft s.fslot).section' ex = some x → x.decided = false ∧ ∀ y ∈ (s.ext s.ft s.fslot).cmds, y.inSect = some x.serial → y.op ≠ 0 →
      y.done = false → y.pkg = fieldAt bs 8 1 → y.cls = fieldAt bs 9 1) →
    (resolve s s.ft (s.taskCtx s.ft s.fslot) (fieldAt bs 0 8) len .read kXCOPY 0).res = .ok ps →
    (∀ p ∈ ps, s.poisonIn p.addr p.len = false) →
    ∃ (t : State) (y : Sect) (c : XcCmd) (f : TxFrame), exec i s = .next t ∧ t.cur = (s.cur.wx d (BitVec.ofNat 64 (s.ext s.ft s.fslot).xcNext)).advance ∧ t.mem = s.mem ∧
      (t.ext s.ft s.fslot).xcNext = ((s.ext s.ft s.fslot).xcNext + 1) % 2 ^ 31 ∧ (t.ext s.ft s.fslot).section' ex = some y ∧
      y.count = (((s.ext s.ft s.fslot).section' ex).map (fun x => x.count)).getD 0 + 1 ∧
      y.bytes = (((s.ext s.ft s.fslot).section' ex).map (fun x => x.bytes)).getD 0 + len ∧ fieldAt bs 8 1 ∈ y.targets ∧
      (t.ext s.ft s.fslot).cmds = (s.ext s.ft s.fslot).cmds ++ [c] ∧ c.op = op ∧ c.ticket = (s.ext s.ft s.fslot).xcNext ∧
      c.inSect = some y.serial ∧ c.done = false ∧ c.ev = ev ∧ c.len = len ∧
      c.data = (s.readParts (.engine ((fieldAt bs 8 1 + 4 * fieldAt bs 9 1) % 16)) ps).map (fun b => (b, false)) ∧
      f ∈ (t.tx (flowKey (fieldAt bs 8 1) (fieldAt bs 9 1))).unacked ∧ f.frame.opcode = op ∧ f.frame.sect = true ∧
      f.cmds = [(s.ft, s.fslot, (s.ext s.ft s.fslot).xcNext)]) ∧
  (∀ (s : State) (d a b : Reg) (ex : Bool) (bs : List Byte), readSpad s (s.rn a) 32 8 = .ok bs → xcFail s bs = none →
    fieldAt bs 0x10 8 % 8 = 0 → (s.ext s.ft s.fslot).rollback = none → ex = (s.ext s.ft s.fslot).sect.isSome →
    (∀ x, (s.ext s.ft s.fslot).section' ex = some x → x.count < 64 ∧ x.bytes + 8 ≤ 2 ^ 20) →
    (∀ x, (s.ext s.ft s.fslot).section' ex = some x → x.decided = false ∧ ∀ y ∈ (s.ext s.ft s.fslot).cmds, y.inSect = some x.serial → y.op ≠ 0 →
      y.done = false → y.pkg = fieldAt bs 8 1 → y.cls = fieldAt bs 9 1) →
    ∃ (t : State) (y : Sect) (c : XcCmd) (f : TxFrame), exec (.xcSig d a b) s = .next t ∧ Returns s t d (BitVec.ofNat 64 (s.ext s.ft s.fslot).xcNext) ∧
      (t.ext s.ft s.fslot).section' ex = some y ∧ y.count = (((s.ext s.ft s.fslot).section' ex).map (fun x => x.count)).getD 0 + 1 ∧
      (t.ext s.ft s.fslot).cmds = (s.ext s.ft s.fslot).cmds ++ [c] ∧ c.op = 3 ∧ c.data = (leBytes 8 (s.rn b)).map (fun b => (b, false)) ∧
      c.inSect = some y.serial ∧ f ∈ (t.tx (flowKey (fieldAt bs 8 1) (fieldAt bs 9 1))).unacked ∧ f.frame.opcode = 3 ∧
      f.frame.payload = leBytes 8 (s.rn b) ∧ f.cmds = [(s.ft, s.fslot, (s.ext s.ft s.fslot).xcNext)]) ∧
  (∀ (s : State) (d a b : Reg) (len : Nat) (ev : Bool) (bs : List Byte), 0 < len → len ≤ 2 ^ 20 → s.rn b = len + 2 ^ 63 * bit01 ev →
    readSpad s (s.rn a) 32 8 = .ok bs → xcFail s bs = none → (s.ext s.ft s.fslot).rollback = none → (s.ext s.ft s.fslot).sect = none →
    ∃ (t : State) (c : XcCmd) (f : TxFrame), exec (.xcGet d a b) s = .next t ∧ Returns s t d (BitVec.ofNat 64 (s.ext s.ft s.fslot).xcNext) ∧
      (t.ext s.ft s.fslot).cmds = (s.ext s.ft s.fslot).cmds ++ [c] ∧ c.op = 0 ∧ c.ticket = (s.ext s.ft s.fslot).xcNext ∧ c.inSect = none ∧
      c.len = len ∧ c.done = false ∧ f ∈ (t.tx (flowKey (fieldAt bs 8 1) (fieldAt bs 9 1))).unacked ∧ f.frame.opcode = 4 ∧
      f.frame.payload = leBytes 4 len ∧ f.cmds = [(s.ft, s.fslot, (s.ext s.ft s.fslot).xcNext)]) ∧
  (∀ (s : State) (d a b : Reg) (ev : Bool) (bs : List Byte), s.rn b = 2 ^ 63 * bit01 ev → readSpad s (s.rn a) 32 8 = .ok bs →
    (xcFail s bs = none → ∀ i : Instr, i = .xcPut d a b ∨ i = .xcGet d a b ∨
      (i = .xcRed d a b ∧ fieldAt bs 0x10 8 % redBytes 0 = 0 ∧ fieldAt bs 0 8 % redBytes 0 = 0) →
      ∃ t : State, exec i s = .next t ∧ Returns s t d (BitVec.ofNat 64 (s.ext s.ft s.fslot).xcNext) ∧
      (t.ext s.ft s.fslot).cmds = (s.ext s.ft s.fslot).cmds ∧ t.net.tx = s.net.tx) ∧
    (∀ bit, xcFail s bs = some bit → ∀ i : Instr, i = .xcPut d a b ∨ i = .xcRed d a b ∨ i = .xcGet d a b ∨ i = .xcSig d a b →
      exec i s = .next (raiseCore s (tCfgDesc bit (s.rn a)))))

/-- xc.frame of at least one row, with a descriptor that passes its checks, its vector and rows within the scratchpad, the vector not
poisoned, the windows it feeds passing the checks of R313 and no earlier push of the tile into them, or earlier row of the core to them in
another class, unfinished, returns the task's next ticket, counts the rows with no destination as errors, and of the others those whose
token and expert came before in the vector as duplicates. Of one row for another package with no frame being filled it opens a row frame for that die that holds
the row. A row frame that closes leaves the frames being filled, and goes as the eight parts of its bytes in its flow. -/
def Obligations.TokenRows : Prop :=
  (∀ (s : State) (d a b : Reg) (n : Nat) (ev : Bool) (bs : List Byte) (x : FrameDesc) (rws : List Nat) (acc un : List (RowDest × Nat × Nat)) (ds : List RowDest), 0 < n → n < 2 ^ 16 →
    s.rn b = n + 2 ^ 63 * bit01 ev → readSpad s (s.rn a) 32 8 = .ok bs → frameDescFail bs = none → x = parseFrameDesc bs →
    x.vec + 8 * n ≤ 2 ^ 21 → x.base + x.rowBytes * n ≤ 2 ^ 21 → s.poisonIn (spadBase s.ft + x.vec) (8 * n) = false →
    rws = (List.range n).map (fun i =>
      leNat (s.bytesAt (.engine ((s.pkg.num + 4 * x.cls) % 16)) (spadBase s.ft + x.vec + 8 * i) 8)) →
    acc = acceptedRows s (s.taskLaunch s.ft s.fslot) rws → un = dedupRows acc [] → ds = un.map (fun r => r.1) →
    rowsCheck s (s.taskLaunch s.ft s.fslot) x.rowBytes ds (s.rn a) = none → rowsBehind s (s.taskLaunch s.ft s.fslot) x.rowBytes x.cls ds = false →
    ∃ t : State, exec (.xcFrame d a b) s = .next t ∧ t.cur = (s.cur.wx d (BitVec.ofNat 64 (s.ext s.ft s.fslot).xcNext)).advance ∧
      (t.ext s.ft s.fslot).xcNext = ((s.ext s.ft s.fslot).xcNext + 1) % 2 ^ 31 ∧
      t.net.rowDups = s.net.rowDups + (acc.length - un.length) ∧
      (un = [] → t.net.rowErrors = s.net.rowErrors + (n - acc.length) ∧ t.net.fills = s.net.fills) ∧
      (∀ dst, n = 1 → x.cells = false → s.net.fills = [] → rowDest s (s.taskLaunch s.ft s.fslot) (rws.getD 0 0) = some dst →
        dst.pkg ≠ s.pkg.num → rowWindow s (s.taskLaunch s.ft s.fslot) dst = none → ∃ (f : RowFill) (w : DWord), t.net.fills = [f] ∧ f.dstPkg = dst.pkg ∧ f.dstDie = dst.tile / 512 ∧
          f.cls = x.cls ∧ f.rowBytes = x.rowBytes ∧ f.cmds = [(s.ft, s.fslot, (s.ext s.ft s.fslot).xcNext)] ∧
          f.rows = [(w, s.dataAt (.engine ((s.pkg.num + 4 * x.cls) % 16)) (spadBase s.ft + x.base) x.rowBytes)])) ∧
  (∀ (s : State) (i : Nat) (f : RowFill), s.net.fills[i]? = some f → ∃ u : State, exec (.rowFrameFillTimeout i) s = .next u ∧
    u.net.fills = s.net.fills.eraseIdx i ∧ (u.tx (flowKey f.dstPkg f.cls)).next = ((s.tx (flowKey f.dstPkg f.cls)).next + 8) % 2 ^ 24 ∧
    u.mem = s.mem ∧ u.tiles = s.tiles ∧ ∀ p, p < 8 → ∃ x ∈ (u.tx (flowKey f.dstPkg f.cls)).unacked, x.frame.opcode = 9 ∧
      hdrField x.frame 2 1 = p ∧ x.frame.payload = (((rowFrameBytes s f).drop (8192 * p)).take 8192).map (fun b => b.1) ∧ x.cmds = f.cmds)

namespace Sys2Proof.Spec

/-- R375, one token of a value slice: the state stays under a NaN maximum and under a score of −∞; a NaN score makes every number of it a NaN of its cause;
a score above the maximum scales what stands by 2 to the exact difference and weighs 1; any other weighs 2 to the exact difference. -/
def FoldToken (fmt : Nat) (p : Partial) (score : Nat) (v : List Byte) : Prop :=
  let m := decodeLane fmtFP32 p.m
  let x := decodeLane fmtFP32 score
  let n := genNan fmtFP32 (nanCause fmtFP32 score)
  let vs := (rowLanes fmt v).map (fun y => rn32 (decodeLane fmt y))
  (m.isNan = true → foldToken fmt p score v = p) ∧
  (m.isNan = false → x.isNan = true → foldToken fmt p score v = ⟨score, n, p.a.map (fun _ => n)⟩) ∧
  (x = .inf true → foldToken fmt p score v = p) ∧
  (m.isNan = false → x.isNan = false → x ≠ .inf true → m.lt x = true → ∀ f : Nat, f = (if m = .inf true then 0 else exp2Cr (XVal.add 0 m x.neg)) →
    foldToken fmt p score v = ⟨score, add32 (mul32 p.s f) 0x3F800000, ((p.a.map (fun y => mul32 y f)).zip vs).map (fun y => fma32 0x3F800000 y.2 y.1)⟩) ∧
  (m.isNan = false → x.isNan = false → x ≠ .inf true → m.lt x = false → ∀ w : Nat, w = (if x.lt m then exp2Cr (XVal.add 0 x m.neg) else 0x3F800000) →
    foldToken fmt p score v = ⟨p.m, add32 p.s w, (p.a.zip vs).map (fun y => fma32 w y.2 y.1)⟩)

/-- R375, a score: the exact sum of the exact products, rounded once, times the scale, rounded once; a NaN sum is the score, and then a NaN scale
gives cause 2. -/
def ScoreRule (fmt : Nat) (scale : Word) (q k : List Byte) : Prop :=
  let dot := rn32 (productSum (((rowLanes fmt q).zip (rowLanes fmt k)).map (fun p => (decodeLane fmt p.1, decodeLane fmt p.2))))
  (isNan fmtFP32 dot = true → scoreOf fmt scale q k = BitVec.ofNat 32 dot) ∧
  (isNan fmtFP32 dot = false → isNan fmtFP32 scale.toNat = true → scoreOf fmt scale q k = BitVec.ofNat 32 (genNan fmtFP32 2)) ∧
  (isNan fmtFP32 dot = false → isNan fmtFP32 scale.toNat = false →
    scoreOf fmt scale q k = BitVec.ofNat 32 (rn32 ((decodeLane fmtFP32 dot).mul (decodeLane fmtFP32 scale.toNat))))

/-- The two slices of a query's job (R370, R375, R377): the first scores every token of its bank and finds those with an uncorrectable key beat; the second
folds the tokens excluded by neither row in slot order over the empty partial, and counts both kinds. -/
def QuerySlices (s : State) (k : Nat) (c : NbCmd) : Prop :=
  (∀ j : Nat, (keySlice s k c j).1.map (fun x => x.1) = c.tokens j ∧
    (∀ x ∈ (keySlice s k c j).1, x.2 = scoreOf c.fmt c.scale c.vec (s.bytesAt (.stack k) (c.kFrame + c.slotAt x.1) c.rowLen)) ∧
    ∀ t : Nat, t ∈ (keySlice s k c j).2 ↔ t ∈ c.tokens j ∧ s.poisonIn (c.kFrame + c.slotAt t) c.beatLen = true) ∧
  (∀ (sc good : List (Nat × Word)) (bad : List Nat), good = sc.filter (fun x => !bad.contains x.1 && !s.poisonIn (c.vFrame + c.slotAt x.1) c.beatLen) →
    (valueSlice s k c sc bad).scored = good.length ∧ (valueSlice s k c sc bad).err = min (sc.length - good.length) 65535 ∧
    ∀ p : Partial, p = good.foldl (fun p x => foldToken c.fmt p x.2.toNat (s.bytesAt (.stack k) (c.vFrame + c.slotAt x.1) c.rowLen))
        ⟨0xFF800000, 0, List.replicate c.dim 0⟩ →
      (valueSlice s k c sc bad).m = BitVec.ofNat 32 p.m ∧ (valueSlice s k c sc bad).s = BitVec.ofNat 32 p.s ∧
      (valueSlice s k c sc bad).acc = p.a.map (BitVec.ofNat 32))

end Sys2Proof.Spec

/-- nb.query and nb.append that pass every check, with their stack's controller enabled and its queue below 512, enter the queue with the
bytes they copy and return the task's next ticket; with the queue full or the controller disabled they block. nb.fence completes
when its stack holds no append of its source and blocks otherwise. The next slice at a bank with no refresh due and no ordinary
access waiting, whose oldest pending job is a query's, is the key slice of that job, then its value slice. A refresh clears what is due; an ordinary
access counts; while a slice is ready only up to ORD of those that waited are served. An append's first slice changes no byte, and its second
puts the two rows at their slots and no other byte, leaves the queue and gives its record (log entry 137); at an infuser out of service it
writes nothing and its record says so. What the slices compute is stated with them; their reads are the controller's (log entries 65, 138). A query whose jobs have ended writes its result block and no other byte, and leaves the queue. An infuser that fails
is down, and its query job ends as the empty partial with every token in error; a controller reset puts every infuser back in service,
ends each unfinished job of a query with ERR 0xFFFF, and leaves no append. -/
def Obligations.InfuserCommands : Prop :=
  (∀ (s s1 : State) (d a b : Reg) (q ev fut : Bool) (h off k : Nat) (x : NbDesc) (dk dv : TDesc), h < 2 ^ 32 →
    s.rn b = (if q then h + 2 ^ 62 * bit01 fut else 0) + 2 ^ 63 * bit01 ev → s.rn a % 64 = 0 → spadOperand (s.rn a) = some off →
    x = parseNb (s.bytesAt (nbReader s q off) (spadBase s.ft + off) 64) → nbFail q x = none → nbReach s q x = (s1, none) →
    descOf s1 (s.taskCtx s.ft s.fslot) x.kTensor = some dk → descOf s1 (s.taskCtx s.ft s.fslot) x.vTensor = some dv →
    nbMatch s1 x dk dv (s.rn a) = none → s1.poisonIn (spadBase s.ft + off) 64 = false →
    s1.poisonIn (spadBase s.ft + x.p1) x.rowBytes = false → (q = false → s1.poisonIn (spadBase s.ft + x.p2) x.rowBytes = false) →
    k = stackOf (frameOf s1 (s.taskCtx s.ft s.fslot) dk) →
    (bitOf (nbqCtl s k) 8 = true → (s.stack k).queue.length < 512 →
      ∃ (t : State) (p : NbProg), exec (if q then .nbQuery d a b else .nbAppend d a b) s = .next t ∧ Returns s t d (BitVec.ofNat 64 (s.ext s.ft s.fslot).xcNext) ∧
        (t.ext s.ft s.fslot).xcNext = ((s.ext s.ft s.fslot).xcNext + 1) % 2 ^ 31 ∧
        (t.stack k).queue = (s.stack k).queue ++ [p] ∧ p.cmd.isQuery = q ∧ p.cmd.ticket = (s.ext s.ft s.fslot).xcNext ∧ p.cmd.ev = ev ∧
        p.cmd.future = (if q && fut then some h else none) ∧ p.cmd.b0 = x.b0 ∧ p.cmd.t0 = x.t0 ∧ p.cmd.count = x.count ∧
        p.cmd.dim = x.dim ∧ p.cmd.banks = dk.p ∧ p.keyed = [] ∧
        p.cmd.vec = s1.bytesAt (.stack k) (spadBase s.ft + x.p1) x.rowBytes) ∧
    (bitOf (nbqCtl s k) 8 = false ∨ 512 ≤ (s.stack k).queue.length →
      ∃ t : State, exec (if q then .nbQuery d a b else .nbAppend d a b) s = .next t ∧ t.cur.pc = s.cur.pc ∧ t.cur.blocked = true ∧
        (∀ r, t.rx r = s.rx r) ∧ t.mem = s.mem ∧ t.hbm = s.hbm)) ∧
  (∀ (s : State) (a : Reg), s.rn a < 48 → (appendsOut s (s.rn a) = false → exec (.nbFence a) s = .next (finish s)) ∧
    (appendsOut s (s.rn a) = true → ∃ t : State, exec (.nbFence a) s = .next t ∧ Blocks s t)) ∧
  (∀ (s : State) (k b i : Nat) (p : NbProg), (s.stack k).queue.findIdx? (fun p => p.pendingAt b) = some i →
    (s.stack k).queue[i]? = some p → ((s.stack k).bank b).refreshDue = false → ((s.stack k).bank b).ordinary = 0 →
    mapGet false (s.stack k).down b = false → p.cmd.isQuery = true →
    ((∀ x ∈ p.keyed, x.1 ≠ b - p.cmd.b0) → ∃ u : State, exec (.bankSlice k b) s = .next u ∧ u.mem = s.mem ∧ u.tiles = s.tiles ∧
      (u.stack k).queue = (s.stack k).queue.set i { p with keyed := p.keyed ++ [(b - p.cmd.b0, keySlice s k p.cmd (b - p.cmd.b0))] }) ∧
    (∀ sc bad, p.keyed.find? (fun x => x.1 == b - p.cmd.b0) = some (b - p.cmd.b0, sc, bad) →
      ∃ u : State, exec (.bankSlice k b) s = .next u ∧ u.mem = s.mem ∧ u.tiles = s.tiles ∧
        (u.stack k).queue = (s.stack k).queue.set i { p with done := p.done ++ [(b - p.cmd.b0, valueSlice s k p.cmd sc bad)] })) ∧
  (∀ (fmt : Nat) (p : Partial) (score : Nat) (v : List Byte), FoldToken fmt p score v) ∧
  (∀ (fmt : Nat) (scale : Word) (q k : List Byte), ScoreRule fmt scale q k) ∧
  (∀ (s : State) (k : Nat) (c : NbCmd), QuerySlices s k c) ∧
  (∀ (s : State) (k b i : Nat) (p : NbProg) (kRow vRow : Nat), (s.stack k).queue.findIdx? (fun p => p.pendingAt b) = some i →
    (s.stack k).queue[i]? = some p → ((s.stack k).bank b).refreshDue = false → ((s.stack k).bank b).ordinary = 0 → p.cmd.isQuery = false →
    kRow = p.cmd.kFrame + p.cmd.slotAt p.cmd.t0 → vRow = p.cmd.vFrame + p.cmd.slotAt p.cmd.t0 →
    (mapGet false (s.stack k).down b = false → (∀ x ∈ p.keyed, x.1 ≠ b - p.cmd.b0) → ∃ u : State, exec (.bankSlice k b) s = .next u ∧
      u.mem = s.mem ∧ u.writes = s.writes ∧ u.tiles = s.tiles ∧ (u.stack k).queue = (s.stack k).queue.set i { p with keyed := [(b - p.cmd.b0, [], [])] }) ∧
    (mapGet false (s.stack k).down b = false → (∃ x ∈ p.keyed, x.1 = b - p.cmd.b0) → ∃ u : State, exec (.bankSlice k b) s = .next u ∧
      (∀ y, y < kRow ∨ kRow + p.cmd.vec.length ≤ y → y < vRow ∨ vRow + p.cmd.vec2.length ≤ y → u.homeByte y = s.homeByte y) ∧
      (∀ j, j < p.cmd.vec2.length → u.homeByte (vRow + j) = p.cmd.vec2.getD j 0) ∧
      (kRow + p.cmd.vec.length ≤ vRow ∨ vRow + p.cmd.vec2.length ≤ kRow →
        ∀ j, j < p.cmd.vec.length → u.homeByte (kRow + j) = p.cmd.vec.getD j 0) ∧
      (u.stack k).queue = (s.stack k).queue.eraseIdx i ∧
      (p.failed = false → p.cmd.ev = true → nbAlive s p.cmd true = true → (s.tile p.cmd.tile).events.length < 256 → (s.tile p.cmd.tile).pending = [] →
        ∃ w : Nat, (w = 0 ∨ w = 2 ^ 16) ∧ (u.tile p.cmd.tile).events = (s.tile p.cmd.tile).events ++
          [⟨2, p.cmd.slot, p.cmd.core, BitVec.ofNat 32 p.cmd.ticket, BitVec.ofNat 64 w⟩] ∧
          ((∀ d, (s.die d).errInj = 0) → s.poisonIn kRow p.cmd.beatLen = false → s.poisonIn vRow p.cmd.beatLen = false → w = 0))) ∧
    (mapGet false (s.stack k).down b = true → ∃ u : State, exec (.bankSlice k b) s = .next u ∧ u.mem = s.mem ∧ u.writes = s.writes ∧
      (u.stack k).queue = (s.stack k).queue.eraseIdx i ∧
      (p.poisoned = false → p.cmd.ev = true → nbAlive s p.cmd true = true → (s.tile p.cmd.tile).events.length < 256 → (s.tile p.cmd.tile).pending = [] →
        (u.tile p.cmd.tile).events = (s.tile p.cmd.tile).events ++
          [⟨2, p.cmd.slot, p.cmd.core, BitVec.ofNat 32 p.cmd.ticket, BitVec.ofNat 64 (2 ^ 17)⟩]))) ∧
  (∀ (s : State) (k b : Nat), ∃ u : State, exec (.bankRefresh k b) s = .next u ∧ ((u.stack k).bank b).refreshDue = false ∧
    (u.stack k).queue = (s.stack k).queue ∧ u.mem = s.mem) ∧
  (∀ (s : State) (k b : Nat), ((s.stack k).bank b).refreshDue = false →
    ((∀ p ∈ (s.stack k).queue, p.pendingAt b = true → ((s.stack k).bank b).ordinary ≠ 0 ∧
      ((s.stack k).bank b).served < bitsOf (nbqCtl s k) 7 0) → ∃ u : State, exec (.ordinaryBankAccess k b) s = .next u ∧
    ((u.stack k).bank b).served = ((s.stack k).bank b).served + 1 ∧ (u.stack k).queue = (s.stack k).queue ∧ u.mem = s.mem) ∧
    ((∃ p ∈ (s.stack k).queue, p.pendingAt b = true) → ((s.stack k).bank b).ordinary = 0 ∨
      bitsOf (nbqCtl s k) 7 0 ≤ ((s.stack k).bank b).served → exec (.ordinaryBankAccess k b) s = .next s)) ∧
  (∀ (s : State) (k i : Nat) (p : NbProg) (z : Part) (bs : List Byte), (s.stack k).queue[i]? = some p → p.cmd.isQuery = true →
    p.whole = true → p.held = none → bs = ((List.range p.cmd.banks).map (fun j => resBytes p.cmd.dim (p.res j))).flatten →
    (resolve s p.cmd.tile p.cmd.ctx p.cmd.result.toNat bs.length .write kINFUSER 0).res = .ok [z] → z.len = bs.length →
    ∃ u : State, exec (.queryResult k i) s = .next u ∧ (u.stack k).queue = (s.stack k).queue.eraseIdx i ∧
      (∀ j, j < bs.length → u.homeByte (z.addr + j) = bs.getD j 0) ∧
      (∀ y, y < z.addr ∨ z.addr + bs.length ≤ y → u.homeByte y = s.homeByte y) ∧
      (p.cmd.future = none → p.cmd.ev = true → nbAlive s p.cmd true = true → (s.tile p.cmd.tile).events.length < 256 →
        (s.tile p.cmd.tile).pending = [] → (u.tile p.cmd.tile).events = (s.tile p.cmd.tile).events ++
          [⟨2, p.cmd.slot, p.cmd.core, BitVec.ofNat 32 p.cmd.ticket, BitVec.ofNat 64 p.payload⟩])) ∧
  (∀ (s : State) (k b i : Nat) (p : NbProg), (s.stack k).queue.findIdx? (fun p => p.pendingAt b) = some i →
    (s.stack k).queue[i]? = some p → p.cmd.isQuery = true → ∃ u : State, exec (.infuserParityFault k b) s = .next u ∧
      mapGet false (u.stack k).down b = true ∧ u.mem = s.mem ∧ (u.stack k).queue = (s.stack k).queue.set i
        { p with done := p.done ++ [(b - p.cmd.b0, NbRes.empty p.cmd.dim (p.cmd.tokens (b - p.cmd.b0)).length)] }) ∧
  (∀ (s : State) (k : Nat), ∃ u : State, exec (.stackControllerReset k) s = .next u ∧ (u.stack k).down = [] ∧ u.mem = s.mem ∧
    (∀ p ∈ (u.stack k).queue, p.cmd.isQuery = true ∧ p.whole = true) ∧
    (u.stack k).queue.map (fun p => p.cmd) = ((s.stack k).queue.filter (fun p => p.cmd.isQuery)).map (fun p => p.cmd) ∧
    (∀ p ∈ (s.stack k).queue, p.cmd.isQuery = true → ∃ p' ∈ (u.stack k).queue, p'.cmd = p.cmd ∧
      p'.done = p.cmd.jobs.map (fun j => (j, match p.done.find? (fun r => r.1 == j) with
        | some r => r.2 | none => NbRes.empty p.cmd.dim 65535))))

namespace Sys2Proof.Spec

/-- The conditions of R286 hold of a firing but for the end of the control core's own part: nothing of the task is under way. -/
structure OthersQuiet (s : State) (t slot : Nat) (f : Firing) : Prop where
  cores : ∀ j, j < 3 → j ≠ 0 → bitOf f.named j = true → ((s.tile t).core j).stat = .ended
  traps : (s.tile t).traps = []
  fabric : quiescent (s.tile t) = true
  copies : ∀ c ∈ (s.tile t).copies, c.slot ≠ slot
  ports : ∀ p ∈ (s.tile t).fabric.ports, portOut p.1 = true → p.2.queue = []
  cmds : ∀ c ∈ (s.ext t slot).cmds, c.inSect.isSome = true
  sect : (s.ext t slot).sect = none
  rollback : (s.ext t slot).rollback = none

/-- R330: which firings have a shortfall. -/
def ShortfallRule (s : State) (t : Nat) (k : Task) : Prop :=
  (∀ (l : Launch) (g : Graph), s.launch k.launch = some l → s.graph k.launch = some g → k.spawned = false →
    (shortfall s t k = none ↔
      (∀ a ∈ g.inArcs k.actor, ∀ w, s.win t (windowKey k.launch a) = some w → w.mon = true → declaredCount s k a false ≤ w.cCount) ∧
      (∀ a ∈ g.outArcs k.actor, ∀ u w, arcEnd l a = some u → s.win u (windowKey k.launch a) = some w → w.mon = true →
        declaredCount s k a true ≤ (s.prod t u (windowKey k.launch a)).pCount))) ∧
  (∀ tr, shortfall s t k = some tr → tr.cause = cRATE)

end Sys2Proof.Spec

/-- sys.end ends its core's part with no register changed: on the loader or storer of a firing that started the control core, and on the
control core with no section open, where no window is monitored, which also clears TSTAT.BUSY. An open section whose commit is not decided is
discarded, with a discard on each flow that carries a command of it and no rollback; a decided one stays. With the rest of the firing ended, a shortfall
of a monitored window traps the control core with RATE at its sys.end (the core that a record names is the last to end: log entry 75). sys.yield does nothing on another core or with
no other task READY, and with one READY at the task's level or above saves the task's context, the fabric as it stands at its row
boundary, writes its context frame where it has one, and frees the tile. sys.spawn of an entry
that starts the control core takes a future, returns its handle and queues the task. bk.sel gives the row of the smallest
padded count that is at least the count, staging the configuration that its target names, once no expansion is in progress, or all ones when none is; a bucket with no row raises RESOURCE. ck.take
waits for a block of the sequencer, then gives 0 with no part due and otherwise the number of the part it records. ck.digest gives the digest of its selector. -/
def Obligations.SystemForms : Prop :=
  (∀ (s : State), s.fc ≠ 0 → (∀ k f, s.task s.ft s.fslot = some k → k.firing = some f → f.ctl = true) →
    ∃ t : State, exec .sysEnd s = .next t ∧ t.cur = { s.cur with stat := .ended, instret := s.cur.instret + 1, blocked := false, waited := 0 } ∧
      (t.tile s.ft).csr = (s.tile s.ft).csr ∧ t.mem = s.mem) ∧
  (∀ (s : State), s.fc = 0 → (s.ext s.ft s.fslot).sect = none → (∀ t w x, s.win t w = some x → x.mon = false) →
    ∃ t : State, exec .sysEnd s = .next t ∧ t.cur = { s.cur with stat := .ended, instret := s.cur.instret + 1, blocked := false, waited := 0 } ∧
      (t.tile s.ft).csr.tstat.getLsbD 0 = false ∧ (t.tile s.ft).csr.tepc = (s.tile s.ft).csr.tepc ∧ t.mem = s.mem) ∧
  (∀ (s : State) (x : Sect), s.fc = 0 → (s.ext s.ft s.fslot).sect = some x →
    (x.decided = false → (∀ t w y, s.win t w = some y → y.mon = false) →
      ∃ t : State, exec .sysEnd s = .next t ∧ t.cur.stat = .ended ∧ t.cur.x = s.cur.x ∧ t.cur.pc = s.cur.pc ∧ (t.ext s.ft s.fslot).sect = none ∧
        (t.ext s.ft s.fslot).rollback = none ∧ (∀ c ∈ (t.ext s.ft s.fslot).cmds, c.inSect ≠ some x.serial) ∧ t.mem = s.mem ∧
        ∀ c ∈ (s.ext s.ft s.fslot).cmds, c.inSect = some x.serial → c.op ≠ 0 → ∃ f ∈ (t.tx (flowKey c.pkg c.cls)).unacked,
          f.frame.opcode = 0x07 ∧ f.frame.dst = c.pkg ∧ hdrField f.frame 12 4 = sectKey s s.ft s.fslot x % 2 ^ 32) ∧
    (x.decided = true → ∃ t : State, exec .sysEnd s = .next t ∧ t.cur.stat = .ended ∧ t.ext s.ft s.fslot = s.ext s.ft s.fslot ∧ t.mem = s.mem)) ∧
  (∀ (s : State) (k : Task) (f : Firing), s.fc = 0 → s.task s.ft s.fslot = some k → k.firing = some f → OthersQuiet s s.ft s.fslot f →
    ∀ tr, shortfall s s.ft k = some tr →
      exec .sysEnd s = .next (raiseTrap (endSection s s.ft s.fslot) s.ft s.fslot 0 (s.cur.pc.toNat % 2 ^ 62) tr)) ∧
  (∀ (s : State) (t : Nat) (k : Task), ShortfallRule s t k) ∧
  (∀ (s : State), (s.fc ≠ 0 ∨ ∀ x ∈ readySlots (markReady s s.ft) s.ft, x.1 = s.fslot) → exec .sysYield s = .next (finish s)) ∧
  (∀ (s : State) (k : Task), s.fc = 0 → (s.tile s.ft).resident = some s.fslot → s.task s.ft s.fslot = some k → k.stat = .resident →
    (∃ x ∈ readySlots (markReady s s.ft) s.ft, x.1 ≠ s.fslot ∧ x.2.prio ≤ k.prio) → savable (s.tile s.ft) s.fslot = true →
    ∃ (t : State) (k' : Task) (c : Context), exec .sysYield s = .next t ∧ (t.tile s.ft).resident = none ∧ t.task s.ft s.fslot = some k' ∧ k'.stat = .ready ∧
      k'.saved = some c ∧ c.cores = [s.cur.advance, (s.tile s.ft).ldr, (s.tile s.ft).sto] ∧ c.csr = (s.tile s.ft).csr ∧
      c.fabric = { (standFabric (s.tile s.ft)).fabric.cycleEnd with expanding := false } ∧ FrameOnly s t (s.ft / 512) k.frame) ∧
  (∀ (s : State) (d a b : Reg) (i pr : Nat) (y : SeqEntry) (h : Handle), s.fc = 0 → i < 2 ^ 16 → pr < 4 →
    s.rn a = i + 2 ^ 16 * pr → (seqEntries s.myContainer)[i]? = some y → y.starts 0 = true → (s.ext s.ft s.fslot).spawns < 256 →
    (newFuture s s.ft (s.taskLaunch s.ft s.fslot)).map (fun x => x.1) = some h →
    ∃ (t : State) (r : SpawnReq), exec (.sysSpawn d a b) s = .next t ∧ Returns s t d (BitVec.ofNat 64 h.word) ∧ (t.fut h.key).stat = .pending ∧
      (t.lext (s.taskLaunch s.ft s.fslot)).spawnQ = (s.lext (s.taskLaunch s.ft s.fslot)).spawnQ ++ [r] ∧ r.entry = i ∧ r.prio = pr ∧
      r.arg = s.rx b ∧ r.future = h.word ∧ r.born = (s.ext s.ft s.fslot).part ∧ r.digest = none ∧
      r.tile = (eligible s).getD (placeDraw (s.seed (s.taskLaunch s.ft s.fslot)) r.lidx 0 (eligible s).length) s.ft ∧
      r.lidx = 2 ^ 31 + s.taskLidx s.ft s.fslot % 2 ^ 23 * 2 ^ 8 + (s.ext s.ft s.fslot).spawns ∧
      (t.ext s.ft s.fslot).spawns = (s.ext s.ft s.fslot).spawns + 1) ∧
  (∀ (s : State) (d a b : Reg), s.fc = 0 → s.rn a < 8 →
    (∀ r ∈ (s.lext (s.taskLaunch s.ft s.fslot)).buckets, r.1 = s.rn a → s.rn b ≤ r.2.2.1 →
      (∀ r' ∈ (s.lext (s.taskLaunch s.ft s.fslot)).buckets, r'.1 = s.rn a → s.rn b ≤ r'.2.2.1 → r' = r ∨ r.2.2.1 < r'.2.2.1) →
      ((seqEntries s.myContainer)[r.2.2.2]?).bind
        (fun e => if e.region = 0xFF then none else regionConf s.myContainer e.region) = none →
      exec (.bkSel d a b) s = .next (finishRd s d (BitVec.ofNat 64 (r.2.1 * 2 ^ 48 + r.2.2.2 * 2 ^ 32 + r.2.2.1)))) ∧
    (∀ r ∈ (s.lext (s.taskLaunch s.ft s.fslot)).buckets, r.1 = s.rn a → s.rn b ≤ r.2.2.1 →
      (∀ r' ∈ (s.lext (s.taskLaunch s.ft s.fslot)).buckets, r'.1 = s.rn a → s.rn b ≤ r'.2.2.1 → r' = r ∨ r.2.2.1 < r'.2.2.1) →
      ∀ n, ((seqEntries s.myContainer)[r.2.2.2]?).bind
        (fun e => if e.region = 0xFF then none else regionConf s.myContainer e.region) = some n →
      ((s.tile s.ft).fabric.expanding = true → ∃ t : State, exec (.bkSel d a b) s = .next t ∧ Blocks s t) ∧
      ((s.tile s.ft).fabric.expanding = false → ∃ t : State, exec (.bkSel d a b) s = .next t ∧
        Returns s t d (BitVec.ofNat 64 (r.2.1 * 2 ^ 48 + r.2.2.2 * 2 ^ 32 + r.2.2.1)) ∧
        (t.tile s.ft).fabric.staged = true ∧ ((t.tile s.ft).fabric.plane (s.tile s.ft).fabric.idle).conf = n ∧
        ((s.die (s.ft / 512)).errInj = 0 → (t.tile s.ft).fabric = (s.tile s.ft).fabric.stage (contImgs s.myContainer n) n))) ∧
    ((∃ r ∈ (s.lext (s.taskLaunch s.ft s.fslot)).buckets, r.1 = s.rn a) →
      (∀ r ∈ (s.lext (s.taskLaunch s.ft s.fslot)).buckets, r.1 = s.rn a → r.2.2.1 < s.rn b) →
      exec (.bkSel d a b) s = .next (finishRd s d (BitVec.allOnes 64))) ∧
    ((∀ r ∈ (s.lext (s.taskLaunch s.ft s.fslot)).buckets, r.1 ≠ s.rn a) → exec (.bkSel d a b) s = .next (resourceAt s))) ∧
  (∀ (s : State) (d : Reg) (k : Task), s.fc = 0 → s.task s.ft s.fslot = some k →
    ((s.ext s.ft s.fslot).sect ≠ none → exec (.ckTake d) s = .next (resourceAt s)) ∧
    ((s.ext s.ft s.fslot).sect = none →
      ((s.tile s.ft).mx.busy = true → ∃ t : State, exec (.ckTake d) s = .next t ∧ Blocks s t) ∧
      ((s.tile s.ft).mx.busy = false → (s.lext k.launch).due ≤ (s.ext s.ft s.fslot).part → exec (.ckTake d) s = .next (finishRd s d 0)) ∧
      ((s.ext s.ft s.fslot).part < (s.lext k.launch).due → (s.ext s.ft s.fslot).part ≤ (s.lext k.launch).complete →
        (s.launch k.launch).map (fun l => l.stat) = some .running → (s.tile s.ft).mx.busy = false → (s.ext s.ft s.fslot).implicit = none →
        exec (.ckTake d) s = .next (checkpointStep
          (recordPart (finishRd s d (BitVec.ofNat 64 ((s.ext s.ft s.fslot).part + 1))) s.ft s.fslot) k.launch)))) ∧
  (∀ (s : State) (d a : Reg), s.fc = 0 →
    (s.rn a = 0 → exec (.ckDigest d a) s = .next (finishRd s d (s.ext s.ft s.fslot).digest)) ∧
    (s.rn a = 1 → exec (.ckDigest d a) s = .next (finishRd s d
      (((s.newestPart (s.taskLaunch s.ft s.fslot) (s.taskLidx s.ft s.fslot)).map (fun p => p.digest)).getD 0))) ∧
    (s.rn a = 2 → exec (.ckDigest d a) s = .next (finishRd s d (s.lext (s.taskLaunch s.ft s.fslot)).digest)) ∧
    (s.rn a = 3 → exec (.ckDigest d a) s = .next (finishRd s d (BitVec.ofNat 64 (s.lext (s.taskLaunch s.ft s.fslot)).complete))) ∧
    (4 ≤ s.rn a → exec (.ckDigest d a) s = .next (illegalAt s)))

/-- An enabled firing of the resident task begins in its entry: the cores the entry names run at their offsets, the others are off. It ends,
with every condition met and no shortfall, with the firing and phase counted and TSTAT.BUSY clear; a shortfall of a firing that starts the
control core raises its RATE. A free tile makes its first READY task resident, with its saved context or fresh; a READY task of 65,536 cycles goes
up a level; a task held past THRESH, by an access that was not swapped out before, with a frame of its own or the lowest free one of the pool, is saved
and written in its frame, and the tile freed; a restored task tries the accesses that a READY has covered again, and one whose frame has an
uncorrectable word faults; with no round open, a spawned task is bound to a free slot of an eligible tile with its argument and future, and is drawn again
where its tile is eligible no more (log entry 164; the lent frame is the model's, log entry 19; so is the wait for a round, log entry 140). A spawned task whose port
pages do not fit traps at its first instruction (log entry 141). A part records the next number, with the cores and the digest as they stand, and writes
the areas of the checkpoint store alone (log entry 147). -/
def Obligations.TaskSteps : Prop :=
  (∀ (s : State) (t slot i : Nat) (k : Task) (e : SeqEntry), s.task t slot = some k → (s.tile t).resident = some slot →
    k.stat = .resident → enabled s t slot = true → nextEntry s k = some i → (seqEntries (s.container k.container))[i]? = some e →
    (s.tile t).traps = [] → (k.spawned = true → e.starts 0 = true → spawnPageFail s t slot k e.region = true →
      ∃ v : State, exec (.firingStart t slot) s = .next (raiseTrap v t slot 0 (w1Core (v.tile t).ctl.pc) (tCfgDesc 17 0)) ∧
        (v.tile t).ctl.pc = BitVec.ofNat 64 (0x2000000000000000 + e.offs.getD 0 0) ∧ (v.tile t).fabric = (s.tile t).fabric ∧ v.mem = s.mem) ∧
    ((k.spawned = true → spawnPageFail s t slot k e.region = false) → ∃ (u : State) (k' : Task) (f : Firing), exec (.firingStart t slot) s = .next u ∧ u.task t slot = some k' ∧ k'.firing = some f ∧ f.phase = k.phase ∧
      f.entry = i ∧ k'.firings = k.firings ∧ u.mem = s.mem ∧ ∀ c, c < 3 → bitOf f.named c = e.starts c ∧
        (e.starts c = true → ((u.tile t).core c).stat = .run ∧
          ((u.tile t).core c).pc = BitVec.ofNat 64 (0x2000000000000000 + e.offs.getD c 0) ∧
          ((u.tile t).core c).x = ((s.tile t).core c).x) ∧
        (e.starts c = false → ((u.tile t).core c).stat = .off))) ∧
  (∀ (s : State) (t slot : Nat) (k : Task) (f : Firing), s.task t slot = some k → k.firing = some f → (s.tile t).resident = some slot →
    k.stat = .resident → firingQuiet s t slot f = true →
    (shortfall s t k = none → (s.ext t slot).implicit = none → k.spawned = false → lastFiring s k = false →
      ∃ (u : State) (k' : Task), exec (.firingEnd t slot) s = .next u ∧ u.task t slot = some k' ∧ k'.firing = none ∧ k'.firings = k.firings + 1 ∧
        k'.phase = (match s.graph k.launch with | some g => (k.phase + 1) % (g.actor k.actor).phases | none => 0) ∧
        (u.tile t).csr.tstat.getLsbD 0 = false ∧ u.mem = s.mem) ∧
    (∀ tr, shortfall s t k = some tr → f.ctl = true → exec (.firingEnd t slot) s =
      .next (raiseTrap s t slot 0 ((s.tile t).ctl.pc.toNat % 2 ^ 62) tr))) ∧
  (∀ (s : State) (t sl : Nat) (k : Task), (s.tile t).resident = none → choose (markReady s t) t = some sl →
    (markReady s t).task t sl = some k → (s.lext k.launch).serial = none →
    (∀ n w, k.saved.isSome = true → k.frame = some n → framePoison s (ctxFrameAddr s (t / 512) n) = some w → ∃ (u : State) (r : TrapRec),
      exec (.taskSwitch t) s = .next u ∧ (u.tile t).resident = some sl ∧ (∀ c, c < 3 → ((u.tile t).core c).stat ≠ .run) ∧ r.cause = cPOISON ∧
      r.w2 = BitVec.ofNat 64 w ∧ (u.die (t / 512)).faults = (s.die (t / 512)).faults ++ [(r, k.launch, none)]) ∧
    ((∀ n, k.saved.isSome = true → k.frame = some n → framePoison s (ctxFrameAddr s (t / 512) n) = none) →
    ∃ (u : State) (k' : Task), exec (.taskSwitch t) s = .next u ∧ (u.tile t).resident = some sl ∧
      u.task t sl = some k' ∧ k'.stat = .resident ∧ k'.fresh = false ∧ k'.lidx = k.lidx ∧ (u.tile t).acc = [] ∧ u.mem = s.mem ∧
      (∀ c a b z, k.saved = some c → c.cores = [a, b, z] → (s.die (t / 512)).errInj = 0 →
        (∀ n, k.frame = some n → frameCells s (ctxFrameAddr s (t / 512) n) =
          frameImage (ctxFrameAddr s (t / 512) n) (frameParts k (s.ext t sl) c)) → (u.tile t).ctl = a.retryReady ∧ (u.tile t).ldr = b.retryReady ∧
        (u.tile t).sto = z.retryReady ∧ (u.tile t).csr = c.csr ∧ (u.tile t).traps = c.traps ∧
        (u.tile t).fabric = { c.fabric with ports := c.fabric.ports.map (fun p => (p.1, p.2.retryReady)) }) ∧
      (k.saved = none → k.spawned = false → ∀ (c : Nat) (r : Reg), c < 3 → ((u.tile t).core c).rx r = 0))) ∧
  (∀ (s : State) (t slot : Nat) (k : Task), s.task t slot = some k → k.stat = .ready → 2 ^ 16 ≤ k.aged → 0 < k.prio →
    ∃ u : State, exec (.taskPromotion t slot) s = .next u ∧ u.mem = s.mem ∧ (∀ x, x ≠ t → u.tile x = s.tile x) ∧
      u.task t slot = some { k with prio := k.prio - 1, aged := 0, readyAt := s.stamp }) ∧
  (∀ (s : State) (t sl n : Nat) (k : Task), (s.tile t).resident = some sl → s.task t sl = some k → k.stat = .resident →
    (s.tile t).taskHeld = true → (s.die (t / 512)).swapCtl.toNat % 2 ^ 24 ≠ 0 →
    (s.die (t / 512)).swapCtl.toNat % 2 ^ 24 < (s.ext t sl).heldFor → (s.tile t).wasOut sl = false → savable (s.tile t) sl = true →
    (k.frame = some n ∨ (k.frame = none ∧ s.pkg.round = none ∧ n < framePool s (t / 512) ∧ n ∉ usedFrames s (t / 512) ∧
      ∀ m, m < n → m ∈ usedFrames s (t / 512))) →
    ∃ (u : State) (k' : Task) (c : Context), exec (.swapOut t) s = .next u ∧ (u.tile t).resident = none ∧ u.task t sl = some k' ∧ k'.stat = .saved ∧
      k'.saved = some c ∧ k'.frame = some n ∧ c.cores = [outCore (s.tile t).ctl, outCore (s.tile t).ldr, outCore (s.tile t).sto] ∧
      c.fabric = { (standFabric ((s.tile t).holdsOut sl)).fabric.cycleEnd with expanding := false } ∧ (u.ext t sl).heldFor = 0 ∧
      FrameOnly s u (t / 512) (some n)) ∧
  (∀ (s : State) (i q slot : Nat) (r : SpawnReq) (l : Launch), (spawnReqs s)[i]? = some (q, r) → s.launch q = some l → l.stat = .running →
    s.pkg.round = none → (eligibleTile s r.tile = false → ∃ u : State, exec (.spawnedTaskBind i) s = .next u ∧ u.mem = s.mem ∧ u.tiles = s.tiles ∧
      (u.lext q).spawnQ = (s.lext q).spawnQ.map (fun x => if x = r then { r with tile := spawnTile s q r.lidx r.tile } else x)) ∧
    (eligibleTile s r.tile = true → (s.die (r.tile / 512)).runs = true → (freeSlots s r.tile true).head? = some slot →
    framesUsed s (r.tile / 512) + framesNeeded s r.tile ≤ framePool s (r.tile / 512) → (s.lext q).complete ≤ r.born → r.digest = none →
    ∃ (u : State) (k : Task), exec (.spawnedTaskBind i) s = .next u ∧ u.task r.tile slot = some k ∧ k.spawned = true ∧ k.lidx = r.lidx ∧ k.launch = q ∧
      k.firstEntry = r.entry ∧ k.prio = r.prio ∧ k.stat = .waiting ∧ (u.ext r.tile slot).future = r.future ∧
      (u.ext r.tile slot).arg = r.arg ∧ (u.lext q).spawnQ = (s.lext q).spawnQ.erase r ∧ u.mem = s.mem)) ∧
  (∀ (s : State) (t slot : Nat) (k : Task), s.task t slot = some k →
    (k.firing = none → (s.ext t slot).implicit = none → partDue s t slot k = true →
      exec (.checkpointPart t slot) s = .next (replayEarly (launchSteps (recordPart s t slot)))) ∧
    (partDue s t slot k = false → exec (.checkpointPart t slot) s = .next (replayEarly (launchSteps s))) ∧
    ((recordPart s t slot).ext t slot).part = (s.ext t slot).part + 1 ∧ ((recordPart s t slot).ext t slot).spawns = 0 ∧
    (ckptBlock s t ((s.ext t slot).part + 1) = none → (recordPart s t slot).mem = s.mem) ∧
    (∀ b y, ckptBlock s t ((s.ext t slot).part + 1) = some b → y < b + 0x20000 * slot ∨ b + 0x20000 * slot + 0x20000 ≤ y →
      (∀ w ∈ (makePart s t slot ((s.ext t slot).part + 1) k).wins, y < b + 0x200000 + w.2.1.base ∨
        b + 0x200000 + w.2.1.base + w.2.1.cap * w.2.1.tok ≤ y) → mapGet 0 (recordPart s t slot).mem y = mapGet 0 s.mem y) ∧ (∀ c, ((recordPart s t slot).tile t).core c = (s.tile t).core c) ∧
    ∃ p, (mapGet [] ((recordPart s t slot).lext k.launch).parts k.lidx).head? = some p ∧ p.number = (s.ext t slot).part + 1 ∧
      p.digest = (s.ext t slot).digest ∧ p.firing = k.firing ∧ p.phase = k.phase ∧
      ((s.tile t).resident = some slot → p.cores = [(s.tile t).ctl, (s.tile t).ldr, (s.tile t).sto] ∧ p.csr = (s.tile t).csr))

/-- A source memory actor that can fire, with a row left, a free slot and a row it can reach, puts the bytes of its row in the next slot of its
window, which then holds one token more, and counts the row; a row it cannot reach for NOTPRESENT holds it. A sink with a token puts it in the next row
of its view, of one run, and consumes it. A sink that receives the eclipse stops, and a task with no change of rate set to
follow ends. When every package of a launch is quiescent, the launch takes the requested rate set and the request is done. -/
def Obligations.MemoryActors : Prop :=
  (∀ (s : State) (q x : Nat) (c : MemCtx) (d : TDesc) (p : List (Nat × Nat × XOut)) (ds : List (Byte × Bool)),
    memCtx s q x 1 = some c → descOf s c.l.ctx c.b.tensor = some d → (s.actorSt q x).rows < viewRows c.b d.rank →
    1 ≤ freeCount c.w (s.prod c.u c.u (windowKey q c.a)) →
    planRuns s c.l.ctx c.b.tensor .read (runsOf d.z (rowOffsets c.b d (s.actorSt q x).rows)) = (p, none) →
    ds = (p.map (fun r => rowData s (.tile c.u 4) ⟨partsOf r.2.2, [], none, r.2.1⟩)).flatten →
    ∃ (u : State) (w : Window), exec (.hbmsrcFiring q x) s = .next u ∧ u.win c.u (windowKey q c.a) = some w ∧ w.occ = c.w.occ + 1 ∧ w.wr = (c.w.wr + 1) % c.w.cap ∧
      w.rd = c.w.rd ∧ (u.actorSt q x).rows = (s.actorSt q x).rows + 1 ∧
      ∀ j, j < ds.length → u.homeByte (spadBase c.u + c.w.slotOff (s.prod c.u c.u (windowKey q c.a)).wr + j) = (ds.getD j (0, false)).1) ∧
  (∀ (s : State) (q x : Nat) (c : MemCtx) (d : TDesc) (p : List (Nat × Nat × XOut)) (tr : Trap),
    memCtx s q x 1 = some c → descOf s c.l.ctx c.b.tensor = some d → (s.actorSt q x).rows < viewRows c.b d.rank →
    1 ≤ freeCount c.w (s.prod c.u c.u (windowKey q c.a)) →
    planRuns s c.l.ctx c.b.tensor .read (runsOf d.z (rowOffsets c.b d (s.actorSt q x).rows)) = (p, some tr) → tr.cause = cNOTPRESENT →
    ∃ u : State, exec (.hbmsrcFiring q x) s = .next u ∧ (u.actorSt q x).held.isSome = true ∧ (u.actorSt q x).rows = (s.actorSt q x).rows ∧
      u.win c.u (windowKey q c.a) = some c.w ∧ u.mem = s.mem) ∧
  (∀ (s : State) (q x off : Nat) (c : MemCtx) (d : TDesc) (o : XOut) (z : Part) (ds : List (Byte × Bool)),
    memCtx s q x 2 = some c → descOf s c.l.ctx c.b.tensor = some d → (s.actorSt q x).rows < viewRows c.b d.rank → 0 < c.w.occ →
    ds = rowData s (.tile c.u 4) ⟨[⟨spadBase c.u + c.w.slotOff c.w.rd, c.w.tok⟩], [], none, c.w.tok⟩ →
    planRuns s c.l.ctx c.b.tensor .write (runsOf d.z (rowOffsets c.b d (s.actorSt q x).rows)) = ([(off, c.w.tok, o)], none) →
    partsOf o = [z] → z.len = c.w.tok →
    ∃ (u : State) (w : Window), exec (.hbmsinkFiring q x) s = .next u ∧ u.win c.u (windowKey q c.a) = some w ∧ w.occ = c.w.occ - 1 ∧ w.rd = (c.w.rd + 1) % c.w.cap ∧
      (u.actorSt q x).rows = (s.actorSt q x).rows + 1 ∧
      (∀ j, j < c.w.tok → u.homeByte (z.addr + j) = s.byteAt (.tile c.u 4) (spadBase c.u + c.w.slotOff c.w.rd + j))) ∧
  (∀ (s : State) (q x : Nat) (l : Launch) (g : Graph), s.launch q = some l → s.graph q = some g →
    (canEclipse s q x l g = some none → ∃ u : State, exec (.eclipseReceipt q x) s = .next u ∧ (u.actorSt q x).stopped = true ∧ u.mem = s.mem) ∧
    (∀ t slot, canEclipse s q x l g = some (some (t, slot)) → l.modeReq = none → (s.ext t slot).implicit = none →
      ∃ (u : State) (k : Task), exec (.eclipseReceipt q x) s = .next u ∧ (u.actorSt q x).stopped = true ∧ u.task t slot = some k ∧ k.stat = .ended ∧
        u.mem = s.mem)) ∧
  (∀ (s : State) (q : Nat) (l : Launch) (g : Graph) (m : ModeReq), s.launch q = some l → s.graph q = some g → l.stat = .running →
    s.pkg.num ∈ (s.lext q).quiet → allQuiet s q = true → partsSettled s q = true → l.modeReq = some m →
    ∃ (u : State) (l' : Launch), exec (.rateSetSwitch q) s = .next u ∧ u.launch q = some l' ∧ l'.mode = m.newMode ∧ l'.stat = .running ∧
      (u.lext q).reqsDone = (s.lext q).reqsDone + 1 ∧ u.isComplete m.seq = true) ∧
  (∀ (s : State) (q : Nat) (l : Launch) (g : Graph), s.launch q = some l → s.graph q = some g → l.stat = .running →
    s.pkg.num ∉ (s.lext q).quiet → locallyQuiet s q l g = true →
    ∃ u : State, exec (.rateSetSwitch q) s = .next u ∧ (u.lext q).quiet = (s.lext q).quiet ++ [s.pkg.num] ∧ u.mem = s.mem)

namespace Sys2Proof.Spec

/-- The tables of tiles and tasks have their canonical form: no entry stands for another. -/
def TasksWf (s : State) : Prop := mapWf Tile.reset s.tiles = true ∧ ∀ t, mapWf none (s.tile t).tasks = true

/-- What binding a placed launch does (R310, R327, R398, R404, R412): its record with where its parts lie; on each tile a task in the next free slot
for each actor there, at its beginning; a window for each arc at its place, with the initial tokens counted; its jump table; no other launch changes. -/
def LaunchBound (s : State) (h : Holdings) (q : Nat) (a : Accepted) (w : State) : Prop :=
  w.launch q = some { a.l with place := a.p.inst.map (fun x => (x.1, x.2.1)), arcTile := a.p.arcs, proxyTile := a.p.proxies } ∧
  (∀ q', q' ≠ q → w.launch q' = s.launch q') ∧ (w.lext q).buckets = bucketRecs (s.container a.l.container) ∧
  (∀ t ∈ a.p.tiles, ∀ (i lidx x slot : Nat), (a.p.tasksOn t)[i]? = some (lidx, x) → (h.freeSlots t)[i]? = some slot →
    w.ext t slot = TaskExt.zero ∧ ∃ k : Task, w.task t slot = some k ∧ k.launch = q ∧ k.lidx = lidx ∧ k.actor = x ∧ k.spawned = false ∧ k.container = a.l.container ∧
      k.ctx = a.l.ctx ∧ k.prio = a.l.prio ∧ k.stat = .waiting ∧ k.firing = none ∧ k.phase = 0 ∧ k.firings = 0 ∧ k.fresh = true ∧ k.saved = none ∧
      k.firstEntry = (a.g.actor x).entry ∧ k.ssize = (a.g.actor x).spad ∧ k.tsize = (a.g.actor x).tags) ∧
  (∀ t ∈ a.p.tiles, ∀ (i b : Nat) (y : Arc) (bs : List Nat), (a.p.arcsOn t)[i]? = some b → (∀ j, (a.p.arcsOn t)[j]? = some b → j = i) →
    (∀ e ∈ a.p.proxies, e ≠ (b, t)) → a.g.arcs[b]? = some y → fitAll 64 (2 ^ 21) (h.spad t) (spadItems a.g a.p t) = some bs →
    ∃ x : Window, w.win t (windowKey q b) = some x ∧ some x.base = bs[i]? ∧ x.tok = y.tok ∧ x.cap = y.cap ∧ x.occ = y.delay ∧
      (0 < y.cap → x.wr = y.delay % y.cap) ∧ x.rd = 0 ∧ x.lap = 0 ∧ x.marks = [] ∧ x.mon = true ∧ x.proxy = false ∧ x.launch = some q)

/-- Accepting a launch binds it, running, with the requests validated with it, and makes READY those of its tasks whose first firing is enabled
(R315, R398, R406). -/
def LaunchAccepted (s : State) (h : Holdings) (q : Nat) (a : Accepted) (rs : List ModeReq) : Prop :=
  ∃ w : State, LaunchBound s h q { a with l := { a.l with stat := .running, modeReq := rs[0]? } } w ∧
    (acceptLaunch s h q a rs).launch q = w.launch q ∧ ((acceptLaunch s h q a rs).lext q).reqs = rs ∧
    (∀ t key, (acceptLaunch s h q a rs).win t key = w.win t key) ∧ (acceptLaunch s h q a rs).mem = w.mem ∧
    ∀ t slot, (acceptLaunch s h q a rs).task t slot = w.task t slot ∨ ∃ (k : Task) (r : Nat), w.task t slot = some k ∧ k.stat = .waiting ∧
      (acceptLaunch s h q a rs).task t slot = some { k with stat := .ready, readyAt := r, aged := 0 }

/-- A launch that is to return to a checkpoint stops (R415, R439): its tasks wait, with no section, command, copy or record left, off their tiles; one that
waits for tiles waits on, and one that has ended or is not bound is left alone. -/
def RestoreBegins (s : State) (q n : Nat) (rep : Option Nat) : Prop :=
  ((s.launch q).any (fun l => l.stat.live) = false → beginRestore s q n rep = s) ∧
  (∀ l : Launch, s.launch q = some l → l.stat.live = true → TasksWf s → ∃ u : State, beginRestore s q n rep = u ∧ (u.lext q).target = n ∧ (u.lext q).reportTo = rep ∧
    u.launch q = some { l with stat := if l.stat = .unplaced then .unplaced else .restoring } ∧ (∀ x, u.homeByte x = s.homeByte x) ∧
    (∀ t slot k, s.task t slot = some k → k.launch ≠ q → u.task t slot = some k) ∧
    (∀ t slot k, s.task t slot = some k → k.launch = q →
      u.task t slot = some (if k.stat = .ended then k else { k with stat := .waiting, saved := none }) ∧ (u.tile t).resident ≠ some slot ∧
      (u.ext t slot).sect = none ∧ (u.ext t slot).implicit = none ∧ (u.ext t slot).rollback = none ∧ (u.ext t slot).cmds = [] ∧
      (∀ c ∈ (u.tile t).copies, c.slot ≠ slot) ∧ ∀ r, r ∈ (u.tile t).events ∨ r ∈ (u.tile t).pending → r.slot ≠ slot))

/-- A task as it is once its launch has returned to checkpoint `n` (R419, R439): at its recorded part, or at its beginning where it has none. -/
def TaskReturned (s u : State) (q n t slot : Nat) (k k' : Task) : Prop :=
  k'.lidx = k.lidx ∧ k'.launch = q ∧ k'.prio = k.basePrio ∧
  (∀ p : CkPart, n ≠ 0 → s.partNo q k.lidx n = some p → k'.phase = p.phase ∧ k'.firings = p.firings ∧
    (p.ended = true → k'.stat = .ended ∧ k'.firing = none ∧ k'.saved = none) ∧
    (p.ended = false → k'.firing = p.firing ∧ k'.stat = (if p.firing.isSome then .ready else .waiting) ∧ (u.ext t slot).part = p.number ∧
      (u.ext t slot).digest = p.digest ∧ (p.unstarted = false → ∃ c : Context, k'.saved = some c ∧ c.cores = p.cores ∧ c.csr = p.csr))) ∧
  (n = 0 ∨ s.partNo q k.lidx n = none → k'.stat = .waiting ∧ k'.firing = none ∧ k'.phase = 0 ∧ k'.firings = 0 ∧ k'.fresh = true ∧ k'.saved = none ∧
    u.ext t slot = TaskExt.zero)

/-- The return itself (R334, R419, R439): not while an infuser command of the launch is queued; then the launch runs, with what the package's record of the
checkpoint says, or as at its start; its spawned tasks wait to be bound again, and every other is as `TaskReturned` says. -/
def RestoreEnds (s : State) (q : Nat) (l : Launch) : Prop :=
  (l.stat ≠ .restoring ∨ infuserBusy s q = true → finishRestore s q = s) ∧
  (∀ n : Nat, l.stat = .restoring → infuserBusy s q = false → (s.lext q).cleared = [] → (s.lext q).mismatch = none → n = (s.lext q).target → TasksWf s →
    (∀ f ∈ s.pkg.futures, f.2.launch = q → f.2.stat = .empty) → ∃ (u : State) (l' : Launch), finishRestore s q = u ∧ u.launch q = some l' ∧ l'.stat = .running ∧
      l'.place = l.place ∧ (u.lext q).written = [] ∧ (u.lext q).quiet = [] ∧
      (n = 0 → l'.mode = l.startMode ∧ (u.lext q).due = 0 ∧ (u.lext q).complete = 0 ∧ (u.lext q).parts = [] ∧ (u.lext q).digest = 0 ∧ (u.lext q).spawnQ = []) ∧
      (∀ p : CkPkg, n ≠ 0 → (s.lext q).pkgParts.find? (fun p => p.number == n) = some p → l'.mode = p.mode ∧ (u.lext q).due = n ∧ (u.lext q).complete = n ∧
        (u.lext q).reqsDone = p.reqsDone ∧ (u.lext q).finals = p.finals ∧ (u.lext q).spawnQ = p.spawnQ ∧ ∀ c ∈ p.committed, c ∈ u.net.committed) ∧
      (∀ t slot k, s.task t slot = some k → k.launch = q → (k.spawned = true → u.task t slot = none) ∧
        (k.spawned = false → ∃ k' : Task, u.task t slot = some k' ∧ TaskReturned s u q n t slot k k')) ∧
      (n = 0 → l.proxyTile = [] → ∀ e ∈ l.arcTile, ∀ w : Window, s.win e.2 (windowKey q e.1) = some w → w.proxy = false →
        ∃ w' : Window, u.win e.2 (windowKey q e.1) = some w' ∧ w'.base = w.base ∧ w'.occ = w.initial ∧ w'.rd = 0 ∧ w'.lap = 0 ∧ w'.marks = []))

/-- A recorded window comes back (R334): its pointers, counts and markers, and the bytes of its tokens in their slots. -/
def WindowReturned (s : State) (q : Nat) (l : Launch) (prods : List (Nat × ProdCopy)) (a u : Nat) (w x : Window) (bs : List (Byte × Bool)) : Prop :=
  l.ends.find? (fun p => p.1 == a) = some (a, u) → s.win u (windowKey q a) = some x → x.proxy = false → 0 < x.cap → w.occ ≤ x.cap → bs.length = w.occ * x.tok →
  ∃ y : Window, (restoreWindow s q l prods (a, w, bs)).win u (windowKey q a) = some y ∧ y.base = x.base ∧ y.wr = w.wr ∧ y.rd = w.rd ∧ y.occ = w.occ ∧
    y.lap = w.lap ∧ y.laps = w.laps ∧ y.marks = w.marks ∧ ∀ i j, i < w.occ → j < x.tok →
      (restoreWindow s q l prods (a, w, bs)).homeByte (spadBase u + x.slotOff (w.rd + i) + j) = (bs.getD (i * x.tok + j) (0, false)).1

/-- A checkpoint becomes complete (R277, R438, R441): its number and the launch digest are kept, the units written since the last are told no more, and the
names of committed sections of earlier parts go. Here with no reference digest for it and no hash tree. -/
def CheckpointComplete (s : State) (q n : Nat) (l : Launch) : Prop :=
  (l.stat ≠ .running ∨ n ≤ (s.lext q).complete → completeCheckpoint s q n = s) ∧
  (l.stat = .running → (s.lext q).complete < n → s.regs.plxHash.getLsbD 0 = false → refDigest s q n = none → ∃ u : State, completeCheckpoint s q n = u ∧
    u.launch q = some l ∧ (u.lext q).complete = n ∧ (u.lext q).written = [] ∧ (u.lext q).dirty = [] ∧ u.mem = s.mem ∧ u.tiles = s.tiles ∧
    (s.otherPkgs q = [] → (u.lext q).digest = BitVec.ofNat 64 (chainDigest (s.seed q) (recordedDigests s q n))) ∧
    (∀ c, c ∈ u.net.committed ↔ c ∈ s.net.committed ∧ (Config.keyLaunch c.2 = l.home → n ≤ Config.keyPart c.2)))

/-- A digest against its reference (R442): none, or an equal one, stands; a first difference takes the launch back for serial re-execution, a second
aborts it. -/
def DigestChecked (s : State) (q n back d : Nat) : Prop :=
  (refDigest s q n = none ∨ refDigest s q n = some d → (checkDigest s q n back d).2 = true ∧ (checkDigest s q n back d).1.tiles = s.tiles ∧
    ((checkDigest s q n back d).1.lext q).serial = if (s.lext q).serial = some n then none else (s.lext q).serial) ∧
  (∀ r, refDigest s q n = some r → d ≠ r → (checkDigest s q n back d).2 = false ∧
    ((s.lext q).serial = none → (checkDigest s q n back d).1 =
      recoverLaunch (s.modLext q (fun e => { e with serial := some n, mismatch := some (BitVec.ofNat 64 d, BitVec.ofNat 64 r) })) q back) ∧
    ((s.lext q).serial ≠ none → (checkDigest s q n back d).1 = abortLaunch s q cDIGEST 0 (BitVec.ofNat 64 d)))

/-- The pacing package announces a checkpoint once every package has written its parts, and not before (R438). -/
def AnnounceRule (s : State) (q n : Nat) : Prop :=
  ((∀ p ∈ launchPkgs s q, p ∈ (s.lext q).written) → announceComplete s q n = completeCheckpoint (s.sendControl q 6 n) q n) ∧
  ((∃ p ∈ launchPkgs s q, p ∉ (s.lext q).written) → announceComplete s q n = s)

/-- The pre-emption requests of a launch complete once every package has restored it, and not before (R439). -/
def PreemptRule (s : State) (q : Nat) : Prop :=
  ((∃ p ∈ launchPkgs s q, p ∉ (s.lext q).restored) → preemptStep s q = s) ∧
  ((∀ p ∈ launchPkgs s q, p ∈ (s.lext q).restored) → ((preemptStep s q).lext q).preempt = [] ∧ ((preemptStep s q).lext q).restored = [] ∧
    (preemptStep s q).tiles = s.tiles ∧ ∀ r ∈ (s.lext q).preempt, (preemptStep s q).isComplete r.1 = true)

end Sys2Proof.Spec

/-- With no round open and every manager of the active mask running, the round of the next exposed entry opens: the released launches
are dropped, the tiles that passed their test return, and every active die has a copy of what is held then and of the masks. A manager's verdict joins the round
when it is the one that the head die's copy gives, and otherwise resets the manager's die (log entry 163), and the round is repeated without it. When every die of the round
has agreed on an entry, a launch packet that holds is accepted: its launch is bound, and it is placed again if it has lost a tile since;
one that does not hold completes with status 0x20, with the mode requests validated beside it, before it in the journal or behind it; a mode request joins its
launch's requests at its switch count, unless it fails, or stands before its launch in one doorbell group and is left to it,
or, where a source lies on another package, is refused for what this package does not know (log entry 91); a pre-emption request returns its target to its
last complete checkpoint; an entry of another type completes as rejected. Each closes the round, and the journal goes on to the next entry. A rejected entry's completion bit is set, and
its record is written where its address says, with vector 0 raised, or waits for the fault ring where it says none. -/
def Obligations.JournalEntries : Prop :=
  (∀ (s : State), canOpen s = true → s.pkg.jnext < s.regs.jdb.toNat →
    ∃ t : State, exec .validationRound s = .next t ∧ t.pkg.round = some ⟨s.pkg.jnext, [], s.pkg.released, false, s.pkg.dieMask, t.pkg.quarantined⟩ ∧ t.pkg.released = [] ∧
      t.pkg.jnext = s.pkg.jnext ∧ t.pkg.dieMask = s.pkg.dieMask ∧ t.mem = s.mem ∧ t.writes = s.writes ∧ t.regs = s.regs ∧
      (∀ q ∈ s.pkg.released, t.launch q = none) ∧ (∀ q, q ∉ s.pkg.released → t.launch q = s.launch q) ∧
      (∀ x ∈ s.pkg.returning, mapGet false t.pkg.quarantined x = false) ∧
      (∀ d ∈ s.dieList, (t.die d).holdings = holdingsOf t)) ∧
  (∀ (s : State) (r : Round) (d st f : Nat), s.pkg.round = some r → r.replacement = false → d ∈ maskDies r.dies → (s.die d).runs = true →
    (verdictOf s (headHoldings s) r.seq = (st, f) → exec (.dieVerdict d st f) s =
      .next (s.modPkg (fun p => { p with round := some { r with verdicts := r.verdicts.filter (fun v => v.1 != d) ++ [(d, st, f)] } }))) ∧
    (verdictOf s (headHoldings s) r.seq ≠ (st, f) → ∃ t : State, exec (.dieVerdict d st f) s = .next t ∧ t = resetDie s d ∧
      t.pkg.dieMask = s.pkg.dieMask &&& ~~~(BitVec.twoPow 24 d) ∧ t.pkg.round = some ⟨r.seq, [], r.released, false, t.pkg.dieMask, s.pkg.quarantined⟩)) ∧
  (∀ (s : State) (q : Nat), agreed s q = true → entryType s q = 1 →
    (∀ a, validateLaunch s (headHoldings s) q = .ok a → ∃ (u : State) (t : State), exec (.launchPacket q) s = .next t ∧
      u = acceptLaunch s (headHoldings s) q a (chainOf (requestsOf s q)) ∧ u.launch q ≠ none ∧ (u.lext q).reqs = chainOf (requestsOf s q) ∧
      t = closeRound (dropLost (replayEarly u) q) q ∧ t.pkg.round = none ∧ t.pkg.jnext = q + 1) ∧
    (∀ f, validateLaunch s (headHoldings s) q = .error f → exec (.launchPacket q) s =
      .next (closeRound ((requestsOf s q).foldl (fun s r => rejectEntry s r.1 2 r.2.record f)
        (rejectEntry s q 1 (parsePkt (entryBytes s q)).record f)) q))) ∧
  (∀ (s : State) (h : Holdings) (q : Nat) (a : Accepted) (rs : List ModeReq), LaunchBound s h q a (bindPlaced s h q a) ∧ LaunchAccepted s h q a rs) ∧
  (∀ (s : State) (q : Nat), (launchOn s q (fun t => !eligibleTile s t) = false → dropLost s q = s) ∧
    (launchOn s q (fun t => !eligibleTile s t) = true → ∀ l : Launch, s.launch q = some l → l.stat = .running →
      ∃ l' : Launch, (dropLost s q).launch q = some l' ∧ l'.stat = .unplaced ∧ q ∈ (dropLost s q).pkg.replaceQ)) ∧
  (∀ (s : State) (q : Nat), agreed s q = true → entryType s q = 2 → (deferred s q = true → exec (.modeRequest q) s = .next (closeRound s q)) ∧
    (deferred s q = false →
    (∀ f, modeVerdict s q = some f → exec (.modeRequest q) s =
      .next (closeRound (rejectEntry s q 2 (parseMode (entryBytes s q)).record f) q)) ∧
    (modeVerdict s q = none → (∀ r ∈ (s.lext (parseMode (entryBytes s q)).target).reqs, r.seq ≠ q) →
      sourceElsewhere s (parseMode (entryBytes s q)).target = none →
      ∃ t : State, exec (.modeRequest q) s = .next t ∧ t.pkg.round = none ∧ t.pkg.jnext = q + 1 ∧
        (t.lext (parseMode (entryBytes s q)).target).reqs = withReq (s.lext (parseMode (entryBytes s q)).target)
          ⟨q, (parseMode (entryBytes s q)).newMode, (parseMode (entryBytes s q)).count, (parseMode (entryBytes s q)).record⟩) ∧
    (modeVerdict s q = none → (∃ r ∈ (s.lext (parseMode (entryBytes s q)).target).reqs, r.seq = q) →
      exec (.modeRequest q) s = .next (closeRound s q)) ∧
    (∀ x, modeVerdict s q = none → (∀ r ∈ (s.lext (parseMode (entryBytes s q)).target).reqs, r.seq ≠ q) →
      sourceElsewhere s (parseMode (entryBytes s q)).target = some x →
      exec (.modeRequest q) s = .next (acceptMode s.draw.2 q (parseMode (entryBytes s q))) ∨ exec (.modeRequest q) s = .next (closeRound
        (rejectEntry s.draw.2 q 2 (parseMode (entryBytes s q)).record ⟨0x16, x, some (parseMode (entryBytes s q)).count, 0⟩) q)))) ∧
  (∀ (s : State) (q : Nat), agreed s q = true → entryType s q = 3 →
    (∀ f, preemptVerdict s q = some f → exec (.preemptionRequest q) s =
      .next (closeRound (rejectEntry s q 3 (parsePreempt (entryBytes s q)).2.1 f) q)) ∧
    (preemptVerdict s q = none → ∃ t : State, exec (.preemptionRequest q) s = .next t ∧ t.pkg.round = none ∧ t.pkg.jnext = q + 1 ∧
      t = closeRound (recoverLaunch (s.modLext (parsePreempt (entryBytes s q)).1
        (fun e => { e with preempt := e.preempt ++ [(q, (parsePreempt (entryBytes s q)).2.1)], restored := [] }))
        (parsePreempt (entryBytes s q)).1 (s.lext (parsePreempt (entryBytes s q)).1).complete) q)) ∧
  (∀ (s : State) (q : Nat), agreed s q = true → (entryType s q < 1 ∨ 3 < entryType s q) →
    ∃ t : State, exec (.reservedJournalEntry q) s = .next t ∧ t = closeRound (rejectEntry s q (entryType s q) 1 ⟨0x19, 0, none, 0⟩) q ∧
      t.pkg.round = none ∧ t.pkg.jnext = q + 1 ∧ t.isComplete q = true ∧
      (s.isComplete q = false → t.regs.ringWait.length = s.regs.ringWait.length + 1)) ∧
  (∀ (s : State) (q typ : Nat) (addr : DWord) (f : VFail), s.isComplete q = false →
    mapGet false (rejectEntry s q typ addr f).pkg.completed q = true ∧ mapGet false (rejectEntry s q typ addr f).pkg.completed2 q = true ∧
    ∃ v, (∀ x, f.val = some x → v = x) ∧
    (∀ a, recordAddr addr.toNat = some a → (rejectEntry s q typ addr f).regs.msix = 0 :: s.regs.msix ∧
      ∀ j, j < 32 → (rejectEntry s q typ addr f).homeByte (a + j) =
        ((Completion.bytes ⟨0x20, f.cause, f.field, typ, f.idx, q, some v, 0⟩ s.pkg.num 0).getD j 0)) ∧
    (recordAddr addr.toNat = none → (rejectEntry s q typ addr f).regs.ringWait =
      s.regs.ringWait ++ [Completion.bytes ⟨0x20, f.cause, f.field, typ, f.idx, q, some v, 0⟩ s.pkg.num 0]))

/-- A launch whose share has drained and whose digest stands performs every write made for it and completes its share with status 0; where the digest does not
stand, the check decides what follows (the digests of other packages' tasks are free: log entry 83). How a launch returns to a checkpoint, how a checkpoint
becomes complete, and when requests that wait for it do, is stated beside. The report of each die takes it off the launch's
list, and with the last one the launch is to be released. A launch that waits for tiles, when a round can open, is bound again if its placement checks pass; if
they do not, it waits on. From bring-up stage 2 on, a container that passes every check gets the next handle (log entry 161), with its sections but those of tools, and one that fails answers why; an
unload drops a container that no unfinished launch names, and answers 0x07 for one that is named. An INVALIDATE of a range that nothing staged or queued still uses drops the cached page entries of its range, and with hint 1
the cached descriptors, with status 0x01, and waits while something does; a write still pending in a frame that went is then performed (log entry 99); it answers 0x07 where it is busy. A READY wakes the held cores, ports and copies of its range on their tiles, makes a saved task that holds an access of it READY,
and lets the held gets of it go on, with status 0x01; a malformed command answers 0x0F. Each of these that answers writes its status byte in the entry and is counted. -/
def Obligations.LaunchesEnd : Prop :=
  (∀ (s : State) (q : Nat) (l : Launch), s.launch q = some l → shareDrained s q l = true →
    let f := formDigest (showWrites s q) q (taskDigests (showWrites s q) q)
    let r := checkDigest f.1 q 0 (s.lext q).complete f.2
    (s.otherPkgs q = [] → f.2 = chainDigest (s.seed q) (taskDigests s q)) ∧
    (∀ o x, (showWrites s q).homeByte x = s.homeByte x ∧ ((∀ w ∈ s.writes, w.covers x = true → w.launch = some q) →
      (showWrites s q).byteAt o x = s.homeByte x)) ∧
    (r.2 = true → ∃ (t : State) (l' : Launch), exec (.shareCompletion q) s = .next t ∧ t = completeShare r.1 q 0 0 0 none f.2 ∧ t.launch q = some l' ∧
      l'.stat = .completed ∧ t.isComplete q = true) ∧
    (r.2 = false → exec (.shareCompletion q) s = .next r.1)) ∧
  (∀ (s : State) (q n back d : Nat) (rep : Option Nat), RestoreBegins s q n rep ∧ DigestChecked s q n back d ∧ AnnounceRule s q n ∧ PreemptRule s q) ∧
  (∀ (s : State) (q n : Nat) (l : Launch) (g : Graph), s.launch q = some l → s.graph q = some g → RestoreEnds s q l ∧ CheckpointComplete s q n l) ∧
  (∀ (s : State) (q a u : Nat) (l : Launch) (prods : List (Nat × ProdCopy)) (w x : Window) (bs : List (Byte × Bool)), WindowReturned s q l prods a u w x bs) ∧
  (∀ (s : State) (d q : Nat) (l : Launch), s.launch q = some l → (l.stat = .completed ∨ l.stat = .aborted) → d ∈ (s.lext q).dies →
    ∃ t : State, exec (.shareCompleteReport d q) s = .next t ∧ (t.lext q).dies = (s.lext q).dies.erase d ∧ t.mem = s.mem ∧
      t.launch q = some l ∧
      ((∀ x ∈ (s.lext q).dies.erase d, x ∉ s.dieList) → q ∉ s.pkg.released → t.pkg.released = s.pkg.released ++ [q]) ∧
      ((∃ x ∈ (s.lext q).dies.erase d, x ∈ s.dieList) → t.pkg.released = s.pkg.released)) ∧
  (∀ (s : State) (q : Nat) (l : Launch) (g : Graph), s.launch q = some l → s.graph q = some g → canOpen s = true → l.stat = .unplaced →
    q ∈ s.pkg.replaceQ →
    let s0 := (openRound s q true).modPkg (fun p => { p with round := none })
    let s1 := unbindLaunch s0 q
    (∀ e, placeCheck s1 (holdingsOf s1) l g = .error e → exec (.replacementRound q) s = .next s0) ∧
    (∀ p, placeCheck s1 (holdingsOf s1) l g = .ok p → exec (.replacementRound q) s =
      .next (replayEarly (finishRestore ((bindPlaced s1 (holdingsOf s1) q ⟨{ l with stat := .restoring }, g, p⟩).modPkg
        (fun p => { p with replaceQ := p.replaceQ.filter (fun x => x != q) })) q)))) ∧
  (∀ (s : State) (bs : List Byte), 2 ≤ s.regs.stage →
    (loadFail bs = none → ∃ t : State, exec (.containerLoad bs) s = .next t ∧
      t.container s.pkg.nextHandle = (sectionsOf bs).filter (fun x => !x.isTool) ∧ t.pkg.nextHandle = s.pkg.nextHandle + 1 ∧
      t.pkg.loadAns = (0, 0, 0, s.pkg.nextHandle) ∧
      (∀ h, h ≠ s.pkg.nextHandle → t.container h = s.container h) ∧ t.pkg.launches = s.pkg.launches ∧ t.mem = s.mem) ∧
    (∀ e, loadFail bs = some e → ∃ t : State, exec (.containerLoad bs) s = .next t ∧ (∀ h, t.container h = s.container h) ∧
      t.pkg.loadAns = (e.status, e.sect, e.off, 0) ∧ t.pkg.nextHandle = s.pkg.nextHandle)) ∧
  (∀ (s : State) (h : Nat),
    (containerBusy s h = false → ∃ t : State, exec (.containerUnload h) s = .next t ∧ t.container h = [] ∧ ∀ x, x ≠ h → t.container x = s.container x) ∧
    (containerBusy s h = true → ∃ t : State, exec (.containerUnload h) s = .next t ∧ t.pkg.loadAns = (0x07, 0, 0, h) ∧
      ∀ x, t.container x = s.container x)) ∧
  (∀ (s : State) (c : InvCmd) (a : Nat), invNext s = some c → invEntry s = some a →
    (c.malformed = true → ∃ t : State, exec .invqMalformedCommand s = .next t ∧ t.homeByte (a + 0x18) = 0x0F ∧
      t.regs.invqDone = s.regs.invqDone + 1 ∧ t.pkg = s.pkg ∧ t.tiles = s.tiles ∧ ∀ x, x ≠ a + 0x18 → t.homeByte x = s.homeByte x) ∧
    (c.malformed = false → c.op = 2 → ∃ t : State, exec .ready s = .next t ∧
      t = invDone ((wokenGets s c).foldl (fun s g => getProgress s g.1 g.2.1 g.2.2) (wakeAll s c)) 0x01 ∧ t.homeByte (a + 0x18) = 0x01 ∧
      t.regs.invqDone = s.regs.invqDone + 1) ∧
    (c.malformed = false → c.op = 1 → (invBusy s c = true → ∃ t : State, exec .invalidate s = .next t ∧ t.homeByte (a + 0x18) = 0x07 ∧
        t.regs.invqDone = s.regs.invqDone + 1 ∧ t.pkg = s.pkg ∧ t.tiles = s.tiles) ∧
      (invBusy s c = false → stagedUnder s c = true ∨ queuedUnder s c = true → exec .invalidate s = .next s) ∧
      (invBusy s c = false → stagedUnder s c = false → queuedUnder s c = false → ∃ t : State, exec .invalidate s = .next t ∧ t.homeByte (a + 0x18) = 0x01 ∧
        t.regs.invqDone = s.regs.invqDone + 1 ∧ t.tiles = s.tiles ∧
        (∀ e ∈ t.pkg.pteCache, c.page (e.1 / 2 ^ 48) (e.1 / 2 ^ 32 % 2 ^ 16) (e.1 % 2 ^ 32) = false) ∧
        (∀ e, e ∈ s.pkg.pteCache → c.page (e.1 / 2 ^ 48) (e.1 / 2 ^ 32 % 2 ^ 16) (e.1 % 2 ^ 32) = false → e ∈ t.pkg.pteCache) ∧
        (c.hint = 0 → t.pkg.descCache = s.pkg.descCache) ∧
        (c.hint ≠ 0 → ∀ e, e ∈ t.pkg.descCache ↔ e ∈ s.pkg.descCache ∧ c.tensor (e.1 / 2 ^ 16) (e.1 % 2 ^ 16) = false)))) ∧
  (∀ (s : State) (c : InvCmd) (t : Nat),
    (∀ k, ((wakeAll s c).tile t).core k = wakeCore c true ((s.tile t).core k)) ∧
    (∀ p, ((wakeAll s c).tile t).port p = { (s.tile t).port p with held := c.wake true ((s.tile t).port p).held }) ∧
    ((wakeAll s c).tile t).copies = (s.tile t).copies.map (fun y => { y with held := c.wake ((s.tile t).resident == some y.slot) y.held }) ∧
    (∀ slot k x, (s.tile t).task slot = some k → k.saved = some x → k.stat = .saved →
      (wakesContext c x = true ∨ ∃ y ∈ (s.tile t).copies, y.slot = slot ∧ c.wakes y.held = true) →
      ∃ k', ((wakeAll s c).tile t).task slot = some k' ∧ k'.stat = .ready ∧ k'.readyAt = s.stamp)) ∧
  (∀ (c : InvCmd) (k : Core) (h : Held), k.held = some h → c.wakes k.held = true → (wakeCore c true k).held = none ∧
    (k.stat = .held → (wakeCore c true k).stat = .run))
namespace Sys2Proof.Spec
open Sys2Proof.Machine

/-- Landing a row of a route word from a package (R279): it takes the next slot of its window, or it counts as an error. -/
def RowLands (s t : State) (src rw : Nat) (bs : List Byte) : Prop :=
  let rejected := NetOnly s t ∧ t.net.rowErrors = s.net.rowErrors + 1
  (fieldDest s rw = none → rejected) ∧
  (∀ d : RowDest, fieldDest s rw = some d → rowKeys s src d.tile d.w = [] → rejected) ∧
  (∀ d : RowDest, fieldDest s rw = some d → rowKeys s src d.tile d.w ≠ [] → ∃ k ∈ rowKeys s src d.tile d.w, ∀ x : Window, s.win d.tile k = some x →
    (x.tok ≠ bs.length ∨ x.cap ≤ x.occ → rejected) ∧
    (x.tok = bs.length → x.occ < x.cap → 0 < x.tok → ∃ w : Window, t.win d.tile k = some w ∧ w.occ = x.occ + 1 ∧ w.wr = (x.wr + 1) % x.cap ∧ w.rd = x.rd ∧
      ∀ j, j < x.tok → t.homeByte (spadBase d.tile + x.slotOff x.wr + j) = bs.getD j 0))

/-- Another package's announcement that it returns a launch to a checkpoint (R439, R442). -/
def RestoreAnnounced (s t : State) (q src : Nat) : Prop := ∃ u : State, u = { s with draws := u.draws } ∧
  let n := (s.lext q).complete
  (t = finishRestore (beginRestore u q n (some src)) q ∨
    ∃ (m i : Nat) (x : DWord × DWord), (m = n ∨ m = n - 1) ∧ t = finishRestore ((beginRestore u q m (some src)).modLext q (fun e =>
      { e with serial := some i, mismatch := some x })) q)

end Sys2Proof.Spec

/-- A valid frame that is the next of its flow is delivered, the frames buffered behind it follow, and the flow is acknowledged; one ahead of its turn by
fewer than 4,096 is buffered, and one behind it is acknowledged again and has no effect; before stage 6 no remote section is carried (log entry 146). A staged operation whose bytes translate joins its section; one whose bytes do not refuses it,
sends its source a discard frame of the key, and holds back the acknowledgement of the flow (the model's choice, log entry 13); of a refused section it does nothing (log entry 96). A commit
applies the operations of its section in order and records the name; under a recorded name, or of a refused section, it applies nothing. A discard from a source drops what it staged; from a target, it fails the section of
that key here with code 5. A get request is answered with the bytes, or, refused, with a last frame of none (log entry 13); get data reaches its command, and a frame of no bytes fails it. A row frame waits for its eight parts and is then
unpacked, its rows in index order, or, where its CRC-32C fails, discarded, its first part due again. A row, from a frame or with its last cell, takes the next slot of the window that its
route word names (of several launches' windows of that number, which one is free: log entry 10), or, where it names no tile here or no open window, its size is not the token's or no slot is
free, counts an error (log entries 59, 97). An arc token in its turn takes the next slot of its window; one that came before has no effect, and one ahead of its turn waits (log entry
98). -/
def Obligations.FrameDelivery : Prop :=
  (∀ (s : State) (f : Frame), InTurn s f →
    (f.opcode = 0x01 → exec (.stagedPut f) s = .next (delivered f (stageOp (pastFrame s f) f 0))) ∧
    (f.opcode = 0x02 → exec (.stagedReduction f) s = .next (delivered f (stageOp (pastFrame s f) f 1))) ∧
    (f.opcode = 0x03 → exec (.stagedSignal f) s = .next (delivered f (stageOp (pastFrame s f) f 2))) ∧
    (f.opcode = 0x04 → exec (.getRequest f) s = .next (delivered f (answerGet (pastFrame s f) f))) ∧
    (f.opcode = 0x05 → exec (.getData f) s = .next (delivered f (getArrived (pastFrame s f) f))) ∧
    (f.opcode = 0x06 → exec (.commit f) s = .next (delivered f (commitStaging (pastFrame s f) f))) ∧
    (f.opcode = 0x07 → exec (.discard f) s = .next (delivered f (discardArrived (pastFrame s f) f))) ∧
    (f.opcode = 0x09 → exec (.rowFramePart f) s = .next (delivered f (rowPart (pastFrame s f) f))) ∧
    (f.opcode = 0x0A → exec (.cell f) s = .next (delivered f (cellArrived (pastFrame s f) f))) ∧
    (f.opcode = 0x0B → exec (.arcToken f) s = .next (delivered f (tokenArrived (pastFrame s f) f)))) ∧
  (∀ (s : State) (f : Frame), f.crcOk = true → frameOk f = true → f.dst = s.pkg.num → f.opcode = 0x01 → (f.sect = true → 6 ≤ s.regs.stage) →
    (s.rx' (flowKey f.src f.cls)).expect < 2 ^ 24 → f.seq < 2 ^ 24 →
    let d := (f.seq + 2 ^ 24 - (s.rx' (flowKey f.src f.cls)).expect) % 2 ^ 24
    (0 < d → d < 4096 → (∀ g ∈ (s.rx' (flowKey f.src f.cls)).window, g.seq ≠ f.seq) → ∃ t : State, exec (.stagedPut f) s = .next t ∧ NetOnly s t ∧
      t.rx' (flowKey f.src f.cls) = { s.rx' (flowKey f.src f.cls) with window := (s.rx' (flowKey f.src f.cls)).window ++ [f] } ∧
      t.net.stagings = s.net.stagings ∧ t.net.sent = s.net.sent) ∧
    (2 ^ 23 ≤ d → exec (.stagedPut f) s = .next (sendAck s f.src f.cls))) ∧
  (∀ (s : State) (f : Frame) (kind : Nat),
    let x := xlate s (hdrField f 2 2) (hdrField f 4 2) (hdrField f 6 6) f.payload.length (if kind = 0 then .write else .atomic) kXCOPY 0
    let g := (s.net.stagings.find? (isStaging f)).getD ⟨f.src, hdrField f 12 4, [], false⟩
    (∀ x, (stageOp s f kind).homeByte x = s.homeByte x) ∧ (stageOp s f kind).mem = s.mem ∧
    ((∃ y ∈ s.net.stagings, isStaging f y = true ∧ y.refused = true) → stageOp s f kind = s) ∧
    ((∀ y ∈ s.net.stagings, isStaging f y = true → y.refused = false) →
      (∀ ps, x.res = .ok ps → (stageOp s f kind).net.stagings.find? (isStaging f) = some { g with ops := g.ops ++
      [⟨kind, hdrField f 1 1 % 8, hdrField f 2 2, hdrField f 4 2, hdrField f 6 6, f.payload, ps.map (fun p => (p.addr, p.len))⟩] }) ∧
      (∀ tr, x.res = .error tr → (stageOp s f kind).net.stagings.find? (isStaging f) = some { g with refused := true } ∧
        ((stageOp s f kind).rx' (flowKey f.src f.cls)).holds = (s.rx' (flowKey f.src f.cls)).holds ++ [(f.seq, hdrField f 12 4 + 1)] ∧ ∃ fr : Frame,
        ((stageOp s f kind).tx (flowKey f.src f.cls)).unacked.map (fun y => y.frame) = (s.tx (flowKey f.src f.cls)).unacked.map (fun y => y.frame) ++ [fr] ∧
        fr.opcode = 0x07 ∧ fr.dst = f.src ∧ fr.cls = f.cls ∧ hdrField fr 12 4 = hdrField f 12 4 % 2 ^ 32))) ∧
  (∀ (s : State) (f : Frame) (g : Staging), s.net.stagings.find? (isStaging f) = some g →
    ((g.refused = true ∨ (f.src, hdrField f 12 4) ∈ s.net.committed) → commitStaging s f = dropStaging s f) ∧
    (g.refused = false → (f.src, hdrField f 12 4) ∉ s.net.committed →
      (f.src, hdrField f 12 4) ∈ (commitStaging s f).net.committed ∧ (commitStaging s f).net.stagings.find? (isStaging f) = none ∧
      ∀ x, (commitStaging s f).homeByte x = (g.ops.foldl (applyOp (rxObs f)) s).homeByte x)) ∧
  (∀ (s : State) (o : Obs) (x : StageOp) (a n : Nat), x.parts = [(a, n)] → (opResult x (s.homeBytes a n)).length = n →
    (∀ j, j < n → (applyOp o s x).homeByte (a + j) = (opResult x (s.homeBytes a n)).getD j 0) ∧
    (∀ y, y < a ∨ a + n ≤ y → (applyOp o s x).homeByte y = s.homeByte y)) ∧
  (∀ (s : State) (f : Frame), NetOnly s (dropStaging s f) ∧ ∀ g, g ∈ (dropStaging s f).net.stagings ↔
    g ∈ s.net.stagings ∧ ¬(g.src = f.src ∧ g.key = hdrField f 12 4)) ∧
  (∀ (s : State) (f : Frame), (s.net.stagings.any (isStaging f) = true → discardArrived s f = dropStaging s f) ∧
    (s.net.stagings.any (isStaging f) = false →
      (findSection s f.src (hdrField f 12 4) = none → discardArrived s f = s) ∧
      (∀ t slot, findSection s f.src (hdrField f 12 4) = some (t, slot, true) → discardArrived s f = failExplicit s t slot 5) ∧
      (∀ t slot, findSection s f.src (hdrField f 12 4) = some (t, slot, false) → discardArrived s f = failImplicit s t slot 5 0))) ∧
  (∀ (s : State) (f : Frame) (ps : List Part),
    (xlate s (hdrField f 2 2) (hdrField f 4 2) (hdrField f 6 6) (leNat f.payload) .read kXCOPY 0).res = .ok ps →
    (s.readParts (rxObs f) ps).length ≤ 8192 → ∃ fr : Frame, ((answerGet s f).tx (flowKey f.src f.cls)).unacked.map (fun y => y.frame) =
      (s.tx (flowKey f.src f.cls)).unacked.map (fun y => y.frame) ++ [fr] ∧ fr.opcode = 0x05 ∧ fr.dst = f.src ∧ fr.cls = f.cls ∧
      fr.payload = s.readParts (rxObs f) ps ∧ hdrField fr 12 4 = hdrField f 12 4 % 2 ^ 32 ∧
      fr.bad = badPlaces ((ps.map (fun p => s.dataAt (rxObs f) p.addr p.len)).flatten) ∧ bitOf (hdrField fr 1 1) 3 = true) ∧
  (∀ (s : State) (f : Frame) (tr : Trap),
    (xlate s (hdrField f 2 2) (hdrField f 4 2) (hdrField f 6 6) (leNat f.payload) .read kXCOPY 0).res = .error tr →
    ∃ fr : Frame, ((answerGet s f).tx (flowKey f.src f.cls)).unacked.map (fun y => y.frame) =
      (s.tx (flowKey f.src f.cls)).unacked.map (fun y => y.frame) ++ [fr] ∧ fr.opcode = 0x05 ∧ fr.payload = [] ∧
      hdrField fr 12 4 = hdrField f 12 4 % 2 ^ 32 ∧ bitOf (hdrField fr 1 1) 3 = true) ∧
  (∀ (s : State) (f : Frame) (t slot : Nat) (c : XcCmd), findGet s f.src (hdrField f 12 4) = some (t, slot, c) →
    (f.payload ≠ [] → c.held = none →
      getArrived s f = getProgress s t slot { c with data := c.data ++ f.data, last := bitOf (hdrField f 1 1) 3 }) ∧
    (f.payload = [] → getArrived s f = failCommand s t slot 5 c)) ∧
  (∀ (s : State) (f : Frame), (s.net.gathers.find? (isGather f.src (hdrField f 12 4) 9)) = none →
    NetOnly s (rowPart s f) ∧ (rowPart s f).net.gathers = s.net.gathers ++
      [⟨f.src, hdrField f 12 4, [(hdrField f 2 1, f.data)], BitVec.ofNat 64 (9 * 2 ^ 56)⟩]) ∧
  (∀ (s : State) (f : Frame) (g : Gather), s.net.gathers.find? (isGather f.src (hdrField f 12 4) 9) = some g →
    (mapInsert g.parts (hdrField f 2 1) f.data).length = 8 →
    let data := ((mapInsert g.parts (hdrField f 2 1) f.data).map (fun p => p.2)).flatten
    (rowFrameOk (data.map (fun b => b.1)) = true → rowPart s f =
      unpackRows (freeAck (s.modNet (fun n => { n with gathers := n.gathers.filter (fun g => !isGather f.src (hdrField f 12 4) 9 g) }))
        (flowKey f.src f.cls) 0) f.src (engineOf f.src f.cls) data) ∧
    (rowFrameOk (data.map (fun b => b.1)) = false → NetOnly s (rowPart s f) ∧
      (rowPart s f).net.gathers = s.net.gathers.filter (fun g => !isGather f.src (hdrField f 12 4) 9 g) ∧
      ∀ n, (s.rx' (flowKey f.src f.cls)).holds.find? (fun h => h.2 == 0) = some (n, 0) →
        ((rowPart s f).rx' (flowKey f.src f.cls)).expect = n)) ∧
  (∀ (s : State) (src e : Nat) (data : List (Byte × Bool)),
    let bs := data.map (fun b => b.1)
    let n := fieldAt bs 2 2
    ∃ u : Nat → State, u 0 = s ∧ u n = unpackRows s src e data ∧ ∀ i, i < n →
      Spec.RowLands (u i) (u (i + 1)) src (fieldAt bs (0x20 + 8 * i) 8)
        (((data.drop ((0x20 + 8 * n + 15) / 16 * 16 + fieldAt bs 4 4 * i)).take (fieldAt bs 4 4)).map (fun b => b.1))) ∧
  (∀ (s : State) (f : Frame), hdrField f 2 2 = 0 → bitOf (hdrField f 1 1) 3 = true → s.net.gathers.find? (isGather f.src (hdrField f 12 4) 10) = none →
    Spec.RowLands s (cellArrived s f) f.src (hdrField f 4 8) f.payload) ∧
  (∀ (s : State) (q a src n t : Nat) (l : Launch) (x : Window) (bs : List (Byte × Bool)), s.launch q = some l →
    (l.arcTile.find? (fun p => p.1 == a)).map (fun p => p.2) = some t → s.win t (windowKey q a) = some x →
    x.tok = bs.length → x.occ < x.cap → n < 2 ^ 32 → x.next < 2 ^ 32 →
    let ahead := (n + 2 ^ 32 - (x.arrived - x.initial) % 2 ^ 32) % 2 ^ 32
    (2 ^ 31 ≤ (n + 2 ^ 32 - x.next) % 2 ^ 32 → landArcToken s q a src n bs = s) ∧
    ((n + 2 ^ 32 - x.next) % 2 ^ 32 < 2 ^ 31 →
      (ahead = 0 ∨ 2 ^ 31 ≤ ahead → ∃ w : Window, (landArcToken s q a src n bs).win t (windowKey q a) = some w ∧ w.occ = x.occ + 1 ∧
        w.wr = (x.wr + 1) % x.cap ∧ w.rd = x.rd ∧ w.next = (n + 1) % 2 ^ 32 ∧
        ∀ j, j < bs.length → (landArcToken s q a src n bs).homeByte (spadBase t + x.slotOff x.wr + j) = (bs.getD j (0, false)).1) ∧
      (0 < ahead → ahead < 2 ^ 31 → NetOnly s (landArcToken s q a src n bs) ∧ (landArcToken s q a src n bs).net.gathers =
        s.net.gathers ++ [⟨src, n, [(q, bs)], BitVec.ofNat 64 (13 * 2 ^ 56 + a)⟩])))

/-- A control frame in turn of a running launch that this package shares acts on that launch: an eclipse marker marks the window of an arc from its package
whose tokens and whose markers upstream have all come, or, with no such arc, waits for one while one can come (log entries 77, 152); a quiescence report, a parts-written report and a restore report add their package to the lists; a checkpoint announcement raises the number
that is due; a checkpoint-complete frame completes the checkpoint; a pre-emption announcement begins the return to the last complete checkpoint, or, for it does not say why it is sent, a serial re-execution from that one or the one before it
(free: log entry 83). The last one and the restore report
act so too on a launch that is restoring or waits for tiles; the others are kept until it runs, as is each of the seven for a launch that is not known here; for a launch that is over none
has an effect (which launch a frame names: log entry 98). An acknowledgement retires the frames of its flow up to the one it names, tells their commands, and adds the relay credit it carries. A frame to be relayed is
held, within the credit granted to its source, and dropped beyond it; before stage 6 frames of remote sections and frames for other packages are dropped (log entry 146). A frame whose check holds and that is no valid transport frame is dropped and counted (log entry 95). -/
def Obligations.ControlFrames : Prop :=
  (∀ (s : State) (f : Frame) (q : Nat) (l : Launch), InTurn s f → f.opcode = 0x0C → launchOfHome (pastFrame s f) (hdrField f 4 8) f.src = some (q, l) →
    (l.stat = .running →
      (hdrField f 2 1 = 1 → exec (.eclipseMarker f) s = .next (delivered f (markArrived (pastFrame s f) q f.src))) ∧
      (hdrField f 2 1 = 2 → ∃ u : State, exec (.quiescenceReport f) s = .next (delivered f u) ∧ (u.lext q).quiet = (s.lext q).quiet ++ [f.src] ∧ u.tiles = s.tiles ∧ u.mem = s.mem) ∧
      (hdrField f 2 1 = 3 → ∃ u : State, exec (.checkpointAnnouncement f) s = .next (delivered f (launchSteps u)) ∧
        (u.lext q).due = max (s.lext q).due (hdrField f 12 4) ∧ u.tiles = s.tiles ∧ u.mem = s.mem) ∧
      (hdrField f 2 1 = 5 → ∃ u : State, exec (.checkpointPartsWritten f) s = .next (delivered f (announceComplete u q (hdrField f 12 4))) ∧
        f.src ∈ (u.lext q).written ∧ u.tiles = s.tiles ∧ u.mem = s.mem) ∧
      (hdrField f 2 1 = 6 → exec (.checkpointComplete f) s = .next (delivered f
        (launchSteps (completeCheckpoint (pastFrame s f) q (hdrField f 12 4)))))) ∧
    (l.stat = .running ∨ l.stat = .restoring ∨ l.stat = .unplaced →
      (hdrField f 2 1 = 4 → ∃ v : State, exec (.preemptionAnnouncement f) s = .next (delivered f v) ∧
        Spec.RestoreAnnounced (dropEarly (pastFrame s f) f) v q f.src) ∧
      (hdrField f 2 1 = 7 → ∃ u : State, exec (.restoreDone f) s = .next (delivered f (preemptStep u q)) ∧
        f.src ∈ (u.lext q).restored ∧ u.tiles = s.tiles ∧ u.mem = s.mem))) ∧
  (∀ (s : State) (f : Frame) (i : Instr) (k : Nat), InTurn s f → f.opcode = 0x0C → hdrField f 2 1 = k →
    (k = 1 ∧ i = .eclipseMarker f) ∨ (k = 2 ∧ i = .quiescenceReport f) ∨ (k = 3 ∧ i = .checkpointAnnouncement f) ∨
      (k = 4 ∧ i = .preemptionAnnouncement f) ∨ (k = 5 ∧ i = .checkpointPartsWritten f) ∨ (k = 6 ∧ i = .checkpointComplete f) ∨
      (k = 7 ∧ i = .restoreDone f) →
    let kept := (pastFrame s f).modNet (fun n => { n with early := n.early ++ [f] })
    (launchOfHome (pastFrame s f) (hdrField f 4 8) f.src = none → exec i s = .next (delivered f kept)) ∧
    (∀ q l, launchOfHome (pastFrame s f) (hdrField f 4 8) f.src = some (q, l) →
      (l.stat = .restoring ∨ l.stat = .unplaced → k ≠ 4 → k ≠ 7 → exec i s = .next (delivered f kept)) ∧
      (l.stat = .completed ∨ l.stat = .aborted → exec i s = .next (delivered f (pastFrame s f))))) ∧
  (∀ (s : State) (q src : Nat) (l : Launch) (g : Graph), s.launch q = some l → s.graph q = some g → (s.lext q).marksDue = [] →
    let due := fun (p : Nat × Nat) => markCanBe s q l g p.1 && arcWhole s q l g p
    (∀ a t x, (unmarkedFrom s q l src).find? due = some (a, t) → s.win t (windowKey q a) = some x →
      (markArrived s q src).win t (windowKey q a) = some { x with marks := x.marks ++ [x.occ] } ∧
      ((markArrived s q src).lext q).marksDue = []) ∧
    ((unmarkedFrom s q l src).find? due = none → (markArrived s q src).tiles = s.tiles ∧
      ((src ∈ (s.lext q).quiet ∨ ∃ p ∈ unmarkedFrom s q l src, ∃ y, g.arcs[p.1]? = some y ∧ g.hasMem y.cons = true) →
        ((markArrived s q src).lext q).marksDue = [src]) ∧
      (src ∉ (s.lext q).quiet → (∀ p ∈ unmarkedFrom s q l src, ∀ y, g.arcs[p.1]? = some y → g.hasMem y.cons = false) →
        ((markArrived s q src).lext q).marksDue = []))) ∧
  (∀ (s : State) (f : Frame), f.crcOk = true → frameOk f = true → f.dst = s.pkg.num → f.opcode = 0x08 → (f.sect = true → 6 ≤ s.regs.stage) →
    let fl := s.tx (flowKey f.src f.cls)
    let past := fun (y : TxFrame) => y.once && decide ((hdrField f 4 4 % 2 ^ 24 + 2 ^ 24 - y.frame.seq) % 2 ^ 24 < 2 ^ 23)
    ∃ u : State, NetOnly s u ∧ u.tx (flowKey f.src f.cls) = ⟨fl.next, fl.unacked.dropWhile past⟩ ∧
      mapGet 0 u.net.credit f.src = min 65535 (mapGet 0 s.net.credit f.src + hdrField f 2 2) ∧
      exec (.acknowledgement f) s = .next ((fl.unacked.takeWhile past).foldl (retireFrame f.src)
        ((((fl.unacked.takeWhile past).map (fun y => y.cmds)).flatten).eraseDups.foldl (retireCmd f.src) u)).pump) ∧
  (∀ (s : State) (dst t slot : Nat) (c : XcCmd), (s.ext t slot).cmds.find? (fun x => x.ticket == c.ticket) = some c → c.ticket < 2 ^ 31 →
    c.op ≠ 0 → c.done = false → cmdPending s (t, slot, c.ticket) = false →
    retireCmd dst s (t, slot, c.ticket) = completeCmd s t slot c c.poisonMoved c.len) ∧
  (∀ (s : State) (f : Frame), f.crcOk = true → frameOk f = true → f.relay = true → f.dst ≠ s.pkg.num → 6 ≤ s.regs.stage →
    (creditUnits f.payload.length ≤ mapGet 0 s.net.granted f.src → ∃ t : State, exec (.relayFrame f) s = .next t ∧ NetOnly s t ∧
      t.net.relayed = s.net.relayed ++ [f] ∧ t.net.sent = s.net.sent ∧
      mapGet 0 t.net.granted f.src = mapGet 0 s.net.granted f.src - creditUnits f.payload.length) ∧
    (mapGet 0 s.net.granted f.src < creditUnits f.payload.length → exec (.relayFrame f) s = .next s)) ∧
  (∀ (s : State) (f : Frame), s.regs.stage < 6 → frameOk f = true → (f.sect = true ∨ f.dst ≠ s.pkg.num) →
    exec (.relayFrame f) s = .next s ∧ exec (.stagedPut f) s = .next s ∧ exec (.commit f) s = .next s) ∧
  (∀ (s : State) (f : Frame), f.crcOk = true → frameOk f = false → ∃ t : State, exec (.otherFrameType f) s = .next t ∧ NetOnly s t ∧
    t.net.drops = s.net.drops + 1 ∧ t.net.rx = s.net.rx ∧ t.net.stagings = s.net.stagings)
/-- A resend marks every unacknowledged frame of a flow to go again; a delivery limit fails the commands of the oldest frame that has not passed it, or
gives its launch an XFAIL record; a copy engine's reset does both for its flows and sections. In lock, a slot moves the calendar on, with retrained ports back at
its start, and a port sends what goes to its peer: a relayed frame, an acknowledgement, or a frame of a flow. Lock sets the slot and the ports and completes stage 6, given a port that can serve (log entry 106); its loss takes every port out. A port leaves at once and comes back
through retraining. An optical flit in turn whose tag holds is delivered, and a whole frame of
them is taken; a bad one is dropped and asked for; a key becomes the next epoch's and the old one stays till its report; the first key of a pair begins it
anew, and that of another package drops what it has staged here, its flows beginning anew (log entry 136); which part of a slot's traffic a peer takes, where frames end in flits
and whose XFAIL record a frame of no command is rest on log entries 101, 135 and 63. A data flit of a die link in turn is
delivered; a bad one, or one out of turn, asks once for the flit it lacks, and so again only where a data flit shows that the replay has failed (log entries 103, 149); a nack replays from the flit it names, and
the same one again is a failed replay; the replay buffer holds 2,048 flits; after 16 failures the link retrains; a lost lane group
narrows the link, and the last one loses it and resets the die. A pause stops a class on a port; a port leaves and joins the ports in service. -/
def Obligations.Links : Prop :=
  (∀ (s : State) (dst cls : Nat), ∃ u : State, exec (.frameResend dst cls) s = .next u.pump ∧ NetOnly s u.pump ∧
    (u.tx (flowKey dst cls)).unacked.map (fun y => (y.frame, y.once)) = (s.tx (flowKey dst cls)).unacked.map (fun y => (y.frame, y.once)) ∧
    ∀ y ∈ (u.tx (flowKey dst cls)).unacked, y.sent = false) ∧
  (∀ (s : State) (dst cls : Nat) (x : TxFrame) (p r : List TxFrame), (s.tx (flowKey dst cls)).unacked = p ++ x :: r →
    (∀ y ∈ p, y.expired = true) → x.expired = false →
    (∀ q, x.launch = some q → x.cmds = [] → ∃ (t : State) (rc : TrapRec), exec (.deliveryLimitExpiry dst cls) s = .next t ∧ t.tiles = s.tiles ∧ t.mem = s.mem ∧
      rc.cause = cXFAIL ∧ (t.die (s.dieList.headD 0)).faults = (s.die (s.dieList.headD 0)).faults ++ [(rc, q, none)] ∧
      (t.tx (flowKey dst cls)).unacked = p ++ { x with launch := none, expired := true } :: r) ∧
    (∀ c, x.launch = none → x.cmds = [c] → c.2.2 < 2 ^ 31 → ∃ u : State, exec (.deliveryLimitExpiry dst cls) s = .next (failCmd 1 u c) ∧ NetOnly s u ∧
      (u.tx (flowKey dst cls)).unacked = p ++ { x with cmds := [], expired := true } :: r)) ∧
  (∀ (s : State) (e : Nat), ∃ u : State, NetOnly s u ∧ exec (.copyEngineReset e) s = .next ((carried s e).foldl
      (fun s x => if x.2.2.1 then failExplicit s x.1 x.2.1 2 else failImplicit s x.1 x.2.1 2 x.2.2.2) u).pump ∧
    ∀ k, (u.tx k).unacked.map (fun y => y.frame) = (s.tx k).unacked.map (fun y => y.frame) ∧
      (engineOf (k / 4) (k % 4) = e → ∀ y ∈ (u.tx k).unacked, y.sent = false) ∧ (engineOf (k / 4) (k % 4) ≠ e → u.tx k = s.tx k)) ∧
  (∀ (s : State), (s.net.lock = true → ∃ t : State, exec .orrerySlot s = .next t ∧ NetOnly s t ∧ t.net.lock = true ∧
      t.net.slot = (s.net.slot + 1) % 63 ∧
      t.net.ports = (if (s.net.slot + 1) % 63 = 0 then s.net.ports ||| s.net.retrained else s.net.ports) ∧
      t.net.retrained = (if (s.net.slot + 1) % 63 = 0 then 0 else s.net.retrained)) ∧
    (s.net.lock = false → exec .orrerySlot s = .next s)) ∧
  (∀ (s : State) (k n key : Nat) (x : TxFrame), s.net.relayed = [] → s.net.acks = [] → s.net.tx = [(key, ⟨n, [x]⟩)] → x.sent = false → x.frame.dst = key / 4 →
    key / 4 = roundPeer s.pkg.num (portRound s.net.slot k) → s.optical (key / 4) x.frame = true → s.pairOpen (key / 4) x.frame = true →
    wireBytes x.frame ≤ 1444000 → (servePort s k).net.sent = s.net.sent ++ [{ x.frame with relay := false }] ∧
      ((servePort s k).tx key).unacked = [{ x with sent := true, once := true }]) ∧
  (∀ (s : State) (k : Nat) (f : Frame), s.net.relayed = [f] → s.net.acks = [] → s.net.tx = [] → f.dst = roundPeer s.pkg.num (portRound s.net.slot k) →
    s.pairOpen f.dst f = true → wireBytes f ≤ 1444000 → (servePort s k).net.sent = s.net.sent ++ [f] ∧ (servePort s k).net.relayed = []) ∧
  (∀ (s : State) (k : Nat) (f : Frame), s.net.relayed = [] → s.net.acks = [f] → s.net.tx = [] → f.dst = roundPeer s.pkg.num (portRound s.net.slot k) →
    s.optical f.dst f = true → s.pairOpen f.dst f = true → wireBytes f ≤ 1444000 →
    (servePort s k).net.sent = s.net.sent ++ [{ f with relay := false }] ∧ (servePort s k).net.acks = []) ∧
  (∀ (s : State) (slot ports : Nat), 5 ≤ s.regs.stage → s.pkg.halted = false → (s.regs.stage = 5 → ports % 256 ≠ 0) → ∃ t : State, exec (.orreryLock slot ports) s = .next t ∧
    t.net.lock = true ∧ t.net.slot = slot % 63 ∧ t.net.ports = BitVec.ofNat 8 ports ∧ t.regs.stage = 6 ∧ t.mem = s.mem ∧ t.pkg = s.pkg ∧
    t.tiles = s.tiles) ∧
  (∀ (s : State), ∃ t : State, exec .orreryLockLoss s = .next t ∧ NetOnly s t ∧ t.net.lock = false ∧ t.net.ports = 0 ∧
    t.net.loss = s.net.loss ||| s.net.ports) ∧
  (∀ (s : State) (k : Nat), k < 8 → (∃ t : State, exec (.opticalPortLoss k) s = .next t ∧ NetOnly s t ∧
      (∀ j, j < 8 → t.net.ports.getLsbD j = (s.net.ports.getLsbD j && decide (j ≠ k))) ∧ (s.net.ports.getLsbD k = true → t.net.loss.getLsbD k = true)) ∧
    (s.net.lock = true → s.net.ports.getLsbD k = false → ∃ t : State, exec (.opticalPortReturn k) s = .next t ∧ NetOnly s t ∧
      t.net.retrained.getLsbD k = true ∧ t.net.ports = s.net.ports)) ∧
  (∀ (s : State) (f : OptFlit) (pt : List Byte), f.dst = s.pkg.num → f.seq = (s.pair f.src s.pkg.num).rxNext →
    (s.pair f.src s.pkg.num).epoch ≠ 0 → f.phase = decide ((s.pair f.src s.pkg.num).epoch % 2 = 1) →
    (gcmOpen (s.pair f.src s.pkg.num).key (flitNonce f.src f.dst (s.pair f.src s.pkg.num).epoch f.seq) (flitHeader f.phase f.seq) f.cipher
      f.auth = some pt → ∃ u : State, exec (.opticalFlit f) s = .next (takeFlits u f.src) ∧ NetOnly s u ∧
        (u.pair f.src s.pkg.num).delivered = (s.pair f.src s.pkg.num).delivered ++ [pt.zipIdx.map (fun b => (b.1, f.bad.contains b.2))] ∧
        (u.pair f.src s.pkg.num).rxNext = (f.seq + 1) % 2 ^ 47 ∧ (u.pair f.src s.pkg.num).nacked = false) ∧
    (gcmOpen (s.pair f.src s.pkg.num).key (flitNonce f.src f.dst (s.pair f.src s.pkg.num).epoch f.seq) (flitHeader f.phase f.seq) f.cipher
      f.auth = none → ∃ t : State, exec (.opticalFlit f) s = .next t ∧ NetOnly s t ∧ (t.pair f.src s.pkg.num).nacked = true ∧
        (t.pair f.src s.pkg.num).delivered = (s.pair f.src s.pkg.num).delivered ∧
        (t.pair f.src s.pkg.num).rxNext = (s.pair f.src s.pkg.num).rxNext ∧ t.net.sent = s.net.sent ∧ t.net.rx = s.net.rx)) ∧
  (∀ (s : State) (src : Nat), let k := s.pair src s.pkg.num
    (∀ f, frameOfFlits k.delivered = some f →
      takeFlits s src = takeWhole (s.modPair src s.pkg.num (fun k => { k with delivered := [] })) f) ∧
    (frameOfFlits k.delivered = none → k.delivered.length < 36 → takeFlits s src = s)) ∧
  (∀ (s : State) (src dst : Nat) (key : BitVec 256), src ≠ dst → (src = s.pkg.num ∨ dst = s.pkg.num) →
    (∃ t : State, exec (.keyInstall src dst (.first key)) s = .next t ∧ t.mem = s.mem ∧ t.regs = s.regs ∧
      t.pair src dst = { PairKey.zero with epoch := 1, key := key } ∧
      (dst = s.pkg.num → (∀ g ∈ t.net.stagings, g.src ≠ src) ∧ ∀ c, c < 4 → t.rx' (flowKey src c) = RxFlow.zero)) ∧
    ((s.pair src dst).old = none → ∃ t : State, exec (.keyInstall src dst (.next key)) s = .next t ∧ NetOnly s t ∧ (t.pair src dst).key = key ∧
      (t.pair src dst).epoch = (s.pair src dst).epoch + 1 ∧
      (t.pair src dst).old = (if (s.pair src dst).epoch = 0 then none else some (s.pair src dst).key)) ∧
    ((dst = s.pkg.num ∨ ∀ f ∈ (s.pair src dst).replay, f.phase = decide ((s.pair src dst).epoch % 2 = 1)) → ∃ t : State, exec (.keyRetirementReport src dst) s = .next t ∧ NetOnly s t ∧
      (t.pair src dst).old = none ∧ (t.pair src dst).key = (s.pair src dst).key ∧ (t.pair src dst).epoch = (s.pair src dst).epoch)) ∧
  (∀ (s : State) (d : Nat) (f : Flit), (s.die d).link.lost = false → (f.crcOk = true → f.kind ≤ 3 → f.kind = 1 → f.seq = (s.die d).link.rxNext →
      ∃ t : State, exec (.d2dFlit d f) s = .next t ∧ (t.die d).link.delivered = (s.die d).link.delivered ++ [f.payload] ∧
        (t.die d).link.rxNext = (f.seq + 1) % 4096 ∧ (t.die d).link.nacked = false ∧ t.tiles = s.tiles ∧ t.net = s.net) ∧
    (let l := (s.die d).link
     let bad := f.crcOk = false ∨ 3 < f.kind
     let late := f.crcOk = true ∧ f.kind = 1 ∧ f.seq ≠ l.rxNext ∧ l.replay = []
     let on := fun (p : Nat) => (f.seq + 4096 - p) % 4096 ≠ 0 ∧ (f.seq + 4096 - p) % 4096 < 2048
     bad ∨ late → ∃ t : State, exec (.d2dFlit d f) s = .next t ∧
       (t.die d).link.delivered = l.delivered ∧ (t.die d).link.rxNext = l.rxNext ∧ (t.die d).link.nacked = true ∧
       (l.nacked = false ∨ (late ∧ ∃ p, l.passed = some p ∧ ¬ on p) →
         (t.die d).link.out = l.out ++ [Flit.make l.rxNext (l.rxNext + 4095) 2 []]) ∧
       (l.nacked = true → (bad ∨ ∀ p, l.passed = some p → on p) → (t.die d).link.out = l.out))) ∧
  (∀ (s : State) (d n : Nat), (s.die d).link.lost = false → ∃ t : State, exec (.d2dNack d n) s = .next t ∧
    (t.die d).link.replay = (s.die d).link.replay ∧ (t.die d).link.asked = some n ∧
    (t.die d).link.out = (s.die d).link.out ++ ((s.die d).link.replay.dropWhile (fun x => x.1 != n)).map (s.die d).link.flit ∧
    (t.die d).link.fails = (if (s.die d).link.asked = some n then (s.die d).link.fails + 1 else 0)) ∧
  (∀ (l : D2d) (p : List Byte), l.lost = false →
    (l.replay.length < 2048 → (l.send p).replay = l.replay ++ [(l.txSeq, p)] ∧ (l.send p).txSeq = (l.txSeq + 1) % 4096 ∧
      (l.send p).out = l.out ++ [Flit.make l.txSeq (l.rxNext + 4095) 1 p]) ∧
    (2048 ≤ l.replay.length → (l.send p).replay = l.replay ∧ (l.send p).out = l.out ∧ (l.send p).waiting = l.waiting ++ [p])) ∧
  (∀ (s : State) (d : Nat), (16 ≤ (s.die d).link.fails ∨ (s.die d).link.groups ≠ 15) → ∃ t : State, exec (.linkRetrain d) s = .next t ∧
    (t.die d).link.fails = 0 ∧ (t.die d).link.groups = 15 ∧ (t.die d).link.rxNext = (s.die d).link.rxNext ∧
    (t.die d).link.replay = (s.die d).link.replay ∧
    (t.die d).link.out = (s.die d).link.replay.map (s.die d).link.flit) ∧
  (∀ (s : State) (d g : Nat), g < 4 → (s.die d).link.lost = false →
    ((s.die d).link.groups &&& (15 - 2 ^ g) ≠ 0 → ∃ t : State, exec (.laneGroupFailure d g) s = .next t ∧
      (t.die d).link.groups = (s.die d).link.groups &&& (15 - 2 ^ g) ∧ (t.die d).link.lost = false ∧ t.pkg = s.pkg ∧ t.tiles = s.tiles) ∧
    ((s.die d).link.groups &&& (15 - 2 ^ g) = 0 → ∃ t : State, exec (.laneGroupFailure d g) s = .next t ∧ (t.die d).link.lost = true ∧
      (t.die d).link.groups = 0 ∧ t.pkg.dieMask = s.pkg.dieMask &&& ~~~(BitVec.twoPow 24 d))) ∧
  (∀ (s : State) (p c : Nat) (on : Bool), p < 8 → c < 4 → ∃ t : State, exec (.pauseFrame p c on) s = .next t ∧ NetOnly s t ∧
    mapGet false t.net.paused (p * 4 + c) = on ∧ ∀ x, x ≠ p * 4 + c → mapGet false t.net.paused x = mapGet false s.net.paused x) ∧
  (∀ (s : State) (k : Nat), k < 8 →
    (s.net.eports.getLsbD k = true → ∃ t : State, exec (.electricalPortLoss k) s = .next t ∧ NetOnly s t ∧
      ∀ j, j < 8 → t.net.eports.getLsbD j = (s.net.eports.getLsbD j && decide (j ≠ k))) ∧
    (∃ t : State, exec (.electricalPortReturn k) s = .next t ∧ NetOnly s t ∧
      ∀ j, j < 8 → t.net.eports.getLsbD j = (s.net.eports.getLsbD j || decide (j = k))))

/-- In slot s, port k of every package uses round (s + 8k) mod 63: where it matches package i with package j, it matches j with i, on the
same port, whatever the slot. The eight peers of one package in one slot are distinct. Every two packages meet on some port within every eight
slots in a row, and in exactly one of the 63 rounds. -/
def Obligations.CalendarMatches : Prop :=
  (∀ slot k, portRound slot k = (slot + 8 * k) % 63) ∧
  (∀ i j slot k, i < 64 → roundPeer i (portRound slot k) = j → j < 64 ∧ j ≠ i ∧ roundPeer j (portRound slot k) = i) ∧
  (∀ i slot k k', i < 64 → k < 8 → k' < 8 → roundPeer i (portRound slot k) = roundPeer i (portRound slot k') → k = k') ∧
  (∀ i j slot, i < 64 → j < 64 → i ≠ j → ∃ d k, d < 8 ∧ k < 8 ∧ roundPeer i (portRound (slot + d) k) = j) ∧
  (∀ i j, i < 64 → j < 64 → i ≠ j → ∃ r, r < 63 ∧ roundPeer i r = j ∧ ∀ r', r' < 63 → roundPeer i r' = j → r' = r)

/-- A manager that works quarantines a tile with a fatal fault, else takes its oldest record (with none, it may learn of an abort, or of the arrival or the end of a group's member, on another package: log entries 15,
133): NOTPRESENT goes to the fault ring, a POISON of an array within the retry limit returns the launch, while it runs, to its last
complete checkpoint, and any other aborts the launch. The oldest record that waits for the ring is written at its tail where there is room, and raises vector 1; without
room it waits and HOST_ERR tells it. A quarantined tile that passes a self-test returns at the next round. A reset die leaves the active mask, a thermal trip resets it, and a
die that rejoins is managed and in the mask, has its firmware checkpoint, and as head rereads the journal from the first entry that is neither complete nor taken (log entries 116, 150, 162). A failed stack reads as poisoned. An expired watchdog stops the manager and is counted; what its SRAM held is lost (log entry 9). A kick, an armed injection and a clock's
step are stored (a step beyond the range: log entry 114). -/
def Obligations.FaultHandling : Prop :=
  (∀ (s : State) (d q : Nat) (r : TrapRec) (m : Option Nat) (rest : List (TrapRec × Nat × Option Nat)), (s.die d).runs = true → (s.die d).fatal = [] →
    (s.die d).faults = (r, q, m) :: rest →
    let u := s.modDie d (fun x => { x with faults := rest })
    (r.cause = cNOTPRESENT → ∃ t : State, exec (.faultRecord d) s = .next t ∧ (t.die d).faults = rest ∧ t.tiles = s.tiles ∧ t.mem = s.mem ∧
      t.pkg = s.pkg ∧ t.regs.ringWait = s.regs.ringWait ++
        [leBytes 8 r.w0.toNat ++ leBytes 8 r.w1.toNat ++ leBytes 8 r.w2.toNat ++ leBytes 8 r.w3.toNat]) ∧
    (r.cause ≠ cNOTPRESENT → r.fromArray = true → (s.lext q).retries < (s.die d).faultCtl.toNat % 16 →
      ((s.launch q).map (fun l => l.stat) = some .running →
        exec (.faultRecord d) s = .next (recoverLaunch (u.modLext q (fun e => { e with retries := e.retries + 1 })) q (s.lext q).complete)) ∧
      ((s.launch q).map (fun l => l.stat) ≠ some .running → exec (.faultRecord d) s = .next u)) ∧
    (r.cause ≠ cNOTPRESENT → (r.fromArray = false ∨ (s.die d).faultCtl.toNat % 16 ≤ (s.lext q).retries) →
      exec (.faultRecord d) s = .next (abortLaunch u q r.cause (faultActor u r q m) r.w2))) ∧
  (∀ (s : State) (d x : Nat) (rest : List Nat), (s.die d).runs = true → (s.die d).fatal = x :: rest →
    exec (.faultRecord d) s = .next (quarantineTile (s.modDie d (fun y => { y with fatal := rest })) x)) ∧
  (∀ (s : State) (d : Nat), (s.die d).runs = true → (s.die d).fatal = [] → (s.die d).faults = [] →
    (sharedLaunches s = [] → remoteMembers s = [] → exec (.faultRecord d) s = .next s) ∧
    ∃ (t : State) (u : State), exec (.faultRecord d) s = .next t ∧ u = { s with draws := u.draws } ∧
      (t = u ∨ (∃ q ∈ sharedLaunches s, ∃ cause a v, t = abortLaunch u q cause a v) ∨ ∃ x ∈ remoteMembers s, ∃ b, t = remoteMember u x.1 x.2 b)) ∧
  (∀ (s : State) (i m : Nat) (g : Grp), mapGet none s.pkg.groups i = some g →
    mapGet none (remoteMember s i m false).pkg.groups i = some ({ g with arrived := m :: g.arrived }.settle (s.stamp + 1)) ∧
    mapGet none (remoteMember s i m true).pkg.groups i = some (g.memberEnds m (s.stamp + 1))) ∧
  (∀ (s : State) (q cause a : Nat) (v : DWord) (l : Launch), s.launch q = some l → l.stat = .running →
    ∃ l', (abortLaunch s q cause a v).launch q = some l' ∧ l'.stat = .aborted ∧
      (abortLaunch s q cause a v).isComplete q = true) ∧
  (∀ (s : State) (bs : List Byte) (rest : List (List Byte)), s.regs.ringWait = bs :: rest →
    (ringRoom s.regs = true → ∃ t : State, exec .faultRingWrite s = .next t ∧ t.regs.ringWait = rest ∧ t.regs.ftail = s.regs.ftail + 1 ∧
      t.regs.msix = 1 :: s.regs.msix ∧ t.pkg = s.pkg ∧ ∀ j, j < bs.length →
        t.homeByte (bitsOf s.regs.fbase.toNat 51 12 * 2 ^ 12 + 32 * (s.regs.ftail.toNat % 2 ^ (s.regs.fbase.toNat % 32)) + j) = bs.getD j 0) ∧
    (ringRoom s.regs = false → ∃ t : State, exec .faultRingWrite s = .next t ∧ t.regs = { s.regs with err := s.regs.err ||| 2 } ∧ t.mem = s.mem ∧
      t.pkg = s.pkg)) ∧
  (∀ (s : State) (t : Nat), ∃ u : State, exec (.tileQuarantine t) s = .next u ∧ u = quarantineTile s t ∧ mapGet false u.pkg.quarantined t = true ∧
    t ∉ u.pkg.returning) ∧
  (∀ (s : State) (t : Nat), mapGet false s.pkg.quarantined t = true → t ∉ s.pkg.returning →
    (∃ u : State, exec (.tileReturn t) s = .next u ∧ u.pkg = { s.pkg with returning := s.pkg.returning ++ [t] } ∧ u.mem = s.mem) ∧
    (armedInj s (t / 512) 0x07 (t % 512) 1 = none → ∃ u : State, exec (.tileReturn t) s = .next u ∧ u.dies = s.dies ∧
      ∀ x, u.tile x = if x = t then { (s.tile t).leaveMonitor with tables := 0 } else s.tile x)) ∧
  (∀ (s : State) (d : Nat), d < 24 → (∃ t : State, exec (.dieReset d) s = .next t ∧ exec (.thermalTrip d) s = .next t ∧ t = resetDie s d ∧
      t.pkg.dieMask = s.pkg.dieMask &&& ~~~(BitVec.twoPow 24 d) ∧ (t.die d).managed = false ∧
      t.pkg.round = s.pkg.round.map (fun r => { r with verdicts := [], dies := t.pkg.dieMask, out := t.pkg.quarantined })) ∧
    (2 ≤ s.regs.stage → (s.die d).link.lost = false → ¬((s.die d).managed = true ∧ s.pkg.dieMask.getLsbD d = true) →
      let v := (s.modDie d (fun x => { x with managed := true, holdings := x.ckpt })).modPkg (fun p =>
        { p with dieMask := p.dieMask ||| BitVec.twoPow 24 d })
      exec (.dieRejoin d) s = .next (if s.pkg.round.any (fun r => r.dies.getLsbD d) then repeatRound (resumeAccepted v d) else resumeAccepted v d)) ∧
    ((s.die d).managed = true → s.pkg.dieMask.getLsbD d = true → exec (.dieRejoin d) s = .next s)) ∧
  (∀ (s : State) (d : Nat),
    (∀ q ∈ boundLaunches s, launchOn s q (fun t => t / 512 == d) = true → (s.launch q).map (fun l => l.stat) = some .running → s.isComplete q = true) →
    let u := resumeAccepted s d
    let taken := fun (n : Nat) => s.isComplete n = true ∨ ∃ l ∈ s.pkg.launches, l.2.isSome = true ∧
      (l.1 = n ∨ (∃ r ∈ (s.lext l.1).reqs, r.seq = n) ∨ ∃ p ∈ (s.lext l.1).preempt, p.1 = n)
    u = s.modPkg (fun p => { p with jnext := u.pkg.jnext }) ∧
    (s.dieList.head? ≠ some d ∨ s.pkg.round ≠ none → u = s) ∧
    (s.dieList.head? = some d → s.pkg.round = none → s.jdone ≤ s.pkg.jnext →
      s.jdone ≤ u.pkg.jnext ∧ u.pkg.jnext ≤ s.pkg.jnext ∧ (∀ n, s.jdone ≤ n → n < u.pkg.jnext → taken n) ∧
      (u.pkg.jnext < s.pkg.jnext → ¬ taken u.pkg.jnext))) ∧
  (∀ (s : State) (k : Nat), k < 48 → ∃ t : State, exec (.stackFault k) s = .next t ∧ (t.stack k).poisoned = true ∧ (t.stack k).clean = [] ∧
    ∀ a, a < 3 * 2 ^ 40 → stackOf a = k → t.poisonAt a = true) ∧
  (∀ (s : State) (d : Nat), (s.die d).managed = true → ∃ t : State, exec (.watchdogExpiry d) s = .next t ∧ (t.die d).managed = false ∧
    (t.die d).wdogResets = min ((s.die d).wdogResets + 1) 65535 ∧ (t.die d).faults = (s.die d).faults ∧
    (t.die d).sram = [] ∧ (t.die d).holdings = Holdings.empty ∧ t.pkg = s.pkg ∧ t.tiles = s.tiles) ∧
  (∀ (s : State) (d : Nat) (v : DWord), d < 24 →
    (∃ t : State, exec (.dieWdog d v) s = .next t ∧ (t.die d).wdogKick = v.setWidth 32 ∧ t.tiles = s.tiles ∧ t.mem = s.mem ∧ t.pkg = s.pkg) ∧
    (∃ t : State, exec (.dieErrinj d v) s = .next t ∧ (t.die d).errInj = v ∧ t.tiles = s.tiles ∧ t.mem = s.mem ∧ t.pkg = s.pkg)) ∧
  (∀ (s : State) (d n : Nat), d < 24 → (s.die d).runs = true → ∃ t : State, exec (.clockControlTick d n) s = .next t ∧ t.tiles = s.tiles ∧
    t.mem = s.mem ∧ (s.regs.stage < 5 → (t.die d).cur = 17) ∧
    (5 ≤ s.regs.stage → 17 ≤ (t.die d).cur ∧ (t.die d).cur ≤ 34 ∧ (17 ≤ n → (t.die d).cur ≤ n) ∧
      (17 ≤ (s.die d).ceil → (t.die d).cur ≤ (s.die d).ceil) ∧ (17 ≤ s.pkg.ceiling → (t.die d).cur ≤ s.pkg.ceiling)))

/-- (What the model chooses here stands in log entries 106, 107, 110 to 113 and 142 to 145.) A module reset leaves every register at its reset value, the stage at 0, and host memory as the host's writes left it. Each stage that passes its checks is complete: 1
where the vendor's key and every image's signature hold (their layouts: log entry 145), with the configuration record in force and the images measured, 2 with every die managed and active, 3 with the failing tiles quarantined, the tile monitor running on a core meanwhile, or where a tile stands between two tasks, 4 with the last of the 48 stacks trained, 5 with the
links trained, 6 with lock; a failure halts bring-up with its code. Before stage 2 the status registers alone are offered. A write of 1 to HOST_ATTC makes a request pending, or sets its error bit where one is; the report over the nonce answers
it. A doorbell exposes entries within the ring's size and shows the writes of its link; one beyond it is an error. The rings' base registers take an address, and a size
where it may change. A host window access writes or reads HBM through an enabled window, and one outside it sets the link's error status (log
entry 143). A register write stores its value where it may: the package's,
the host's and the firmware's; a read returns it, through a link behind the link's writes; a link's time measurement sets the package time. -/
def Obligations.BringUpAndHost : Prop :=
  (∀ (s : State), ∃ t : State, exec .moduleReset s = .next t ∧ t.regs.stage = 0 ∧ t.tiles = State.reset.tiles ∧ t.pkg = State.reset.pkg ∧
    t.net = State.reset.net ∧ t.hbm = State.reset.hbm ∧ t.dies = State.reset.dies ∧ t.regs = State.reset.regs ∧ t.mem = hostMemory s) ∧
  (∀ (s : State) (b : BootFlash) (v m p c : Nat) (bad : List Nat), s.regs.stage = 0 → s.pkg.halted = false →
    (bootSigned b = true ↔ sha512 (beBytes 512 b.keyMod ++ leBytes 4 b.keyExp) = beBytes 64 b.romHash.toNat ∧ b.images ≠ [] ∧
      ∀ i ∈ b.images, pssVerify b.keyMod b.keyExp i.bytes i.sig = true) ∧
    (bootSigned b = true → m ≤ v → ∃ t : State, exec (.rootOfTrustCheck b v m p c bad) s = .next t ∧ t.regs.stage = 1 ∧ t.pkg.num = p % 64 ∧
      t.pkg.ceiling = c ∧ t.pkg.badTiles = bad ∧ t.pkg.minVersion = m ∧ t.tiles = s.tiles ∧ t.mem = s.mem ∧
      t.regs.measured = b.images.map (fun i => BitVec.ofNat 512 (beNat (sha512 i.bytes))) ∧ (t.regs.idExp, t.regs.idMod) = Config.identityKey b.seed) ∧
    (bootSigned b = false → ∃ t : State, exec (.rootOfTrustCheck b v m p c bad) s = .next t ∧ t.regs.stage = 0 ∧ t.regs.stageErr = 1 ∧
      t.pkg.halted = true) ∧
    (bootSigned b = true → v < m → ∃ t : State, exec (.rootOfTrustCheck b v m p c bad) s = .next t ∧ t.regs.stage = 0 ∧ t.regs.stageErr = 2 ∧
      t.pkg.halted = true)) ∧
  (∀ (s : State), s.regs.stage = 1 → s.pkg.halted = false → ∃ t : State, exec (.dieManagerStart true) s = .next t ∧ t.regs.stage = 2 ∧
    t.pkg.dieMask = 0xFFFFFF ∧ (∀ d, d < 24 → (t.die d).managed = true) ∧ t.tiles = s.tiles ∧ t.mem = s.mem) ∧
  (∀ (s : State) (failed : List Nat), s.regs.stage = 2 → s.pkg.halted = false →
    (∃ t : State, exec (.tileSelfTest (.ended true) failed) s = .next t ∧ t.regs.stage = 3 ∧
      (∀ x, x ∈ failed ∨ x ∈ s.pkg.badTiles → mapGet false t.pkg.quarantined x = true)) ∧
    (∃ t : State, exec (.tileSelfTest (.ended false) failed) s = .next t ∧ t.regs.stage = 2 ∧ t.regs.stageErr = 3 ∧ t.pkg.halted = true) ∧
    (∀ x c off, c < 3 → (s.tile x).resident = none → ∃ t : State, exec (.tileSelfTest (.monitor x c off) failed) s = .next t ∧
      ((t.tile x).core c).machine = true ∧ ((t.tile x).core c).stat = .run ∧
      ((t.tile x).core c).pc = BitVec.ofNat 64 (0x2000000000000000 + off) ∧ t.regs = s.regs ∧ t.mem = s.mem ∧ t.pkg = s.pkg)) ∧
  (∀ (s : State) (failed : List Nat) (x c off : Nat), betweenTasks s x = true → c < 3 → (s.tile x).resident = none →
    ∃ t : State, exec (.tileSelfTest (.monitor x c off) failed) s = .next t ∧ ((t.tile x).core c).machine = true ∧
      ((t.tile x).core c).stat = .run ∧ ((t.tile x).core c).pc = BitVec.ofNat 64 (0x2000000000000000 + off) ∧ t.pkg = s.pkg) ∧
  (∀ (s : State) (k : Nat), s.regs.stage = 3 → s.pkg.halted = false → k < 48 →
    (∃ t : State, exec (.hbmTraining k true) s = .next t ∧ (t.stack k).trained = true ∧ t.mem = s.mem ∧ t.tiles = s.tiles ∧
      ((∀ j, j < 48 → j ≠ k → (s.stack j).trained = true) → t.regs.stage = 4) ∧
      ((∃ j, j < 48 ∧ j ≠ k ∧ (s.stack j).trained = false) → t.regs.stage = 3)) ∧
    (∃ t : State, exec (.hbmTraining k false) s = .next t ∧ t.regs.stage = 3 ∧ t.regs.stageErr = 4 ∧ t.pkg.halted = true)) ∧
  (∀ (s : State), s.regs.stage = 4 → s.pkg.halted = false →
    (exec (.substrateLinkTraining true) s = .next (s.modRegs (fun r => { r with stage := 5 }))) ∧
    (∃ t : State, exec (.substrateLinkTraining false) s = .next t ∧ t.regs.stage = 4 ∧ t.regs.stageErr = 5 ∧ t.pkg.halted = true)) ∧
  (∀ (s : State) (slot ports : Nat), s.regs.stage = 5 → s.pkg.halted = false → ports % 256 = 0 → ∃ t : State,
    exec (.orreryLock slot ports) s = .next t ∧ t.regs.stage = 5 ∧ t.regs.stageErr = 6 ∧ t.pkg.halted = true ∧ t.net = s.net) ∧
  (∀ (s : State) (v : DWord), s.regs.stage < 2 → exec (.attestationRequest v) s = .next s ∧ exec (.hostJdb v) s = .next s ∧
    exec (.hostJbase v) s = .next s ∧ exec (.hostFbase v) s = .next s) ∧
  (∀ (s : State) (v : DWord), 2 ≤ s.regs.stage →
    (v.getLsbD 0 = false → exec (.attestationRequest v) s = .next (s.modRegs (fun r => { r with attc := false }))) ∧
    (v.getLsbD 0 = true → s.regs.attc = false → exec (.attestationRequest v) s = .next (s.modRegs (fun r => { r with attc := true }))) ∧
    (v.getLsbD 0 = true → s.regs.attc = true → exec (.attestationRequest v) s = .next (s.modRegs (fun r => { r with err := r.err ||| 8 })))) ∧
  (∀ (s : State) (bs : List Byte), s.regs.attc = true → reportOk s.regs bs = true →
    exec (.attestationReport bs) s = .next (s.modRegs (fun r => { r with attr := bs, attc := false }))) ∧
  (∀ (r : HostRegs) (bs : List Byte), let n := r.measured.length
    reportOk r bs = true ↔ 1 ≤ n ∧ n ≤ 16 ∧ bs.length = 0x430 + 64 * n ∧
      bs.take (0x230 + 64 * n) = leBytes 4 (0x430 + 64 * n) ++ leBytes 4 n ++ ((List.range 4).map (fun i => leBytes 8 (mapGet 0 r.attn i).toNat)).flatten ++
        leBytes 4 r.idExp ++ leBytes 4 0 ++ beBytes 512 r.idMod ++ r.measured.flatMap (fun h => beBytes 64 h.toNat) ∧
      pssVerify r.idMod r.idExp (bs.take (0x230 + 64 * n)) (bs.drop (0x230 + 64 * n)) = true) ∧
  (∀ (s : State) (v : DWord), 2 ≤ s.regs.stage →
    (v.toNat ≤ 2 ^ (s.regs.jbase.toNat % 32) + s.jdone → s.regs.jdb.toNat < v.toNat → ∃ t : State, exec (.hostJdb v) s = .next t ∧ t.regs.jdb = v ∧
      t.pkg.doorbells = s.pkg.doorbells ++ [v.toNat] ∧ t.regs.err = s.regs.err ∧ t.tiles = s.tiles ∧ ∀ a, t.homeByte a = s.homeByte a) ∧
    (2 ^ (s.regs.jbase.toNat % 32) + s.jdone < v.toNat → ∃ t : State, exec (.hostJdb v) s = .next t ∧ t.regs.jdb = s.regs.jdb ∧
      t.regs.err = s.regs.err ||| 1 ∧ t.pkg = s.pkg)) ∧
  (∀ (s : State) (v : DWord), 2 ≤ s.regs.stage →
    (s.regs.jdb = 0 → s.jdone = 0 → 4 ≤ v.toNat % 32 → v.toNat % 32 ≤ 16 → ∃ t : State, exec (.hostJbase v) s = .next t ∧
      t.regs.jbase.toNat % 32 = v.toNat % 32 ∧ bitsOf t.regs.jbase.toNat 51 12 = bitsOf v.toNat 51 12 ∧ t.regs.err = s.regs.err) ∧
    (s.regs.jdb ≠ 0 → v.toNat % 32 ≠ s.regs.jbase.toNat % 32 → ∃ t : State, exec (.hostJbase v) s = .next t ∧
      t.regs.jbase.toNat % 32 = s.regs.jbase.toNat % 32 ∧ bitsOf t.regs.jbase.toNat 51 12 = bitsOf v.toNat 51 12 ∧ t.regs.err = s.regs.err ||| 4) ∧
    (s.regs.ftail = s.regs.fhead → 4 ≤ v.toNat % 32 → v.toNat % 32 ≤ 16 → ∃ t : State, exec (.hostFbase v) s = .next t ∧
      t.regs.fbase.toNat % 32 = v.toNat % 32 ∧ bitsOf t.regs.fbase.toNat 51 12 = bitsOf v.toNat 51 12 ∧ t.regs.err = s.regs.err)) ∧
  (∀ (s : State) (link off a len : Nat) (bs : List Byte),
    (windowAddr s link off bs.length = some a → ∃ t : State, exec (.hostWindowAccess link off (some bs) len) s = .next t ∧ t.regs = s.regs ∧
      t.tiles = s.tiles ∧ (∀ j, j < bs.length → t.homeByte (a + j) = bs.getD j 0) ∧
      ∀ x, x < a ∨ a + bs.length ≤ x → t.homeByte x = s.homeByte x) ∧
    (windowAddr s link off len = some a → ∃ t : State, exec (.hostWindowAccess link off none len) s = .next t ∧ t.tiles = s.tiles ∧
      (∀ x, t.homeByte x = s.homeByte x) ∧ t.writes = (showHost s link).writes ∧
      t.regs = { s.regs with winData := some ((showHost s link).bytesAt (.host link) a len) }) ∧
    ((∀ w ∈ s.writes, w.writer = .host link) → ∀ o x, (showHost s link).byteAt o x = s.homeByte x) ∧
    (windowAddr s link off bs.length = none → ∃ t : State, exec (.hostWindowAccess link off (some bs) len) s = .next t ∧
      t = { s with regs := { s.regs with aer := t.regs.aer } } ∧ (mapGet 0 t.regs.aer link).getLsbD 20 = true ∧
      ∀ k, k ≠ link → mapGet 0 t.regs.aer k = mapGet 0 s.regs.aer k) ∧
    (windowAddr s link off len = none → ∃ t : State, exec (.hostWindowAccess link off none len) s = .next t ∧ t.regs.winData = none ∧
      (mapGet 0 t.regs.aer link).getLsbD 20 = true ∧ t.tiles = s.tiles ∧ ∀ x, t.homeByte x = s.homeByte x)) ∧
  (∀ (s : State) (v : DWord) (l : Nat) (w : RegAgent), 2 ≤ s.regs.stage → l < 2 → (w = .host l ∨ ∃ d, d < 24 ∧ w = .firmware d) →
    (∃ t : State, exec (.registerWrite w 0x10000 8 v) s = .next t ∧ t.regs.ctxTable = v &&& 0x000FFFFFFFFFF001 ∧ t.pkg = s.pkg ∧ t.mem = s.mem) ∧
    (∃ t : State, exec (.registerWrite w 0x10010 4 v) s = .next t ∧ t.regs.invqTail = v.setWidth 8 ∧ t.pkg = s.pkg ∧ t.mem = s.mem) ∧
    (∃ t : State, exec (.registerWrite w 0x10110 8 v) s = .next t ∧ t.net.relay = v &&& 0x000FFFFFC000000F ∧ t.pkg = s.pkg ∧ t.mem = s.mem) ∧
    exec (.registerWrite w 0x10004 8 v) s = .next s ∧
    ∀ d, d < 24 → (∃ t : State, exec (.registerWrite w (0x100000 + d * 2 ^ 16) 8 v) s = .next t ∧ (t.die d).swapCtl = v &&& 0xFFFFFF ∧ t.pkg = s.pkg) ∧
      (w = .host l → exec (.registerWrite w (0x100000 + d * 2 ^ 16 + 8) 8 v) s = .next s) ∧
      (w ≠ .host l → ∃ t : State, exec (.registerWrite w (0x100000 + d * 2 ^ 16 + 8) 8 v) s = .next t ∧
        (t.die d).ctxfPool = v &&& 0xFFFFFFFFFFF00000)) ∧
  (∀ (s : State) (v : DWord) (l : Nat), l < 2 →
    (2 ≤ s.regs.stage → ∃ t : State, exec (.registerWrite (.hostRead l) 0x10000 8 v) s = .next t ∧ t.regs = { s.regs with regData := s.regs.ctxTable } ∧
      t.writes = (showHost s l).writes ∧ ∀ a, t.homeByte a = s.homeByte a) ∧
    (∃ t : State, exec (.registerWrite (.hostRead l) 0x148 4 v) s = .next t ∧
      t.regs = { s.regs with regData := (BitVec.ofNat 64 (s.regs.stageErr * 2 ^ 8 + s.regs.stage) : DWord) &&& 0xFFFFFFFF }) ∧
    (∀ d, d < 24 → 2 ≤ s.regs.stage → exec (.registerWrite (.firmwareRead d) 0x10038 8 v) s = .next (s.modRegs (fun r => { r with regData := r.plxHash }))) ∧
    exec (.registerWrite (.host l) 0x1A4 4 v) s = .next s ∧
    exec (.registerWrite (.time l) 0 8 v) s = .next { s with time := v.toNat } ∧
    (s.regs.stage < 2 → exec (.registerWrite (.host l) 0x10000 8 v) s = .next s))
end

