-- ==== Sys2Proof/Laws/Crypto.lean ====
section
/-! SUPPORT. Laws/Crypto.lean: bytes of numbers most significant first, and the lengths of what SHA-512 and the mask generation give. -/

namespace Sys2Proof.Machine

/-- A number's low bytes are as many as are asked for. -/
theorem leBytes_length (n x : Nat) : (leBytes n x).length = n := by
  induction n generalizing x with
  | zero => rfl
  | succ n ih => simp [leBytes, ih]
/-- The bytes of the number that a list stands for are that list. -/
theorem leBytes_leNat (l : List Byte) : leBytes l.length (leNat l) = l := by
  induction l with
  | nil => rfl
  | cons b r ih =>
    have h : (b.toNat + 256 * leNat r) / 256 = leNat r := by have := b.isLt; omega
    simp only [List.length_cons, leBytes, leNat, h, ih, List.cons.injEq, and_true]
    apply BitVec.eq_of_toNat_eq
    have := b.isLt
    simp only [BitVec.toNat_ofNat]; omega
/-- A list of n bytes stands for a number below 256^n. -/
theorem leNat_lt (l : List Byte) : leNat l < 256 ^ l.length := by
  induction l with
  | nil => simp [leNat]
  | cons b r ih => have := b.isLt; simp only [leNat, List.length_cons, Nat.pow_succ]; omega
/-- A further byte is the most significant one. -/
theorem leNat_snoc (l : List Byte) (b : Byte) : leNat (l ++ [b]) = leNat l + 256 ^ l.length * b.toNat := by
  induction l with
  | nil => simp [leNat]
  | cons c l ih => rw [List.cons_append, leNat, leNat, ih, List.length_cons, Nat.pow_succ, Nat.mul_add, Nat.add_assoc]; congr 2; rw [← Nat.mul_assoc, Nat.mul_comm 256]
/-- The same with the most significant byte first. -/
theorem beBytes_beNat (n : Nat) (l : List Byte) (h : l.length = n) : beBytes n (beNat l) = l := by
  subst h
  simpa [beBytes, beNat] using congrArg List.reverse (leBytes_leNat l.reverse)
/-- The rounds of a block keep eight working variables. -/
theorem rounds_length (ks : List DWord) (r : ShaRuns) (h : r.upper.length = 4 ∧ r.lower.length = 4) :
    (ks.foldl ShaRuns.round r).upper.length = 4 ∧ (ks.foldl ShaRuns.round r).lower.length = 4 := by
  induction ks generalizing r with
  | nil => exact h
  | cons k ks ih => exact ih _ (by simp [ShaRuns.round]; omega)
/-- A block keeps eight chaining words. -/
theorem shaBlock_length (h : List DWord) (b : List Byte) (n : h.length = 8) : (shaBlock h b).length = 8 := by
  have := rounds_length (List.zipWith (· + ·) shaConstants (shaSchedule ((List.range 16).map (fun i =>
    BitVec.ofNat 64 (leNat (((b.drop (8 * i)).take 8).reverse)))))) ⟨h.take 4, h.drop 4⟩ (by simp [n])
  simp only [shaBlock, List.length_zipWith, List.length_append, this.1, this.2, n]
  rfl
theorem words_length (ws : List DWord) : (ws.flatMap (fun w => (leBytes 8 w.toNat).reverse)).length = 8 * ws.length := by
  induction ws with
  | nil => rfl
  | cons w ws ih => simp only [List.flatMap_cons, List.length_append, List.length_reverse, leBytes_length, ih, List.length_cons]; omega
/-- SHA-512 gives 64 bytes. -/
theorem sha512_length (m : List Byte) : (sha512 m).length = 64 := by
  have go : ∀ (is : List Nat) (h : List DWord) (bs : List Byte), h.length = 8 →
      (is.foldl (fun h i => shaBlock h ((bs.drop (128 * i)).take 128)) h).length = 8 := by
    intro is
    induction is with
    | nil => exact fun _ _ h => h
    | cons i is ih => exact fun h bs n => ih _ bs (shaBlock_length h _ n)
  rw [sha512, words_length, shaDigest, go _ _ _ (by decide +kernel)]
/-- The mask is as long as is asked for. -/
theorem mgf1_length (s : List Byte) : (mgf1 s 447).length = 447 := by
  have : ∀ l : List Nat, (l.flatMap (fun i => sha512 (s ++ beBytes 4 i))).length = 64 * l.length := by
    intro l
    induction l with
    | nil => rfl
    | cons i l ih => simp only [List.flatMap_cons, List.length_append, sha512_length, ih, List.length_cons]; omega
  rw [mgf1, List.length_take, this, List.length_range]; rfl
/-- A mask put on twice is taken off. -/
theorem xor_cancel (a b : List Byte) (h : a.length = b.length) : List.zipWith (· ^^^ ·) (List.zipWith (· ^^^ ·) a b) b = a := by
  induction a generalizing b with
  | nil => simp
  | cons x a ih => cases b with
    | nil => simp at h
    | cons y b => simp at h; simp [BitVec.xor_assoc, ih b h]

end Sys2Proof.Machine
end

