-- ==== Sys2Proof/Laws/Maps.lean ====
section
/-! SUPPORT. Laws/Maps.lean: a read after a write of a sparse map, and that a write keeps its canonical form. The read laws
hold of any list; only the last two ask for the canonical form. -/

namespace Sys2Proof.Machine

variable {α : Type}

@[simp] theorem mapGet_nil (d : α) (a : Nat) : mapGet d [] a = d := rfl

theorem mapGet_mapInsert_same (d : α) (m : List (Nat × α)) (a : Nat) (v : α) : mapGet d (mapInsert m a v) a = v := by
  induction m with
  | nil => simp [mapInsert, mapGet]
  | cons p r ih =>
    obtain ⟨k, w⟩ := p
    simp only [mapInsert]
    split
    · simp [mapGet]
    · split
      · simp [mapGet]
      · next h => simp [mapGet, h, ih]

theorem mapGet_mapInsert_ne (d : α) (m : List (Nat × α)) {a b : Nat} (v : α) (h : b ≠ a) :
    mapGet d (mapInsert m a v) b = mapGet d m b := by
  induction m with
  | nil => simp [mapInsert, mapGet, h]
  | cons p r ih =>
    obtain ⟨k, w⟩ := p
    simp only [mapInsert]
    split
    · simp [mapGet, h]
    · split
      · next hk => subst hk; simp [mapGet, h]
      · simp [mapGet, ih]

theorem mapGet_filter_same (d : α) (m : List (Nat × α)) (a : Nat) : mapGet d (m.filter (fun p => p.1 != a)) a = d := by
  induction m with
  | nil => rfl
  | cons p r ih =>
    obtain ⟨k, w⟩ := p
    by_cases hk : k = a
    · simp [hk, ih]
    · simp [hk, mapGet, ih, Ne.symm hk]

theorem mapGet_filter_ne (d : α) (m : List (Nat × α)) {a b : Nat} (h : b ≠ a) :
    mapGet d (m.filter (fun p => p.1 != a)) b = mapGet d m b := by
  induction m with
  | nil => rfl
  | cons p r ih =>
    obtain ⟨k, w⟩ := p
    by_cases hk : k = a
    · subst hk; simp [mapGet, ih, h]
    · simp [hk, mapGet, ih]

variable [DecidableEq α]

/-- A read after a write to the same key gives the value written. -/
@[simp] theorem mapGet_mapSet_same (d : α) (m : List (Nat × α)) (a : Nat) (v : α) : mapGet d (mapSet d m a v) a = v := by
  unfold mapSet
  split
  · next h => rw [mapGet_filter_same, h]
  · exact mapGet_mapInsert_same d m a v

/-- A write leaves every other key alone. -/
theorem mapGet_mapSet_ne (d : α) (m : List (Nat × α)) {a b : Nat} (v : α) (h : b ≠ a) :
    mapGet d (mapSet d m a v) b = mapGet d m b := by
  unfold mapSet
  split
  · exact mapGet_filter_ne d m h
  · exact mapGet_mapInsert_ne d m v h

theorem mapGet_mapSet (d : α) (m : List (Nat × α)) (a b : Nat) (v : α) :
    mapGet d (mapSet d m a v) b = if b = a then v else mapGet d m b := by
  split
  · next h => subst h; exact mapGet_mapSet_same d m _ v
  · next h => exact mapGet_mapSet_ne d m v h

theorem mapWfFrom_mono {d : α} {m : List (Nat × α)} {i j : Nat} (h : i ≤ j) (w : mapWfFrom d j m = true) :
    mapWfFrom d i m = true := by
  cases m with
  | nil => rfl
  | cons p r =>
    obtain ⟨k, v⟩ := p
    simp only [mapWfFrom, Bool.and_eq_true, decide_eq_true_eq] at w ⊢
    exact ⟨⟨Nat.le_trans h w.1.1, w.1.2⟩, w.2⟩

theorem mapWfFrom_insert {d : α} {m : List (Nat × α)} {i a : Nat} {v : α} (hv : v ≠ d) (hi : i ≤ a)
    (w : mapWfFrom d i m = true) : mapWfFrom d i (mapInsert m a v) = true := by
  induction m generalizing i with
  | nil => simp [mapInsert, mapWfFrom, hi, hv]
  | cons p r ih =>
    obtain ⟨k, x⟩ := p
    simp only [mapWfFrom, Bool.and_eq_true, decide_eq_true_eq] at w
    simp only [mapInsert]
    split
    · next h => simp [mapWfFrom, hi, hv, w.1.2, w.2, Nat.succ_le_of_lt h]
    · split
      · next h => subst h; simp [mapWfFrom, hi, hv, w.2]
      · next h1 h2 =>
        simp only [mapWfFrom, Bool.and_eq_true, decide_eq_true_eq]
        exact ⟨w.1, ih (by omega) w.2⟩

theorem mapWfFrom_filter {d : α} {m : List (Nat × α)} {i : Nat} (q : Nat × α → Bool) (w : mapWfFrom d i m = true) :
    mapWfFrom d i (m.filter q) = true := by
  induction m generalizing i with
  | nil => rfl
  | cons p r ih =>
    obtain ⟨k, x⟩ := p
    simp only [mapWfFrom, Bool.and_eq_true, decide_eq_true_eq] at w
    by_cases hq : q (k, x) = true
    · simp only [List.filter_cons, hq, if_true, mapWfFrom, Bool.and_eq_true, decide_eq_true_eq]
      exact ⟨w.1, ih w.2⟩
    · simp only [List.filter_cons, hq]
      exact ih (mapWfFrom_mono (Nat.le_succ_of_le w.1.1) w.2)

/-- A write keeps the canonical form. -/
theorem mapWf_mapSet {d : α} {m : List (Nat × α)} (a : Nat) (v : α) (w : mapWf d m = true) : mapWf d (mapSet d m a v) = true := by
  unfold mapSet
  split
  · exact mapWfFrom_filter _ w
  · next h => exact mapWfFrom_insert h (Nat.zero_le a) w

/-- Dropping entries keeps the canonical form. -/
theorem mapWf_filter {d : α} {m : List (Nat × α)} (q : Nat × α → Bool) (w : mapWf d m = true) : mapWf d (m.filter q) = true :=
  mapWfFrom_filter q w

end Sys2Proof.Machine
end

