-- ==== Sys2Proof/Laws/State.lean ====
section
/-! SUPPORT. Laws/State.lean: what each update of the state, of a tile and of a core does to each of their fields, one lemma per
field per update, all by rfl. -/

namespace Sys2Proof.Machine

variable (s : State)

/-! ### State.setTile -/
@[simp] theorem State.setTile_mem (t : Nat) (v : Tile) : (s.setTile t v).mem = s.mem := rfl
@[simp] theorem State.setTile_poison (t : Nat) (v : Tile) : (s.setTile t v).poison = s.poison := rfl
@[simp] theorem State.setTile_flips (t : Nat) (v : Tile) : (s.setTile t v).flips = s.flips := rfl
@[simp] theorem State.setTile_writes (t : Nat) (v : Tile) : (s.setTile t v).writes = s.writes := rfl
@[simp] theorem State.setTile_tiles (t : Nat) (v : Tile) : (s.setTile t v).tiles = mapSet Tile.reset s.tiles t v := rfl
@[simp] theorem State.setTile_msgs (t : Nat) (v : Tile) : (s.setTile t v).msgs = s.msgs := rfl
@[simp] theorem State.setTile_dies (t : Nat) (v : Tile) : (s.setTile t v).dies = s.dies := rfl
@[simp] theorem State.setTile_hbm (t : Nat) (v : Tile) : (s.setTile t v).hbm = s.hbm := rfl
@[simp] theorem State.setTile_pkg (t : Nat) (v : Tile) : (s.setTile t v).pkg = s.pkg := rfl
@[simp] theorem State.setTile_net (t : Nat) (v : Tile) : (s.setTile t v).net = s.net := rfl
@[simp] theorem State.setTile_regs (t : Nat) (v : Tile) : (s.setTile t v).regs = s.regs := rfl
@[simp] theorem State.setTile_time (t : Nat) (v : Tile) : (s.setTile t v).time = s.time := rfl
@[simp] theorem State.setTile_stamp (t : Nat) (v : Tile) : (s.setTile t v).stamp = s.stamp := rfl
@[simp] theorem State.setTile_draws (t : Nat) (v : Tile) : (s.setTile t v).draws = s.draws := rfl
@[simp] theorem State.setTile_agenda (t : Nat) (v : Tile) : (s.setTile t v).agenda = s.agenda := rfl
@[simp] theorem State.setTile_focus (t : Nat) (v : Tile) : (s.setTile t v).focus = s.focus := rfl

/-! ### State.modTile -/
@[simp] theorem State.modTile_mem (t : Nat) (f : Tile → Tile) : (s.modTile t f).mem = s.mem := rfl
@[simp] theorem State.modTile_poison (t : Nat) (f : Tile → Tile) : (s.modTile t f).poison = s.poison := rfl
@[simp] theorem State.modTile_flips (t : Nat) (f : Tile → Tile) : (s.modTile t f).flips = s.flips := rfl
@[simp] theorem State.modTile_writes (t : Nat) (f : Tile → Tile) : (s.modTile t f).writes = s.writes := rfl
@[simp] theorem State.modTile_tiles (t : Nat) (f : Tile → Tile) : (s.modTile t f).tiles = mapSet Tile.reset s.tiles t (f (s.tile t)) := rfl
@[simp] theorem State.modTile_msgs (t : Nat) (f : Tile → Tile) : (s.modTile t f).msgs = s.msgs := rfl
@[simp] theorem State.modTile_dies (t : Nat) (f : Tile → Tile) : (s.modTile t f).dies = s.dies := rfl
@[simp] theorem State.modTile_hbm (t : Nat) (f : Tile → Tile) : (s.modTile t f).hbm = s.hbm := rfl
@[simp] theorem State.modTile_pkg (t : Nat) (f : Tile → Tile) : (s.modTile t f).pkg = s.pkg := rfl
@[simp] theorem State.modTile_net (t : Nat) (f : Tile → Tile) : (s.modTile t f).net = s.net := rfl
@[simp] theorem State.modTile_regs (t : Nat) (f : Tile → Tile) : (s.modTile t f).regs = s.regs := rfl
@[simp] theorem State.modTile_time (t : Nat) (f : Tile → Tile) : (s.modTile t f).time = s.time := rfl
@[simp] theorem State.modTile_stamp (t : Nat) (f : Tile → Tile) : (s.modTile t f).stamp = s.stamp := rfl
@[simp] theorem State.modTile_draws (t : Nat) (f : Tile → Tile) : (s.modTile t f).draws = s.draws := rfl
@[simp] theorem State.modTile_agenda (t : Nat) (f : Tile → Tile) : (s.modTile t f).agenda = s.agenda := rfl
@[simp] theorem State.modTile_focus (t : Nat) (f : Tile → Tile) : (s.modTile t f).focus = s.focus := rfl

/-! ### State.modDie -/
@[simp] theorem State.modDie_mem (d : Nat) (f : Die → Die) : (s.modDie d f).mem = s.mem := rfl
@[simp] theorem State.modDie_poison (d : Nat) (f : Die → Die) : (s.modDie d f).poison = s.poison := rfl
@[simp] theorem State.modDie_flips (d : Nat) (f : Die → Die) : (s.modDie d f).flips = s.flips := rfl
@[simp] theorem State.modDie_writes (d : Nat) (f : Die → Die) : (s.modDie d f).writes = s.writes := rfl
@[simp] theorem State.modDie_tiles (d : Nat) (f : Die → Die) : (s.modDie d f).tiles = s.tiles := rfl
@[simp] theorem State.modDie_msgs (d : Nat) (f : Die → Die) : (s.modDie d f).msgs = s.msgs := rfl
@[simp] theorem State.modDie_dies (d : Nat) (f : Die → Die) : (s.modDie d f).dies = mapSet Die.reset s.dies d (f (s.die d)) := rfl
@[simp] theorem State.modDie_hbm (d : Nat) (f : Die → Die) : (s.modDie d f).hbm = s.hbm := rfl
@[simp] theorem State.modDie_pkg (d : Nat) (f : Die → Die) : (s.modDie d f).pkg = s.pkg := rfl
@[simp] theorem State.modDie_net (d : Nat) (f : Die → Die) : (s.modDie d f).net = s.net := rfl
@[simp] theorem State.modDie_regs (d : Nat) (f : Die → Die) : (s.modDie d f).regs = s.regs := rfl
@[simp] theorem State.modDie_time (d : Nat) (f : Die → Die) : (s.modDie d f).time = s.time := rfl
@[simp] theorem State.modDie_stamp (d : Nat) (f : Die → Die) : (s.modDie d f).stamp = s.stamp := rfl
@[simp] theorem State.modDie_draws (d : Nat) (f : Die → Die) : (s.modDie d f).draws = s.draws := rfl
@[simp] theorem State.modDie_agenda (d : Nat) (f : Die → Die) : (s.modDie d f).agenda = s.agenda := rfl
@[simp] theorem State.modDie_focus (d : Nat) (f : Die → Die) : (s.modDie d f).focus = s.focus := rfl

/-! ### State.modStack -/
@[simp] theorem State.modStack_mem (k : Nat) (f : Stack → Stack) : (s.modStack k f).mem = s.mem := rfl
@[simp] theorem State.modStack_poison (k : Nat) (f : Stack → Stack) : (s.modStack k f).poison = s.poison := rfl
@[simp] theorem State.modStack_flips (k : Nat) (f : Stack → Stack) : (s.modStack k f).flips = s.flips := rfl
@[simp] theorem State.modStack_writes (k : Nat) (f : Stack → Stack) : (s.modStack k f).writes = s.writes := rfl
@[simp] theorem State.modStack_tiles (k : Nat) (f : Stack → Stack) : (s.modStack k f).tiles = s.tiles := rfl
@[simp] theorem State.modStack_msgs (k : Nat) (f : Stack → Stack) : (s.modStack k f).msgs = s.msgs := rfl
@[simp] theorem State.modStack_dies (k : Nat) (f : Stack → Stack) : (s.modStack k f).dies = s.dies := rfl
@[simp] theorem State.modStack_hbm (k : Nat) (f : Stack → Stack) : (s.modStack k f).hbm = mapSet Stack.reset s.hbm k (f (s.stack k)) := rfl
@[simp] theorem State.modStack_pkg (k : Nat) (f : Stack → Stack) : (s.modStack k f).pkg = s.pkg := rfl
@[simp] theorem State.modStack_net (k : Nat) (f : Stack → Stack) : (s.modStack k f).net = s.net := rfl
@[simp] theorem State.modStack_regs (k : Nat) (f : Stack → Stack) : (s.modStack k f).regs = s.regs := rfl
@[simp] theorem State.modStack_time (k : Nat) (f : Stack → Stack) : (s.modStack k f).time = s.time := rfl
@[simp] theorem State.modStack_stamp (k : Nat) (f : Stack → Stack) : (s.modStack k f).stamp = s.stamp := rfl
@[simp] theorem State.modStack_draws (k : Nat) (f : Stack → Stack) : (s.modStack k f).draws = s.draws := rfl
@[simp] theorem State.modStack_agenda (k : Nat) (f : Stack → Stack) : (s.modStack k f).agenda = s.agenda := rfl
@[simp] theorem State.modStack_focus (k : Nat) (f : Stack → Stack) : (s.modStack k f).focus = s.focus := rfl

/-! ### State.modPkg -/
@[simp] theorem State.modPkg_mem (f : Pkg → Pkg) : (s.modPkg f).mem = s.mem := rfl
@[simp] theorem State.modPkg_poison (f : Pkg → Pkg) : (s.modPkg f).poison = s.poison := rfl
@[simp] theorem State.modPkg_flips (f : Pkg → Pkg) : (s.modPkg f).flips = s.flips := rfl
@[simp] theorem State.modPkg_writes (f : Pkg → Pkg) : (s.modPkg f).writes = s.writes := rfl
@[simp] theorem State.modPkg_tiles (f : Pkg → Pkg) : (s.modPkg f).tiles = s.tiles := rfl
@[simp] theorem State.modPkg_msgs (f : Pkg → Pkg) : (s.modPkg f).msgs = s.msgs := rfl
@[simp] theorem State.modPkg_dies (f : Pkg → Pkg) : (s.modPkg f).dies = s.dies := rfl
@[simp] theorem State.modPkg_hbm (f : Pkg → Pkg) : (s.modPkg f).hbm = s.hbm := rfl
@[simp] theorem State.modPkg_pkg (f : Pkg → Pkg) : (s.modPkg f).pkg = f s.pkg := rfl
@[simp] theorem State.modPkg_net (f : Pkg → Pkg) : (s.modPkg f).net = s.net := rfl
@[simp] theorem State.modPkg_regs (f : Pkg → Pkg) : (s.modPkg f).regs = s.regs := rfl
@[simp] theorem State.modPkg_time (f : Pkg → Pkg) : (s.modPkg f).time = s.time := rfl
@[simp] theorem State.modPkg_stamp (f : Pkg → Pkg) : (s.modPkg f).stamp = s.stamp := rfl
@[simp] theorem State.modPkg_draws (f : Pkg → Pkg) : (s.modPkg f).draws = s.draws := rfl
@[simp] theorem State.modPkg_agenda (f : Pkg → Pkg) : (s.modPkg f).agenda = s.agenda := rfl
@[simp] theorem State.modPkg_focus (f : Pkg → Pkg) : (s.modPkg f).focus = s.focus := rfl

/-! ### State.modNet -/
@[simp] theorem State.modNet_mem (f : Net → Net) : (s.modNet f).mem = s.mem := rfl
@[simp] theorem State.modNet_poison (f : Net → Net) : (s.modNet f).poison = s.poison := rfl
@[simp] theorem State.modNet_flips (f : Net → Net) : (s.modNet f).flips = s.flips := rfl
@[simp] theorem State.modNet_writes (f : Net → Net) : (s.modNet f).writes = s.writes := rfl
@[simp] theorem State.modNet_tiles (f : Net → Net) : (s.modNet f).tiles = s.tiles := rfl
@[simp] theorem State.modNet_msgs (f : Net → Net) : (s.modNet f).msgs = s.msgs := rfl
@[simp] theorem State.modNet_dies (f : Net → Net) : (s.modNet f).dies = s.dies := rfl
@[simp] theorem State.modNet_hbm (f : Net → Net) : (s.modNet f).hbm = s.hbm := rfl
@[simp] theorem State.modNet_pkg (f : Net → Net) : (s.modNet f).pkg = s.pkg := rfl
@[simp] theorem State.modNet_net (f : Net → Net) : (s.modNet f).net = f s.net := rfl
@[simp] theorem State.modNet_regs (f : Net → Net) : (s.modNet f).regs = s.regs := rfl
@[simp] theorem State.modNet_time (f : Net → Net) : (s.modNet f).time = s.time := rfl
@[simp] theorem State.modNet_stamp (f : Net → Net) : (s.modNet f).stamp = s.stamp := rfl
@[simp] theorem State.modNet_draws (f : Net → Net) : (s.modNet f).draws = s.draws := rfl
@[simp] theorem State.modNet_agenda (f : Net → Net) : (s.modNet f).agenda = s.agenda := rfl
@[simp] theorem State.modNet_focus (f : Net → Net) : (s.modNet f).focus = s.focus := rfl

/-! ### State.modRegs -/
@[simp] theorem State.modRegs_mem (f : HostRegs → HostRegs) : (s.modRegs f).mem = s.mem := rfl
@[simp] theorem State.modRegs_poison (f : HostRegs → HostRegs) : (s.modRegs f).poison = s.poison := rfl
@[simp] theorem State.modRegs_flips (f : HostRegs → HostRegs) : (s.modRegs f).flips = s.flips := rfl
@[simp] theorem State.modRegs_writes (f : HostRegs → HostRegs) : (s.modRegs f).writes = s.writes := rfl
@[simp] theorem State.modRegs_tiles (f : HostRegs → HostRegs) : (s.modRegs f).tiles = s.tiles := rfl
@[simp] theorem State.modRegs_msgs (f : HostRegs → HostRegs) : (s.modRegs f).msgs = s.msgs := rfl
@[simp] theorem State.modRegs_dies (f : HostRegs → HostRegs) : (s.modRegs f).dies = s.dies := rfl
@[simp] theorem State.modRegs_hbm (f : HostRegs → HostRegs) : (s.modRegs f).hbm = s.hbm := rfl
@[simp] theorem State.modRegs_pkg (f : HostRegs → HostRegs) : (s.modRegs f).pkg = s.pkg := rfl
@[simp] theorem State.modRegs_net (f : HostRegs → HostRegs) : (s.modRegs f).net = s.net := rfl
@[simp] theorem State.modRegs_regs (f : HostRegs → HostRegs) : (s.modRegs f).regs = f s.regs := rfl
@[simp] theorem State.modRegs_time (f : HostRegs → HostRegs) : (s.modRegs f).time = s.time := rfl
@[simp] theorem State.modRegs_stamp (f : HostRegs → HostRegs) : (s.modRegs f).stamp = s.stamp := rfl
@[simp] theorem State.modRegs_draws (f : HostRegs → HostRegs) : (s.modRegs f).draws = s.draws := rfl
@[simp] theorem State.modRegs_agenda (f : HostRegs → HostRegs) : (s.modRegs f).agenda = s.agenda := rfl
@[simp] theorem State.modRegs_focus (f : HostRegs → HostRegs) : (s.modRegs f).focus = s.focus := rfl

/-! ### State.modTask -/
@[simp] theorem State.modTask_mem (t slot : Nat) (f : Task → Task) : (s.modTask t slot f).mem = s.mem := rfl
@[simp] theorem State.modTask_poison (t slot : Nat) (f : Task → Task) : (s.modTask t slot f).poison = s.poison := rfl
@[simp] theorem State.modTask_flips (t slot : Nat) (f : Task → Task) : (s.modTask t slot f).flips = s.flips := rfl
@[simp] theorem State.modTask_writes (t slot : Nat) (f : Task → Task) : (s.modTask t slot f).writes = s.writes := rfl
@[simp] theorem State.modTask_msgs (t slot : Nat) (f : Task → Task) : (s.modTask t slot f).msgs = s.msgs := rfl
@[simp] theorem State.modTask_dies (t slot : Nat) (f : Task → Task) : (s.modTask t slot f).dies = s.dies := rfl
@[simp] theorem State.modTask_hbm (t slot : Nat) (f : Task → Task) : (s.modTask t slot f).hbm = s.hbm := rfl
@[simp] theorem State.modTask_pkg (t slot : Nat) (f : Task → Task) : (s.modTask t slot f).pkg = s.pkg := rfl
@[simp] theorem State.modTask_net (t slot : Nat) (f : Task → Task) : (s.modTask t slot f).net = s.net := rfl
@[simp] theorem State.modTask_regs (t slot : Nat) (f : Task → Task) : (s.modTask t slot f).regs = s.regs := rfl
@[simp] theorem State.modTask_time (t slot : Nat) (f : Task → Task) : (s.modTask t slot f).time = s.time := rfl
@[simp] theorem State.modTask_stamp (t slot : Nat) (f : Task → Task) : (s.modTask t slot f).stamp = s.stamp := rfl
@[simp] theorem State.modTask_draws (t slot : Nat) (f : Task → Task) : (s.modTask t slot f).draws = s.draws := rfl
@[simp] theorem State.modTask_agenda (t slot : Nat) (f : Task → Task) : (s.modTask t slot f).agenda = s.agenda := rfl
@[simp] theorem State.modTask_focus (t slot : Nat) (f : Task → Task) : (s.modTask t slot f).focus = s.focus := rfl

/-! ### State.modExt -/
@[simp] theorem State.modExt_mem (t slot : Nat) (f : TaskExt → TaskExt) : (s.modExt t slot f).mem = s.mem := rfl
@[simp] theorem State.modExt_poison (t slot : Nat) (f : TaskExt → TaskExt) : (s.modExt t slot f).poison = s.poison := rfl
@[simp] theorem State.modExt_flips (t slot : Nat) (f : TaskExt → TaskExt) : (s.modExt t slot f).flips = s.flips := rfl
@[simp] theorem State.modExt_writes (t slot : Nat) (f : TaskExt → TaskExt) : (s.modExt t slot f).writes = s.writes := rfl
@[simp] theorem State.modExt_msgs (t slot : Nat) (f : TaskExt → TaskExt) : (s.modExt t slot f).msgs = s.msgs := rfl
@[simp] theorem State.modExt_dies (t slot : Nat) (f : TaskExt → TaskExt) : (s.modExt t slot f).dies = s.dies := rfl
@[simp] theorem State.modExt_hbm (t slot : Nat) (f : TaskExt → TaskExt) : (s.modExt t slot f).hbm = s.hbm := rfl
@[simp] theorem State.modExt_pkg (t slot : Nat) (f : TaskExt → TaskExt) : (s.modExt t slot f).pkg = s.pkg := rfl
@[simp] theorem State.modExt_net (t slot : Nat) (f : TaskExt → TaskExt) : (s.modExt t slot f).net = s.net := rfl
@[simp] theorem State.modExt_regs (t slot : Nat) (f : TaskExt → TaskExt) : (s.modExt t slot f).regs = s.regs := rfl
@[simp] theorem State.modExt_time (t slot : Nat) (f : TaskExt → TaskExt) : (s.modExt t slot f).time = s.time := rfl
@[simp] theorem State.modExt_stamp (t slot : Nat) (f : TaskExt → TaskExt) : (s.modExt t slot f).stamp = s.stamp := rfl
@[simp] theorem State.modExt_draws (t slot : Nat) (f : TaskExt → TaskExt) : (s.modExt t slot f).draws = s.draws := rfl
@[simp] theorem State.modExt_agenda (t slot : Nat) (f : TaskExt → TaskExt) : (s.modExt t slot f).agenda = s.agenda := rfl
@[simp] theorem State.modExt_focus (t slot : Nat) (f : TaskExt → TaskExt) : (s.modExt t slot f).focus = s.focus := rfl

/-! ### State.modLaunch -/
@[simp] theorem State.modLaunch_mem (q : Nat) (f : Launch → Launch) : (s.modLaunch q f).mem = s.mem := rfl
@[simp] theorem State.modLaunch_poison (q : Nat) (f : Launch → Launch) : (s.modLaunch q f).poison = s.poison := rfl
@[simp] theorem State.modLaunch_flips (q : Nat) (f : Launch → Launch) : (s.modLaunch q f).flips = s.flips := rfl
@[simp] theorem State.modLaunch_writes (q : Nat) (f : Launch → Launch) : (s.modLaunch q f).writes = s.writes := rfl
@[simp] theorem State.modLaunch_tiles (q : Nat) (f : Launch → Launch) : (s.modLaunch q f).tiles = s.tiles := rfl
@[simp] theorem State.modLaunch_msgs (q : Nat) (f : Launch → Launch) : (s.modLaunch q f).msgs = s.msgs := rfl
@[simp] theorem State.modLaunch_dies (q : Nat) (f : Launch → Launch) : (s.modLaunch q f).dies = s.dies := rfl
@[simp] theorem State.modLaunch_hbm (q : Nat) (f : Launch → Launch) : (s.modLaunch q f).hbm = s.hbm := rfl
@[simp] theorem State.modLaunch_net (q : Nat) (f : Launch → Launch) : (s.modLaunch q f).net = s.net := rfl
@[simp] theorem State.modLaunch_regs (q : Nat) (f : Launch → Launch) : (s.modLaunch q f).regs = s.regs := rfl
@[simp] theorem State.modLaunch_time (q : Nat) (f : Launch → Launch) : (s.modLaunch q f).time = s.time := rfl
@[simp] theorem State.modLaunch_stamp (q : Nat) (f : Launch → Launch) : (s.modLaunch q f).stamp = s.stamp := rfl
@[simp] theorem State.modLaunch_draws (q : Nat) (f : Launch → Launch) : (s.modLaunch q f).draws = s.draws := rfl
@[simp] theorem State.modLaunch_agenda (q : Nat) (f : Launch → Launch) : (s.modLaunch q f).agenda = s.agenda := rfl
@[simp] theorem State.modLaunch_focus (q : Nat) (f : Launch → Launch) : (s.modLaunch q f).focus = s.focus := rfl

/-! ### State.modLext -/
@[simp] theorem State.modLext_mem (q : Nat) (f : LaunchExt → LaunchExt) : (s.modLext q f).mem = s.mem := rfl
@[simp] theorem State.modLext_poison (q : Nat) (f : LaunchExt → LaunchExt) : (s.modLext q f).poison = s.poison := rfl
@[simp] theorem State.modLext_flips (q : Nat) (f : LaunchExt → LaunchExt) : (s.modLext q f).flips = s.flips := rfl
@[simp] theorem State.modLext_writes (q : Nat) (f : LaunchExt → LaunchExt) : (s.modLext q f).writes = s.writes := rfl
@[simp] theorem State.modLext_tiles (q : Nat) (f : LaunchExt → LaunchExt) : (s.modLext q f).tiles = s.tiles := rfl
@[simp] theorem State.modLext_msgs (q : Nat) (f : LaunchExt → LaunchExt) : (s.modLext q f).msgs = s.msgs := rfl
@[simp] theorem State.modLext_dies (q : Nat) (f : LaunchExt → LaunchExt) : (s.modLext q f).dies = s.dies := rfl
@[simp] theorem State.modLext_hbm (q : Nat) (f : LaunchExt → LaunchExt) : (s.modLext q f).hbm = s.hbm := rfl
@[simp] theorem State.modLext_net (q : Nat) (f : LaunchExt → LaunchExt) : (s.modLext q f).net = s.net := rfl
@[simp] theorem State.modLext_regs (q : Nat) (f : LaunchExt → LaunchExt) : (s.modLext q f).regs = s.regs := rfl
@[simp] theorem State.modLext_time (q : Nat) (f : LaunchExt → LaunchExt) : (s.modLext q f).time = s.time := rfl
@[simp] theorem State.modLext_stamp (q : Nat) (f : LaunchExt → LaunchExt) : (s.modLext q f).stamp = s.stamp := rfl
@[simp] theorem State.modLext_draws (q : Nat) (f : LaunchExt → LaunchExt) : (s.modLext q f).draws = s.draws := rfl
@[simp] theorem State.modLext_agenda (q : Nat) (f : LaunchExt → LaunchExt) : (s.modLext q f).agenda = s.agenda := rfl
@[simp] theorem State.modLext_focus (q : Nat) (f : LaunchExt → LaunchExt) : (s.modLext q f).focus = s.focus := rfl

/-! ### State.modCur -/
@[simp] theorem State.modCur_mem (f : Core → Core) : (s.modCur f).mem = s.mem := rfl
@[simp] theorem State.modCur_poison (f : Core → Core) : (s.modCur f).poison = s.poison := rfl
@[simp] theorem State.modCur_flips (f : Core → Core) : (s.modCur f).flips = s.flips := rfl
@[simp] theorem State.modCur_writes (f : Core → Core) : (s.modCur f).writes = s.writes := rfl
@[simp] theorem State.modCur_tiles (f : Core → Core) : (s.modCur f).tiles = mapSet Tile.reset s.tiles s.ft ((s.tile s.ft).modCore s.fc f) := rfl
@[simp] theorem State.modCur_msgs (f : Core → Core) : (s.modCur f).msgs = s.msgs := rfl
@[simp] theorem State.modCur_dies (f : Core → Core) : (s.modCur f).dies = s.dies := rfl
@[simp] theorem State.modCur_hbm (f : Core → Core) : (s.modCur f).hbm = s.hbm := rfl
@[simp] theorem State.modCur_pkg (f : Core → Core) : (s.modCur f).pkg = s.pkg := rfl
@[simp] theorem State.modCur_net (f : Core → Core) : (s.modCur f).net = s.net := rfl
@[simp] theorem State.modCur_regs (f : Core → Core) : (s.modCur f).regs = s.regs := rfl
@[simp] theorem State.modCur_time (f : Core → Core) : (s.modCur f).time = s.time := rfl
@[simp] theorem State.modCur_stamp (f : Core → Core) : (s.modCur f).stamp = s.stamp := rfl
@[simp] theorem State.modCur_draws (f : Core → Core) : (s.modCur f).draws = s.draws := rfl
@[simp] theorem State.modCur_agenda (f : Core → Core) : (s.modCur f).agenda = s.agenda := rfl
@[simp] theorem State.modCur_focus (f : Core → Core) : (s.modCur f).focus = s.focus := rfl

/-! ### State.wx -/
@[simp] theorem State.wx_mem (r : Reg) (v : DWord) : (s.wx r v).mem = s.mem := rfl
@[simp] theorem State.wx_poison (r : Reg) (v : DWord) : (s.wx r v).poison = s.poison := rfl
@[simp] theorem State.wx_flips (r : Reg) (v : DWord) : (s.wx r v).flips = s.flips := rfl
@[simp] theorem State.wx_writes (r : Reg) (v : DWord) : (s.wx r v).writes = s.writes := rfl
@[simp] theorem State.wx_msgs (r : Reg) (v : DWord) : (s.wx r v).msgs = s.msgs := rfl
@[simp] theorem State.wx_dies (r : Reg) (v : DWord) : (s.wx r v).dies = s.dies := rfl
@[simp] theorem State.wx_hbm (r : Reg) (v : DWord) : (s.wx r v).hbm = s.hbm := rfl
@[simp] theorem State.wx_pkg (r : Reg) (v : DWord) : (s.wx r v).pkg = s.pkg := rfl
@[simp] theorem State.wx_net (r : Reg) (v : DWord) : (s.wx r v).net = s.net := rfl
@[simp] theorem State.wx_regs (r : Reg) (v : DWord) : (s.wx r v).regs = s.regs := rfl
@[simp] theorem State.wx_time (r : Reg) (v : DWord) : (s.wx r v).time = s.time := rfl
@[simp] theorem State.wx_stamp (r : Reg) (v : DWord) : (s.wx r v).stamp = s.stamp := rfl
@[simp] theorem State.wx_draws (r : Reg) (v : DWord) : (s.wx r v).draws = s.draws := rfl
@[simp] theorem State.wx_agenda (r : Reg) (v : DWord) : (s.wx r v).agenda = s.agenda := rfl
@[simp] theorem State.wx_focus (r : Reg) (v : DWord) : (s.wx r v).focus = s.focus := rfl

/-! ### State.draw, State.settle -/
@[simp] theorem State.draw_mem : s.draw.2.mem = s.mem := rfl
@[simp] theorem State.draw_poison : s.draw.2.poison = s.poison := rfl
@[simp] theorem State.draw_flips : s.draw.2.flips = s.flips := rfl
@[simp] theorem State.draw_writes : s.draw.2.writes = s.writes := rfl
@[simp] theorem State.draw_tiles : s.draw.2.tiles = s.tiles := rfl
@[simp] theorem State.draw_msgs : s.draw.2.msgs = s.msgs := rfl
@[simp] theorem State.draw_dies : s.draw.2.dies = s.dies := rfl
@[simp] theorem State.draw_hbm : s.draw.2.hbm = s.hbm := rfl
@[simp] theorem State.draw_pkg : s.draw.2.pkg = s.pkg := rfl
@[simp] theorem State.draw_net : s.draw.2.net = s.net := rfl
@[simp] theorem State.draw_regs : s.draw.2.regs = s.regs := rfl
@[simp] theorem State.draw_time : s.draw.2.time = s.time := rfl
@[simp] theorem State.draw_stamp : s.draw.2.stamp = s.stamp := rfl
@[simp] theorem State.draw_agenda : s.draw.2.agenda = s.agenda := rfl
@[simp] theorem State.draw_focus : s.draw.2.focus = s.focus := rfl
@[simp] theorem State.draw_draws : s.draw.2.draws = s.draws + 1 := rfl
@[simp] theorem State.settle_poison : s.settle.poison = s.poison := rfl
@[simp] theorem State.settle_flips : s.settle.flips = s.flips := rfl
@[simp] theorem State.settle_tiles : s.settle.tiles = s.tiles := rfl
@[simp] theorem State.settle_msgs : s.settle.msgs = s.msgs := rfl
@[simp] theorem State.settle_dies : s.settle.dies = s.dies := rfl
@[simp] theorem State.settle_hbm : s.settle.hbm = s.hbm := rfl
@[simp] theorem State.settle_pkg : s.settle.pkg = s.pkg := rfl
@[simp] theorem State.settle_net : s.settle.net = s.net := rfl
@[simp] theorem State.settle_regs : s.settle.regs = s.regs := rfl
@[simp] theorem State.settle_time : s.settle.time = s.time := rfl
@[simp] theorem State.settle_stamp : s.settle.stamp = s.stamp := rfl
@[simp] theorem State.settle_draws : s.settle.draws = s.draws := rfl
@[simp] theorem State.settle_agenda : s.settle.agenda = s.agenda := rfl
@[simp] theorem State.settle_focus : s.settle.focus = s.focus := rfl

/-! ### Core.advance, Core.jumpTo -/
variable (k : Core)
@[simp] theorem Core.advance_x : k.advance.x = k.x := rfl
@[simp] theorem Core.advance_pc : k.advance.pc = k.pc + BitVec.ofNat 64 k.ilen := rfl
@[simp] theorem Core.advance_stat : k.advance.stat = k.stat := rfl
@[simp] theorem Core.advance_blocked : k.advance.blocked = false := rfl
@[simp] theorem Core.advance_waited : k.advance.waited = 0 := rfl
@[simp] theorem Core.advance_held : k.advance.held = k.held := rfl
@[simp] theorem Core.advance_imem : k.advance.imem = k.imem := rfl
@[simp] theorem Core.advance_imap : k.advance.imap = k.imap := rfl
@[simp] theorem Core.advance_dmem : k.advance.dmem = k.dmem := rfl
@[simp] theorem Core.advance_dpoison : k.advance.dpoison = k.dpoison := rfl
@[simp] theorem Core.advance_ipoison : k.advance.ipoison = k.ipoison := rfl
@[simp] theorem Core.advance_out : k.advance.out = k.out := rfl
@[simp] theorem Core.advance_instret : k.advance.instret = k.instret + 1 := rfl
@[simp] theorem Core.advance_machine : k.advance.machine = k.machine := rfl
@[simp] theorem Core.advance_mcsr : k.advance.mcsr = k.mcsr := rfl
@[simp] theorem Core.advance_iword : k.advance.iword = k.iword := rfl
@[simp] theorem Core.advance_ilen : k.advance.ilen = k.ilen := rfl
@[simp] theorem Core.jumpTo_x (a : DWord) : (k.jumpTo a).x = k.x := rfl
@[simp] theorem Core.jumpTo_pc (a : DWord) : (k.jumpTo a).pc = a := rfl
@[simp] theorem Core.jumpTo_stat (a : DWord) : (k.jumpTo a).stat = k.stat := rfl
@[simp] theorem Core.jumpTo_blocked (a : DWord) : (k.jumpTo a).blocked = false := rfl
@[simp] theorem Core.jumpTo_waited (a : DWord) : (k.jumpTo a).waited = 0 := rfl
@[simp] theorem Core.jumpTo_held (a : DWord) : (k.jumpTo a).held = k.held := rfl
@[simp] theorem Core.jumpTo_imem (a : DWord) : (k.jumpTo a).imem = k.imem := rfl
@[simp] theorem Core.jumpTo_imap (a : DWord) : (k.jumpTo a).imap = k.imap := rfl
@[simp] theorem Core.jumpTo_dmem (a : DWord) : (k.jumpTo a).dmem = k.dmem := rfl
@[simp] theorem Core.jumpTo_dpoison (a : DWord) : (k.jumpTo a).dpoison = k.dpoison := rfl
@[simp] theorem Core.jumpTo_ipoison (a : DWord) : (k.jumpTo a).ipoison = k.ipoison := rfl
@[simp] theorem Core.jumpTo_out (a : DWord) : (k.jumpTo a).out = k.out := rfl
@[simp] theorem Core.jumpTo_instret (a : DWord) : (k.jumpTo a).instret = k.instret + 1 := rfl
@[simp] theorem Core.jumpTo_machine (a : DWord) : (k.jumpTo a).machine = k.machine := rfl
@[simp] theorem Core.jumpTo_mcsr (a : DWord) : (k.jumpTo a).mcsr = k.mcsr := rfl
@[simp] theorem Core.jumpTo_iword (a : DWord) : (k.jumpTo a).iword = k.iword := rfl
@[simp] theorem Core.jumpTo_ilen (a : DWord) : (k.jumpTo a).ilen = k.ilen := rfl

/-! ### Core.wx -/
@[simp] theorem Core.wx_pc (r : Reg) (v : DWord) : (k.wx r v).pc = k.pc := by unfold Core.wx; split <;> rfl
@[simp] theorem Core.wx_stat (r : Reg) (v : DWord) : (k.wx r v).stat = k.stat := by unfold Core.wx; split <;> rfl
@[simp] theorem Core.wx_blocked (r : Reg) (v : DWord) : (k.wx r v).blocked = k.blocked := by unfold Core.wx; split <;> rfl
@[simp] theorem Core.wx_waited (r : Reg) (v : DWord) : (k.wx r v).waited = k.waited := by unfold Core.wx; split <;> rfl
@[simp] theorem Core.wx_held (r : Reg) (v : DWord) : (k.wx r v).held = k.held := by unfold Core.wx; split <;> rfl
@[simp] theorem Core.wx_imem (r : Reg) (v : DWord) : (k.wx r v).imem = k.imem := by unfold Core.wx; split <;> rfl
@[simp] theorem Core.wx_imap (r : Reg) (v : DWord) : (k.wx r v).imap = k.imap := by unfold Core.wx; split <;> rfl
@[simp] theorem Core.wx_dmem (r : Reg) (v : DWord) : (k.wx r v).dmem = k.dmem := by unfold Core.wx; split <;> rfl
@[simp] theorem Core.wx_dpoison (r : Reg) (v : DWord) : (k.wx r v).dpoison = k.dpoison := by unfold Core.wx; split <;> rfl
@[simp] theorem Core.wx_ipoison (r : Reg) (v : DWord) : (k.wx r v).ipoison = k.ipoison := by unfold Core.wx; split <;> rfl
@[simp] theorem Core.wx_out (r : Reg) (v : DWord) : (k.wx r v).out = k.out := by unfold Core.wx; split <;> rfl
@[simp] theorem Core.wx_instret (r : Reg) (v : DWord) : (k.wx r v).instret = k.instret := by unfold Core.wx; split <;> rfl
@[simp] theorem Core.wx_machine (r : Reg) (v : DWord) : (k.wx r v).machine = k.machine := by unfold Core.wx; split <;> rfl
@[simp] theorem Core.wx_mcsr (r : Reg) (v : DWord) : (k.wx r v).mcsr = k.mcsr := by unfold Core.wx; split <;> rfl
@[simp] theorem Core.wx_iword (r : Reg) (v : DWord) : (k.wx r v).iword = k.iword := by unfold Core.wx; split <;> rfl
@[simp] theorem Core.wx_ilen (r : Reg) (v : DWord) : (k.wx r v).ilen = k.ilen := by unfold Core.wx; split <;> rfl

/-! ### Tile.setCore, Tile.modCore, Tile.setWin, Tile.setPort -/
variable (v : Tile)
@[simp] theorem Tile.setCore_csr (c : Nat) (k : Core) : (v.setCore c k).csr = v.csr := by unfold Tile.setCore; split; rfl; split <;> rfl
@[simp] theorem Tile.modCore_csr (c : Nat) (g : Core → Core) : (v.modCore c g).csr = v.csr := by simp [Tile.modCore]
@[simp] theorem Tile.setCore_fabric (c : Nat) (k : Core) : (v.setCore c k).fabric = v.fabric := by unfold Tile.setCore; split; rfl; split <;> rfl
@[simp] theorem Tile.modCore_fabric (c : Nat) (g : Core → Core) : (v.modCore c g).fabric = v.fabric := by simp [Tile.modCore]
@[simp] theorem Tile.setCore_mx (c : Nat) (k : Core) : (v.setCore c k).mx = v.mx := by unfold Tile.setCore; split; rfl; split <;> rfl
@[simp] theorem Tile.modCore_mx (c : Nat) (g : Core → Core) : (v.modCore c g).mx = v.mx := by simp [Tile.modCore]
@[simp] theorem Tile.setCore_acc (c : Nat) (k : Core) : (v.setCore c k).acc = v.acc := by unfold Tile.setCore; split; rfl; split <;> rfl
@[simp] theorem Tile.setCore_accPoison (c : Nat) (k : Core) : (v.setCore c k).accPoison = v.accPoison := by unfold Tile.setCore; split; rfl; split <;> rfl
@[simp] theorem Tile.setCore_tables (c : Nat) (k : Core) : (v.setCore c k).tables = v.tables := by unfold Tile.setCore; split; rfl; split <;> rfl
@[simp] theorem Tile.modCore_acc (c : Nat) (g : Core → Core) : (v.modCore c g).acc = v.acc := by simp [Tile.modCore]
@[simp] theorem Tile.modCore_accPoison (c : Nat) (g : Core → Core) : (v.modCore c g).accPoison = v.accPoison := by simp [Tile.modCore]
@[simp] theorem Tile.modCore_tables (c : Nat) (g : Core → Core) : (v.modCore c g).tables = v.tables := by simp [Tile.modCore]
@[simp] theorem Tile.setCore_resident (c : Nat) (k : Core) : (v.setCore c k).resident = v.resident := by unfold Tile.setCore; split; rfl; split <;> rfl
@[simp] theorem Tile.modCore_resident (c : Nat) (g : Core → Core) : (v.modCore c g).resident = v.resident := by simp [Tile.modCore]
@[simp] theorem Tile.setCore_traps (c : Nat) (k : Core) : (v.setCore c k).traps = v.traps := by unfold Tile.setCore; split; rfl; split <;> rfl
@[simp] theorem Tile.modCore_traps (c : Nat) (g : Core → Core) : (v.modCore c g).traps = v.traps := by simp [Tile.modCore]
@[simp] theorem Tile.setCore_tasks (c : Nat) (k : Core) : (v.setCore c k).tasks = v.tasks := by unfold Tile.setCore; split; rfl; split <;> rfl
@[simp] theorem Tile.modCore_tasks (c : Nat) (g : Core → Core) : (v.modCore c g).tasks = v.tasks := by simp [Tile.modCore]
@[simp] theorem Tile.setCore_exts (c : Nat) (k : Core) : (v.setCore c k).exts = v.exts := by unfold Tile.setCore; split; rfl; split <;> rfl
@[simp] theorem Tile.modCore_exts (c : Nat) (g : Core → Core) : (v.modCore c g).exts = v.exts := by simp [Tile.modCore]
@[simp] theorem Tile.setCore_wins (c : Nat) (k : Core) : (v.setCore c k).wins = v.wins := by unfold Tile.setCore; split; rfl; split <;> rfl
@[simp] theorem Tile.modCore_wins (c : Nat) (g : Core → Core) : (v.modCore c g).wins = v.wins := by simp [Tile.modCore]
@[simp] theorem Tile.setCore_prods (c : Nat) (k : Core) : (v.setCore c k).prods = v.prods := by unfold Tile.setCore; split; rfl; split <;> rfl
@[simp] theorem Tile.modCore_prods (c : Nat) (g : Core → Core) : (v.modCore c g).prods = v.prods := by simp [Tile.modCore]
@[simp] theorem Tile.setCore_copies (c : Nat) (k : Core) : (v.setCore c k).copies = v.copies := by unfold Tile.setCore; split; rfl; split <;> rfl
@[simp] theorem Tile.modCore_copies (c : Nat) (g : Core → Core) : (v.modCore c g).copies = v.copies := by simp [Tile.modCore]
@[simp] theorem Tile.setCore_memHeld (c : Nat) (k : Core) : (v.setCore c k).memHeld = v.memHeld := by unfold Tile.setCore; split; rfl; split <;> rfl
@[simp] theorem Tile.modCore_memHeld (c : Nat) (g : Core → Core) : (v.modCore c g).memHeld = v.memHeld := by simp [Tile.modCore]
@[simp] theorem Tile.setCore_tags (c : Nat) (k : Core) : (v.setCore c k).tags = v.tags := by unfold Tile.setCore; split; rfl; split <;> rfl
@[simp] theorem Tile.modCore_tags (c : Nat) (g : Core → Core) : (v.modCore c g).tags = v.tags := by simp [Tile.modCore]
@[simp] theorem Tile.setCore_events (c : Nat) (k : Core) : (v.setCore c k).events = v.events := by unfold Tile.setCore; split; rfl; split <;> rfl
@[simp] theorem Tile.modCore_events (c : Nat) (g : Core → Core) : (v.modCore c g).events = v.events := by simp [Tile.modCore]
@[simp] theorem Tile.setCore_pending (c : Nat) (k : Core) : (v.setCore c k).pending = v.pending := by unfold Tile.setCore; split; rfl; split <;> rfl
@[simp] theorem Tile.modCore_pending (c : Nat) (g : Core → Core) : (v.modCore c g).pending = v.pending := by simp [Tile.modCore]
@[simp] theorem Tile.setCore_cycle (c : Nat) (k : Core) : (v.setCore c k).cycle = v.cycle := by unfold Tile.setCore; split; rfl; split <;> rfl
@[simp] theorem Tile.modCore_cycle (c : Nat) (g : Core → Core) : (v.modCore c g).cycle = v.cycle := by simp [Tile.modCore]
@[simp] theorem Tile.setWin_ctl (w : Nat) (x : Option Window) : (v.setWin w x).ctl = v.ctl := rfl
@[simp] theorem Tile.setPort_ctl (p : Nat) (x : Port) : (v.setPort p x).ctl = v.ctl := rfl
@[simp] theorem Tile.setWin_ldr (w : Nat) (x : Option Window) : (v.setWin w x).ldr = v.ldr := rfl
@[simp] theorem Tile.setPort_ldr (p : Nat) (x : Port) : (v.setPort p x).ldr = v.ldr := rfl
@[simp] theorem Tile.setWin_sto (w : Nat) (x : Option Window) : (v.setWin w x).sto = v.sto := rfl
@[simp] theorem Tile.setPort_sto (p : Nat) (x : Port) : (v.setPort p x).sto = v.sto := rfl
@[simp] theorem Tile.setWin_csr (w : Nat) (x : Option Window) : (v.setWin w x).csr = v.csr := rfl
@[simp] theorem Tile.setPort_csr (p : Nat) (x : Port) : (v.setPort p x).csr = v.csr := rfl
@[simp] theorem Tile.setWin_fabric (w : Nat) (x : Option Window) : (v.setWin w x).fabric = v.fabric := rfl
@[simp] theorem Tile.setWin_mx (w : Nat) (x : Option Window) : (v.setWin w x).mx = v.mx := rfl
@[simp] theorem Tile.setPort_mx (p : Nat) (x : Port) : (v.setPort p x).mx = v.mx := rfl
@[simp] theorem Tile.setWin_acc (w : Nat) (x : Option Window) : (v.setWin w x).acc = v.acc := rfl
@[simp] theorem Tile.setWin_accPoison (w : Nat) (x : Option Window) : (v.setWin w x).accPoison = v.accPoison := rfl
@[simp] theorem Tile.setWin_tables (w : Nat) (x : Option Window) : (v.setWin w x).tables = v.tables := rfl
@[simp] theorem Tile.setPort_acc (p : Nat) (x : Port) : (v.setPort p x).acc = v.acc := rfl
@[simp] theorem Tile.setPort_accPoison (p : Nat) (x : Port) : (v.setPort p x).accPoison = v.accPoison := rfl
@[simp] theorem Tile.setPort_tables (p : Nat) (x : Port) : (v.setPort p x).tables = v.tables := rfl
@[simp] theorem Tile.setWin_resident (w : Nat) (x : Option Window) : (v.setWin w x).resident = v.resident := rfl
@[simp] theorem Tile.setPort_resident (p : Nat) (x : Port) : (v.setPort p x).resident = v.resident := rfl
@[simp] theorem Tile.setWin_traps (w : Nat) (x : Option Window) : (v.setWin w x).traps = v.traps := rfl
@[simp] theorem Tile.setPort_traps (p : Nat) (x : Port) : (v.setPort p x).traps = v.traps := rfl
@[simp] theorem Tile.setWin_tasks (w : Nat) (x : Option Window) : (v.setWin w x).tasks = v.tasks := rfl
@[simp] theorem Tile.setPort_tasks (p : Nat) (x : Port) : (v.setPort p x).tasks = v.tasks := rfl
@[simp] theorem Tile.setWin_exts (w : Nat) (x : Option Window) : (v.setWin w x).exts = v.exts := rfl
@[simp] theorem Tile.setPort_exts (p : Nat) (x : Port) : (v.setPort p x).exts = v.exts := rfl
@[simp] theorem Tile.setWin_wins (w : Nat) (x : Option Window) : (v.setWin w x).wins = mapSet none v.wins w x := rfl
@[simp] theorem Tile.setPort_wins (p : Nat) (x : Port) : (v.setPort p x).wins = v.wins := rfl
@[simp] theorem Tile.setWin_prods (w : Nat) (x : Option Window) : (v.setWin w x).prods = v.prods := rfl
@[simp] theorem Tile.setPort_prods (p : Nat) (x : Port) : (v.setPort p x).prods = v.prods := rfl
@[simp] theorem Tile.setWin_copies (w : Nat) (x : Option Window) : (v.setWin w x).copies = v.copies := rfl
@[simp] theorem Tile.setPort_copies (p : Nat) (x : Port) : (v.setPort p x).copies = v.copies := rfl
@[simp] theorem Tile.setWin_memHeld (w : Nat) (x : Option Window) : (v.setWin w x).memHeld = v.memHeld := rfl
@[simp] theorem Tile.setPort_memHeld (p : Nat) (x : Port) : (v.setPort p x).memHeld = v.memHeld := rfl
@[simp] theorem Tile.setWin_tags (w : Nat) (x : Option Window) : (v.setWin w x).tags = v.tags := rfl
@[simp] theorem Tile.setPort_tags (p : Nat) (x : Port) : (v.setPort p x).tags = v.tags := rfl
@[simp] theorem Tile.setWin_events (w : Nat) (x : Option Window) : (v.setWin w x).events = v.events := rfl
@[simp] theorem Tile.setPort_events (p : Nat) (x : Port) : (v.setPort p x).events = v.events := rfl
@[simp] theorem Tile.setWin_pending (w : Nat) (x : Option Window) : (v.setWin w x).pending = v.pending := rfl
@[simp] theorem Tile.setPort_pending (p : Nat) (x : Port) : (v.setPort p x).pending = v.pending := rfl
@[simp] theorem Tile.setWin_cycle (w : Nat) (x : Option Window) : (v.setWin w x).cycle = v.cycle := rfl
@[simp] theorem Tile.setPort_cycle (p : Nat) (x : Port) : (v.setPort p x).cycle = v.cycle := rfl

end Sys2Proof.Machine
end

