-- ==== Sys2Proof/Laws/Mem.lean ====
section
/-! SUPPORT. Laws/Mem.lean: every memory operation keeps the canonical form of memory, and what a write of bytes changes. -/

namespace Sys2Proof.Machine

/-! ## The canonical form -/

theorem Memory.wf_nil : Memory.wf [] = true := rfl

theorem Memory.wf_putBytes {m : List (Nat × Byte)} (a : Nat) (bs : List Byte) (w : Memory.wf m = true) :
    Memory.wf (putBytes m a bs) = true := by
  induction bs generalizing m a with
  | nil => exact w
  | cons b r ih => exact ih (a + 1) (mapWf_mapSet a b w)

theorem Memory.wf_retireWrites {m : List (Nat × Byte)} (ws : List PWrite) (w : Memory.wf m = true) :
    Memory.wf (retireWrites m ws).1 = true := by
  induction ws generalizing m with
  | nil => exact w
  | cons x r ih =>
    simp only [retireWrites]
    split
    · exact ih (Memory.wf_putBytes _ _ w)
    · exact w

theorem State.wf_settle {s : State} (w : Memory.wf s.mem = true) : Memory.wf s.settle.mem = true :=
  Memory.wf_retireWrites s.writes w

@[simp] theorem State.logError_mem (s : State) (d : Nat) (e : ErrEnt) : (s.logError d e).mem = s.mem := rfl
@[simp] theorem useInj_mem (s : State) (d array flips a unit ctx : Nat) : (useInj s d array flips a unit ctx).mem = s.mem := rfl
@[simp] theorem useInj_writes (s : State) (d array flips a unit ctx : Nat) : (useInj s d array flips a unit ctx).writes = s.writes := rfl
@[simp] theorem strike_mem (s : State) (d array unit ctx off n : Nat) : (strike s d array unit ctx off n).2.mem = s.mem := by
  unfold strike
  split <;> rfl
@[simp] theorem State.clearFlips_mem (s : State) (a n : Nat) : (s.clearFlips a n).mem = s.mem := rfl
@[simp] theorem State.clearFlips_writes (s : State) (a n : Nat) : (s.clearFlips a n).writes = s.writes := rfl

@[simp] theorem State.setPoison_mem (s : State) (w : Nat) (v : Bool) : (s.setPoison w v).mem = s.mem := by
  unfold State.setPoison
  dsimp only
  split
  · split <;> rfl
  · rfl

@[simp] theorem State.setPoison_writes (s : State) (w : Nat) (v : Bool) : (s.setPoison w v).writes = s.writes := by
  unfold State.setPoison
  dsimp only
  split
  · split <;> rfl
  · rfl

theorem State.mergePoison_keeps {β : Type} (p : State → β) (hp : ∀ s w v, p (State.setPoison s w v) = p s)
    (s : State) (a n : Nat) (v : Bool) : p (s.mergePoison a n v) = p s := by
  unfold State.mergePoison
  generalize protWords a n = l
  induction l generalizing s with
  | nil => rfl
  | cons w r ih => simp only [List.foldl_cons]; rw [ih, hp]

@[simp] theorem State.mergePoison_mem (s : State) (a n : Nat) (v : Bool) : (s.mergePoison a n v).mem = s.mem :=
  State.mergePoison_keeps (·.mem) (fun s w v => State.setPoison_mem s w v) s a n v

@[simp] theorem State.mergePoison_writes (s : State) (a n : Nat) (v : Bool) : (s.mergePoison a n v).writes = s.writes :=
  State.mergePoison_keeps (·.writes) (fun s w v => State.setPoison_writes s w v) s a n v

@[simp] theorem State.inject_mem (s : State) (a n ctx : Nat) : (s.inject a n ctx).mem = s.mem := by
  unfold State.inject
  split
  · rfl
  · split
    · rfl
    · dsimp only; split <;> simp

/-! ## What a write leaves alone -/

@[simp] theorem State.logMerge_mem (s : State) (a n ctx : Nat) : (s.logMerge a n ctx).mem = s.mem := by
  unfold State.logMerge
  generalize protWords a n = l
  induction l generalizing s with
  | nil => rfl
  | cons w r ih => rw [List.foldl_cons, ih]; split; rfl; split <;> rfl

@[simp] theorem State.logMerge_writes (s : State) (a n ctx : Nat) : (s.logMerge a n ctx).writes = s.writes := by
  unfold State.logMerge
  generalize protWords a n = l
  induction l generalizing s with
  | nil => rfl
  | cons w r ih => rw [List.foldl_cons, ih]; split; rfl; split <;> rfl

@[simp] theorem State.inject_writes (s : State) (a n ctx : Nat) : (s.inject a n ctx).writes = s.writes := by
  unfold State.inject
  split
  · rfl
  · split
    · rfl
    · dsimp only; split <;> simp

@[simp] theorem placeWrite_mem (s : State) (w : PWrite) : (placeWrite s w).mem = s.mem := by
  unfold placeWrite
  dsimp only
  split <;> rfl

/-- A write that no pending store can follow comes last in the coherence order (R384). -/
theorem placeWrite_last (s : State) (w : PWrite) (h : ∀ x ∈ s.writes, x.unseen w = false) :
    placeWrite s w = { s with writes := s.writes ++ [w] } := by
  have h : ∀ x ∈ s.writes.reverse.takeWhile (fun x => !x.touches w.addr w.bytes.length || x.unseen w),
      ¬x.touches w.addr w.bytes.length = true := by
    intro x hx
    have h1 := h x (List.mem_reverse.mp ((List.takeWhile_sublist _).subset hx))
    have h2 := List.all_eq_true.mp List.all_takeWhile x hx
    simpa [h1] using h2
  unfold placeWrite
  dsimp only
  rw [if_neg]
  simpa only [List.any_eq_true, not_exists, not_and] using h

/-- A write that reaches an observer at once is never before another one. -/
theorem PWrite.unseen_reached (x : PWrite) {w : PWrite} (h : w.reach ≠ []) : x.unseen w = false := by
  cases hw : w.reach with
  | nil => exact absurd hw h
  | cons r rs => simp [PWrite.unseen, hw]

@[simp] theorem State.strike_mem (s : State) (p : PWrite → Bool) : (s.strike p).mem = s.mem := rfl

theorem State.wf_addWrite {s : State} (x : PWrite) (p : Bool) (w : Memory.wf s.mem = true) :
    Memory.wf (s.addWrite x p).mem = true := by
  unfold State.addWrite
  split
  · exact w
  · rw [State.inject_mem]
    exact State.wf_settle (by simpa using w)

theorem State.wf_addData {s : State} (x : PWrite) (bs : List (Byte × Bool)) (w : Memory.wf s.mem = true) :
    Memory.wf (s.addData x bs).mem = true := by
  unfold State.addData
  split
  · exact State.wf_addWrite _ _ w
  · generalize protWords x.addr bs.length = l
    induction l generalizing s with
    | nil => exact w
    | cons a r ih => exact ih (State.wf_addWrite _ _ w)

theorem State.wf_put {s : State} (a : Nat) (bs : List Byte) (p : Bool) (w : Memory.wf s.mem = true) :
    Memory.wf (s.put a bs p).mem = true := State.wf_addWrite _ p w

theorem State.wf_perform {s : State} (p : PWrite → Bool) (r : Reach) (w : Memory.wf s.mem = true) :
    Memory.wf (s.perform p r).mem = true := State.wf_settle w

theorem State.wf_markSeen {s : State} (task : Nat × Nat) (cls : Nat) (p : Nat → Bool) (w : Memory.wf s.mem = true) :
    Memory.wf (s.markSeen task cls p).mem = true := w

theorem State.wf_writeParts {s : State} (who : Who) (reach : List Reach) (p : Bool) (ps : List Part) (bs : List Byte)
    (w : Memory.wf s.mem = true) : Memory.wf (s.writeParts who reach p ps bs).mem = true := by
  induction ps generalizing s bs with
  | nil => exact w
  | cons x r ih => exact ih _ (State.wf_addWrite _ p w)

@[simp] theorem State.addDigest_mem (s : State) (t slot x : Nat) : (s.addDigest t slot x).mem = s.mem := rfl

@[simp] theorem State.touchUnits_mem (s : State) (q ctx tensor off n : Nat) : (s.touchUnits q ctx tensor off n).mem = s.mem := by
  unfold State.touchUnits
  dsimp only
  split <;> rfl

@[simp] theorem State.foldShared_mem (s : State) (w : Who) (a : Nat) (bs : List Byte) : (s.foldShared w a bs).mem = s.mem := by
  unfold State.foldShared
  split
  · rfl
  · simp

theorem State.wf_store {s : State} (who : Who) (a : Nat) (ps : List Part) (bs : List Byte) (p : Bool) (reach : List Reach)
    (w : Memory.wf s.mem = true) : Memory.wf (s.store who a ps bs p reach).mem = true := by
  unfold State.store
  rw [State.foldShared_mem]
  exact State.wf_writeParts who reach p ps bs w

/-! ## What a write of bytes changes -/

theorem mapGet_putBytes_out (m : List (Nat × Byte)) (a : Nat) (bs : List Byte) {x : Nat} (h : x < a ∨ a + bs.length ≤ x) :
    mapGet 0 (putBytes m a bs) x = mapGet 0 m x := by
  induction bs generalizing m a with
  | nil => rfl
  | cons b r ih =>
    simp only [List.length_cons] at h
    simp only [putBytes]
    rw [ih _ _ (by omega), mapGet_mapSet_ne _ _ _ (by omega)]

theorem mapGet_putBytes_in (m : List (Nat × Byte)) (a : Nat) (bs : List Byte) {i : Nat} (h : i < bs.length) :
    mapGet 0 (putBytes m a bs) (a + i) = bs.getD i 0 := by
  induction bs generalizing m a i with
  | nil => simp at h
  | cons b r ih =>
    simp only [putBytes]
    cases i with
    | zero => rw [mapGet_putBytes_out _ _ _ (by omega)]; simp
    | succ j =>
      have := ih (mapSet 0 m a b) (a + 1) (i := j) (by simpa using h)
      rw [show a + (j + 1) = a + 1 + j by omega, this]
      simp

/-! ## What stands at home after a write -/

theorem newest_append (p : PWrite → Bool) (b : Byte) (ws vs : List PWrite) (a : Nat) :
    newest p b (ws ++ vs) a = newest p (newest p b ws a) vs a := by
  unfold newest
  rw [List.foldl_append]

theorem newest_all_cons (b : Byte) (w : PWrite) (ws : List PWrite) (a : Nat) :
    newest (fun _ => true) b (w :: ws) a =
      newest (fun _ => true) (if w.covers a then w.bytes.getD (a - w.addr) 0 else b) ws a := by
  unfold newest
  rw [List.foldl_cons]
  rfl
theorem mapGet_putBytes (m : List (Nat × Byte)) (w : PWrite) (a : Nat) :
    mapGet 0 (putBytes m w.addr w.bytes) a = if w.covers a then w.bytes.getD (a - w.addr) 0 else mapGet 0 m a := by
  by_cases h : w.addr ≤ a ∧ a < w.addr + w.bytes.length
  · obtain ⟨i, rfl⟩ := Nat.exists_eq_add_of_le h.1
    rw [mapGet_putBytes_in _ _ _ (by omega), if_pos (by simpa [PWrite.covers] using h), Nat.add_sub_cancel_left]
  · rw [mapGet_putBytes_out _ _ _ (by omega), if_neg (by simpa [PWrite.covers] using h)]

theorem retireWrites_home (m : List (Nat × Byte)) (ws : List PWrite) (a : Nat) :
    newest (fun _ => true) (mapGet 0 (retireWrites m ws).1 a) (retireWrites m ws).2 a = newest (fun _ => true) (mapGet 0 m a) ws a := by
  induction ws generalizing m with
  | nil => rfl
  | cons w r ih =>
    simp only [retireWrites]
    split
    · rw [ih, newest_all_cons, mapGet_putBytes]
    · rfl

/-- Retiring writes changes no byte at its home. -/
@[simp] theorem State.homeByte_settle (s : State) (a : Nat) : s.settle.homeByte a = s.homeByte a :=
  retireWrites_home s.mem s.writes a

/-- A byte at its home depends on memory and the pending writes alone. -/
theorem State.homeByte_congr {s t : State} (hm : s.mem = t.mem) (hw : s.writes = t.writes) (a : Nat) : s.homeByte a = t.homeByte a := by
  unfold State.homeByte
  rw [hm, hw]

/-- What a write that no pending store can follow leaves at home: its bytes, and every other byte as it was (R384). -/
theorem State.homeByte_addWrite (s : State) (w : PWrite) (p : Bool) (h : ∀ x : PWrite, x.unseen w = false) (a : Nat) :
    (s.addWrite w p).homeByte a = if w.covers a then w.bytes.getD (a - w.addr) 0 else s.homeByte a := by
  unfold State.addWrite
  split
  · next he =>
    rw [if_neg]
    rw [List.isEmpty_iff] at he
    simp [PWrite.covers, he]
  · have last (s : State) (k : Nat) (q : Option Nat) :=
      placeWrite_last s { w with seq := k, launch := q } (fun x _ => h x)
    rw [State.homeByte_congr (State.inject_mem _ _ _ _) (State.inject_writes _ _ _ _), State.homeByte_settle]
    dsimp only
    rw [last]
    simp only [State.homeByte, State.mergePoison_mem, State.mergePoison_writes, State.clearFlips_mem, State.clearFlips_writes, State.logMerge_mem, State.logMerge_writes, newest_append]
    rfl

/-- The device's own writes: the bytes stand at home, and every other byte as it was. -/
theorem State.homeByte_put (s : State) (a : Nat) (bs : List Byte) (p : Bool) (x : Nat) :
    (s.put a bs p).homeByte x = if a ≤ x ∧ x < a + bs.length then bs.getD (x - a) 0 else s.homeByte x := by
  unfold State.put
  rw [State.homeByte_addWrite _ _ _ (fun y => PWrite.unseen_reached y (by simp))]
  simp [PWrite.covers]

end Sys2Proof.Machine
end

