-- ==== Sys2Proof/Laws/Ops.lean ====
section
/-! SUPPORT. Laws/Ops.lean: tables, the focused core, and what the shared operations can do: one lemma says all of it. -/

namespace Sys2Proof.Machine

/-! ## Tiles and cores -/

@[simp] theorem State.tile_setTile_same (s : State) (t : Nat) (v : Tile) : (s.setTile t v).tile t = v := by
  simp [State.tile]
theorem State.tile_setTile_ne (s : State) {t u : Nat} (v : Tile) (h : u ≠ t) : (s.setTile t v).tile u = s.tile u := by
  simp [State.tile, mapGet_mapSet_ne _ _ _ h]
@[simp] theorem State.tile_modTile_same (s : State) (t : Nat) (f : Tile → Tile) : (s.modTile t f).tile t = f (s.tile t) := by
  simp [State.modTile]
theorem State.tile_modTile_ne (s : State) {t u : Nat} (f : Tile → Tile) (h : u ≠ t) : (s.modTile t f).tile u = s.tile u := by
  simp [State.modTile, State.tile_setTile_ne _ _ h]
@[simp] theorem State.die_modDie_same (s : State) (d : Nat) (f : Die → Die) : (s.modDie d f).die d = f (s.die d) := by
  simp [State.die]
theorem State.die_modDie_ne (s : State) {d e : Nat} (f : Die → Die) (h : e ≠ d) : (s.modDie d f).die e = s.die e := by
  simp [State.die, mapGet_mapSet_ne _ _ _ h]
@[simp] theorem State.stack_modStack_same (s : State) (k : Nat) (f : Stack → Stack) : (s.modStack k f).stack k = f (s.stack k) := by
  simp [State.stack]

@[simp] theorem Tile.core_setCore_same (v : Tile) (c : Nat) (k : Core) : (v.setCore c k).core c = k := by
  unfold Tile.setCore Tile.core
  split
  · rfl
  · split <;> rfl

/-- Cores of a tile are numbered 0, 1, 2. -/
theorem Tile.core_setCore_ne (v : Tile) {c e : Nat} (k : Core) (hc : c < 3) (he : e < 3) (h : e ≠ c) :
    (v.setCore c k).core e = v.core e := by
  have hc : c = 0 ∨ c = 1 ∨ c = 2 := by omega
  have he : e = 0 ∨ e = 1 ∨ e = 2 := by omega
  rcases hc with rfl | rfl | rfl <;> rcases he with rfl | rfl | rfl <;> first | rfl | exact absurd rfl h

@[simp] theorem Tile.core_modCore_same (v : Tile) (c : Nat) (f : Core → Core) : (v.modCore c f).core c = f (v.core c) := by
  simp [Tile.modCore]

@[simp] theorem Tile.setCore_setCore (v : Tile) (c : Nat) (k l : Core) : (v.setCore c k).setCore c l = v.setCore c l := by
  unfold Tile.setCore
  split
  · rfl
  · split <;> rfl

/-! ## The focused core -/

@[simp] theorem State.modCur_ft (s : State) (f : Core → Core) : (s.modCur f).ft = s.ft := rfl
@[simp] theorem State.modCur_fc (s : State) (f : Core → Core) : (s.modCur f).fc = s.fc := rfl
@[simp] theorem State.wx_ft (s : State) (r : Reg) (v : DWord) : (s.wx r v).ft = s.ft := rfl
@[simp] theorem State.wx_fc (s : State) (r : Reg) (v : DWord) : (s.wx r v).fc = s.fc := rfl

/-- The focused core after an update of it. -/
@[simp] theorem State.cur_modCur (s : State) (f : Core → Core) : (s.modCur f).cur = f s.cur := by
  simp [State.modCur, State.cur, State.ft, State.fc, State.tile]

@[simp] theorem State.cur_wx (s : State) (r : Reg) (v : DWord) : (s.wx r v).cur = s.cur.wx r v := by
  simp [State.wx]

@[simp] theorem State.rx_zero (s : State) : s.rx 0 = 0 := rfl

/-- A register reads as the value last written; x0 reads as zero. -/
theorem Core.rx_wx (k : Core) (r q : Reg) (v : DWord) : (k.wx r v).rx q = if q = 0 then 0 else if q = r then v else k.rx q := by
  unfold Core.rx Core.wx
  by_cases hq : q = 0
  · rw [if_pos hq, if_pos hq]
  · rw [if_neg hq, if_neg hq, if_neg hq]
    by_cases hr : r = 0
    · have h : q ≠ r := fun e => hq (e.trans hr)
      rw [if_pos hr, if_neg h]
    · rw [if_neg hr]
      by_cases h : q = r
      · subst h; rw [if_pos rfl]; exact mapGet_mapSet_same _ _ _ _
      · rw [if_neg h]; exact mapGet_mapSet_ne _ _ _ (fun e => h (BitVec.eq_of_toNat_eq e))

theorem State.rx_wx (s : State) (r q : Reg) (v : DWord) : (s.wx r v).rx q = if q = 0 then 0 else if q = r then v else s.rx q := by
  simp [State.rx, Core.rx_wx]

@[simp] theorem State.rx_modCur_advance (s : State) (q : Reg) : (s.modCur Core.advance).rx q = s.rx q := by
  simp [State.rx, Core.rx, Core.advance]

/-- An update of the focused core leaves every other tile alone. -/
theorem State.tile_modCur_ne (s : State) {u : Nat} (f : Core → Core) (h : u ≠ s.ft) : (s.modCur f).tile u = s.tile u :=
  State.tile_modTile_ne s _ h

@[simp] theorem State.tile_modCur (s : State) (f : Core → Core) : (s.modCur f).tile s.ft = (s.tile s.ft).modCore s.fc f := by
  simp [State.modCur]

/-! ## The end of a scalar instruction -/

theorem perform_eq (a : Act) : perform a = .next a.state := rfl
@[simp] theorem Act.state_done (s : State) : (Act.done s).state = s.modCur Core.advance := rfl
@[simp] theorem Act.state_go (s : State) : (Act.go s).state = s := rfl
@[simp] theorem Act.state_trap (tr : Trap) (s : State) : (Act.trap tr s).state = raiseCore s tr := rfl
@[simp] theorem Act.state_hold (tr : Trap) (s : State) : (Act.hold tr s).state = holdCore s tr := rfl
@[simp] theorem Act.state_wait (s : State) : (Act.wait s).state = blockCore s := rfl
@[simp] theorem Act.state_ret (s : State) (rd : Reg) (v : DWord) : (Act.ret s rd v).state = (s.wx rd v).modCur Core.advance := rfl
@[simp] theorem Act.state_retN (s : State) (rd : Reg) (v : Nat) :
    (Act.retN s rd v).state = (s.wx rd (BitVec.ofNat 64 v)).modCur Core.advance := rfl

/-! ## Taking an exception: what it leaves alone -/

/-- The manager's write of its SRAM changes its own die, and takes free values for the error it may log. -/
theorem strikeSram_keeps {β : Type} (p : State → β) (h : ∀ (s : State) (ds : List (Nat × Die)) (n : Nat), p { s with dies := ds, draws := n } = p s)
    (s : State) (d : Nat) : p (strikeSram s d) = p s := by
  unfold strikeSram strike
  cases armedInj s d 9 0 (2 ^ 48) with
  | none => rfl
  | some ka =>
    dsimp only
    split <;> exact h s _ _

/-- Delivering a fault changes the die of the tile, and takes free values. -/
theorem deliverFault_keeps {β : Type} (p : State → β)
    (h : ∀ (s : State) (ds : List (Nat × Die)) (n : Nat), p { s with dies := ds, draws := n } = p s)
    (s : State) (t q : Nat) (r : TrapRec) : p (deliverFault s t q r) = p s := by
  unfold deliverFault
  rw [strikeSram_keeps p h]
  exact h s _ s.draws

/-- Stopping a source changes its tile. -/
theorem stopSource_keeps {β : Type} (p : State → β) (h : ∀ (s : State) (ts : List (Nat × Tile)), p { s with tiles := ts } = p s)
    (s : State) (t src : Nat) (st : CoreStat) : p (stopSource s t src st) = p s := by
  unfold stopSource
  split
  · exact h s _
  · rfl

/-- Entering a handler, or delivering its trap as a fault, changes the tile and its die, and takes free values. -/
theorem enter_keeps {β : Type} (p : State → β)
    (h : ∀ (s : State) (ts : List (Nat × Tile)) (ds : List (Nat × Die)) (n : Nat),
      p { s with tiles := ts, dies := ds, draws := n } = p s)
    (s : State) (t : Nat) : p (enter s t) = p s := by
  have ht (s : State) (t : Nat) (v : Tile) : p (s.setTile t v) = p s := h s _ s.dies s.draws
  unfold enter
  dsimp only
  split
  · rfl
  · split
    · rw [deliverFault_keeps p (fun s ds n => h s s.tiles ds n), ht]
    · split
      · rw [ht]
      · rfl

/-- Raising a trap changes the tile and its die, and takes free values. -/
theorem raiseTrap_keeps {β : Type} (p : State → β)
    (h : ∀ (s : State) (ts : List (Nat × Tile)) (ds : List (Nat × Die)) (n : Nat),
      p { s with tiles := ts, dies := ds, draws := n } = p s)
    (s : State) (t slot src w1 : Nat) (tr : Trap) : p (raiseTrap s t slot src w1 tr) = p s := by
  have hs := stopSource_keeps p (fun s ts => h s ts s.dies s.draws)
  have hm (s : State) (t : Nat) (f : Tile → Tile) : p (s.modTile t f) = p s := h s _ s.dies s.draws
  unfold raiseTrap
  dsimp only
  split
  · split
    · rw [enter_keeps p h, hm, hs]
    · rw [hm, hs]
  · rw [deliverFault_keeps p (fun s ds n => h s s.tiles ds n), hs]

/-- A core that raises a trap changes its tile and its die, and takes free values. -/
theorem raiseCore_keeps {β : Type} (p : State → β)
    (h : ∀ (s : State) (ts : List (Nat × Tile)) (ds : List (Nat × Die)) (n : Nat),
      p { s with tiles := ts, dies := ds, draws := n } = p s)
    (s : State) (tr : Trap) : p (raiseCore s tr) = p s := by
  have hm (s : State) (f : Core → Core) : p (s.modCur f) = p s := h s _ s.dies s.draws
  unfold raiseCore
  dsimp only
  split
  · rw [hm]
  · rw [raiseTrap_keeps p h]
    split
    · rw [hm]
    · rfl

/-- A core held at an access changes its tile and its die, and takes free values. -/
theorem holdCore_keeps {β : Type} (p : State → β)
    (h : ∀ (s : State) (ts : List (Nat × Tile)) (ds : List (Nat × Die)) (n : Nat),
      p { s with tiles := ts, dies := ds, draws := n } = p s)
    (s : State) (tr : Trap) : p (holdCore s tr) = p s := by
  unfold holdCore
  dsimp only
  rw [deliverFault_keeps p (fun s ds n => h s s.tiles ds n)]
  exact h s _ s.dies s.draws

@[simp] theorem strikeSram_mem (s : State) (d : Nat) : (strikeSram s d).mem = s.mem :=
  strikeSram_keeps (·.mem) (fun _ _ _ => rfl) s d
@[simp] theorem strikeSram_poison (s : State) (d : Nat) : (strikeSram s d).poison = s.poison :=
  strikeSram_keeps (·.poison) (fun _ _ _ => rfl) s d
@[simp] theorem strikeSram_writes (s : State) (d : Nat) : (strikeSram s d).writes = s.writes :=
  strikeSram_keeps (·.writes) (fun _ _ _ => rfl) s d
@[simp] theorem strikeSram_msgs (s : State) (d : Nat) : (strikeSram s d).msgs = s.msgs :=
  strikeSram_keeps (·.msgs) (fun _ _ _ => rfl) s d
@[simp] theorem strikeSram_hbm (s : State) (d : Nat) : (strikeSram s d).hbm = s.hbm :=
  strikeSram_keeps (·.hbm) (fun _ _ _ => rfl) s d
@[simp] theorem strikeSram_pkg (s : State) (d : Nat) : (strikeSram s d).pkg = s.pkg :=
  strikeSram_keeps (·.pkg) (fun _ _ _ => rfl) s d
@[simp] theorem strikeSram_net (s : State) (d : Nat) : (strikeSram s d).net = s.net :=
  strikeSram_keeps (·.net) (fun _ _ _ => rfl) s d
@[simp] theorem strikeSram_regs (s : State) (d : Nat) : (strikeSram s d).regs = s.regs :=
  strikeSram_keeps (·.regs) (fun _ _ _ => rfl) s d
@[simp] theorem strikeSram_time (s : State) (d : Nat) : (strikeSram s d).time = s.time :=
  strikeSram_keeps (·.time) (fun _ _ _ => rfl) s d
@[simp] theorem strikeSram_stamp (s : State) (d : Nat) : (strikeSram s d).stamp = s.stamp :=
  strikeSram_keeps (·.stamp) (fun _ _ _ => rfl) s d
@[simp] theorem strikeSram_agenda (s : State) (d : Nat) : (strikeSram s d).agenda = s.agenda :=
  strikeSram_keeps (·.agenda) (fun _ _ _ => rfl) s d
@[simp] theorem strikeSram_focus (s : State) (d : Nat) : (strikeSram s d).focus = s.focus :=
  strikeSram_keeps (·.focus) (fun _ _ _ => rfl) s d
@[simp] theorem strikeSram_tiles (s : State) (d : Nat) : (strikeSram s d).tiles = s.tiles :=
  strikeSram_keeps (·.tiles) (fun _ _ _ => rfl) s d
@[simp] theorem deliverFault_mem (s : State) (t q : Nat) (r : TrapRec) : (deliverFault s t q r).mem = s.mem :=
  deliverFault_keeps (·.mem) (fun _ _ _ => rfl) s t q r
@[simp] theorem deliverFault_poison (s : State) (t q : Nat) (r : TrapRec) : (deliverFault s t q r).poison = s.poison :=
  deliverFault_keeps (·.poison) (fun _ _ _ => rfl) s t q r
@[simp] theorem deliverFault_writes (s : State) (t q : Nat) (r : TrapRec) : (deliverFault s t q r).writes = s.writes :=
  deliverFault_keeps (·.writes) (fun _ _ _ => rfl) s t q r
@[simp] theorem deliverFault_msgs (s : State) (t q : Nat) (r : TrapRec) : (deliverFault s t q r).msgs = s.msgs :=
  deliverFault_keeps (·.msgs) (fun _ _ _ => rfl) s t q r
@[simp] theorem deliverFault_hbm (s : State) (t q : Nat) (r : TrapRec) : (deliverFault s t q r).hbm = s.hbm :=
  deliverFault_keeps (·.hbm) (fun _ _ _ => rfl) s t q r
@[simp] theorem deliverFault_pkg (s : State) (t q : Nat) (r : TrapRec) : (deliverFault s t q r).pkg = s.pkg :=
  deliverFault_keeps (·.pkg) (fun _ _ _ => rfl) s t q r
@[simp] theorem deliverFault_net (s : State) (t q : Nat) (r : TrapRec) : (deliverFault s t q r).net = s.net :=
  deliverFault_keeps (·.net) (fun _ _ _ => rfl) s t q r
@[simp] theorem deliverFault_regs (s : State) (t q : Nat) (r : TrapRec) : (deliverFault s t q r).regs = s.regs :=
  deliverFault_keeps (·.regs) (fun _ _ _ => rfl) s t q r
@[simp] theorem deliverFault_time (s : State) (t q : Nat) (r : TrapRec) : (deliverFault s t q r).time = s.time :=
  deliverFault_keeps (·.time) (fun _ _ _ => rfl) s t q r
@[simp] theorem deliverFault_stamp (s : State) (t q : Nat) (r : TrapRec) : (deliverFault s t q r).stamp = s.stamp :=
  deliverFault_keeps (·.stamp) (fun _ _ _ => rfl) s t q r
@[simp] theorem deliverFault_agenda (s : State) (t q : Nat) (r : TrapRec) : (deliverFault s t q r).agenda = s.agenda :=
  deliverFault_keeps (·.agenda) (fun _ _ _ => rfl) s t q r
@[simp] theorem deliverFault_focus (s : State) (t q : Nat) (r : TrapRec) : (deliverFault s t q r).focus = s.focus :=
  deliverFault_keeps (·.focus) (fun _ _ _ => rfl) s t q r
@[simp] theorem deliverFault_tiles (s : State) (t q : Nat) (r : TrapRec) : (deliverFault s t q r).tiles = s.tiles :=
  deliverFault_keeps (·.tiles) (fun _ _ _ => rfl) s t q r
@[simp] theorem stopSource_mem (s : State) (t src : Nat) (st : CoreStat) : (stopSource s t src st).mem = s.mem :=
  stopSource_keeps (·.mem) (fun _ _ => rfl) s t src st
@[simp] theorem stopSource_poison (s : State) (t src : Nat) (st : CoreStat) : (stopSource s t src st).poison = s.poison :=
  stopSource_keeps (·.poison) (fun _ _ => rfl) s t src st
@[simp] theorem stopSource_writes (s : State) (t src : Nat) (st : CoreStat) : (stopSource s t src st).writes = s.writes :=
  stopSource_keeps (·.writes) (fun _ _ => rfl) s t src st
@[simp] theorem stopSource_msgs (s : State) (t src : Nat) (st : CoreStat) : (stopSource s t src st).msgs = s.msgs :=
  stopSource_keeps (·.msgs) (fun _ _ => rfl) s t src st
@[simp] theorem stopSource_hbm (s : State) (t src : Nat) (st : CoreStat) : (stopSource s t src st).hbm = s.hbm :=
  stopSource_keeps (·.hbm) (fun _ _ => rfl) s t src st
@[simp] theorem stopSource_pkg (s : State) (t src : Nat) (st : CoreStat) : (stopSource s t src st).pkg = s.pkg :=
  stopSource_keeps (·.pkg) (fun _ _ => rfl) s t src st
@[simp] theorem stopSource_net (s : State) (t src : Nat) (st : CoreStat) : (stopSource s t src st).net = s.net :=
  stopSource_keeps (·.net) (fun _ _ => rfl) s t src st
@[simp] theorem stopSource_regs (s : State) (t src : Nat) (st : CoreStat) : (stopSource s t src st).regs = s.regs :=
  stopSource_keeps (·.regs) (fun _ _ => rfl) s t src st
@[simp] theorem stopSource_time (s : State) (t src : Nat) (st : CoreStat) : (stopSource s t src st).time = s.time :=
  stopSource_keeps (·.time) (fun _ _ => rfl) s t src st
@[simp] theorem stopSource_stamp (s : State) (t src : Nat) (st : CoreStat) : (stopSource s t src st).stamp = s.stamp :=
  stopSource_keeps (·.stamp) (fun _ _ => rfl) s t src st
@[simp] theorem stopSource_agenda (s : State) (t src : Nat) (st : CoreStat) : (stopSource s t src st).agenda = s.agenda :=
  stopSource_keeps (·.agenda) (fun _ _ => rfl) s t src st
@[simp] theorem stopSource_focus (s : State) (t src : Nat) (st : CoreStat) : (stopSource s t src st).focus = s.focus :=
  stopSource_keeps (·.focus) (fun _ _ => rfl) s t src st
@[simp] theorem stopSource_draws (s : State) (t src : Nat) (st : CoreStat) : (stopSource s t src st).draws = s.draws :=
  stopSource_keeps (·.draws) (fun _ _ => rfl) s t src st
@[simp] theorem stopSource_dies (s : State) (t src : Nat) (st : CoreStat) : (stopSource s t src st).dies = s.dies :=
  stopSource_keeps (·.dies) (fun _ _ => rfl) s t src st
@[simp] theorem enter_mem (s : State) (t : Nat) : (enter s t).mem = s.mem :=
  enter_keeps (·.mem) (fun _ _ _ _ => rfl) s t
@[simp] theorem enter_poison (s : State) (t : Nat) : (enter s t).poison = s.poison :=
  enter_keeps (·.poison) (fun _ _ _ _ => rfl) s t
@[simp] theorem enter_writes (s : State) (t : Nat) : (enter s t).writes = s.writes :=
  enter_keeps (·.writes) (fun _ _ _ _ => rfl) s t
@[simp] theorem enter_msgs (s : State) (t : Nat) : (enter s t).msgs = s.msgs :=
  enter_keeps (·.msgs) (fun _ _ _ _ => rfl) s t
@[simp] theorem enter_hbm (s : State) (t : Nat) : (enter s t).hbm = s.hbm :=
  enter_keeps (·.hbm) (fun _ _ _ _ => rfl) s t
@[simp] theorem enter_pkg (s : State) (t : Nat) : (enter s t).pkg = s.pkg :=
  enter_keeps (·.pkg) (fun _ _ _ _ => rfl) s t
@[simp] theorem enter_net (s : State) (t : Nat) : (enter s t).net = s.net :=
  enter_keeps (·.net) (fun _ _ _ _ => rfl) s t
@[simp] theorem enter_regs (s : State) (t : Nat) : (enter s t).regs = s.regs :=
  enter_keeps (·.regs) (fun _ _ _ _ => rfl) s t
@[simp] theorem enter_time (s : State) (t : Nat) : (enter s t).time = s.time :=
  enter_keeps (·.time) (fun _ _ _ _ => rfl) s t
@[simp] theorem enter_stamp (s : State) (t : Nat) : (enter s t).stamp = s.stamp :=
  enter_keeps (·.stamp) (fun _ _ _ _ => rfl) s t
@[simp] theorem enter_agenda (s : State) (t : Nat) : (enter s t).agenda = s.agenda :=
  enter_keeps (·.agenda) (fun _ _ _ _ => rfl) s t
@[simp] theorem enter_focus (s : State) (t : Nat) : (enter s t).focus = s.focus :=
  enter_keeps (·.focus) (fun _ _ _ _ => rfl) s t
@[simp] theorem raiseTrap_mem (s : State) (t slot src w1 : Nat) (tr : Trap) : (raiseTrap s t slot src w1 tr).mem = s.mem :=
  raiseTrap_keeps (·.mem) (fun _ _ _ _ => rfl) s t slot src w1 tr
@[simp] theorem raiseTrap_poison (s : State) (t slot src w1 : Nat) (tr : Trap) : (raiseTrap s t slot src w1 tr).poison = s.poison :=
  raiseTrap_keeps (·.poison) (fun _ _ _ _ => rfl) s t slot src w1 tr
@[simp] theorem raiseTrap_writes (s : State) (t slot src w1 : Nat) (tr : Trap) : (raiseTrap s t slot src w1 tr).writes = s.writes :=
  raiseTrap_keeps (·.writes) (fun _ _ _ _ => rfl) s t slot src w1 tr
@[simp] theorem raiseTrap_msgs (s : State) (t slot src w1 : Nat) (tr : Trap) : (raiseTrap s t slot src w1 tr).msgs = s.msgs :=
  raiseTrap_keeps (·.msgs) (fun _ _ _ _ => rfl) s t slot src w1 tr
@[simp] theorem raiseTrap_hbm (s : State) (t slot src w1 : Nat) (tr : Trap) : (raiseTrap s t slot src w1 tr).hbm = s.hbm :=
  raiseTrap_keeps (·.hbm) (fun _ _ _ _ => rfl) s t slot src w1 tr
@[simp] theorem raiseTrap_pkg (s : State) (t slot src w1 : Nat) (tr : Trap) : (raiseTrap s t slot src w1 tr).pkg = s.pkg :=
  raiseTrap_keeps (·.pkg) (fun _ _ _ _ => rfl) s t slot src w1 tr
@[simp] theorem raiseTrap_net (s : State) (t slot src w1 : Nat) (tr : Trap) : (raiseTrap s t slot src w1 tr).net = s.net :=
  raiseTrap_keeps (·.net) (fun _ _ _ _ => rfl) s t slot src w1 tr
@[simp] theorem raiseTrap_regs (s : State) (t slot src w1 : Nat) (tr : Trap) : (raiseTrap s t slot src w1 tr).regs = s.regs :=
  raiseTrap_keeps (·.regs) (fun _ _ _ _ => rfl) s t slot src w1 tr
@[simp] theorem raiseTrap_time (s : State) (t slot src w1 : Nat) (tr : Trap) : (raiseTrap s t slot src w1 tr).time = s.time :=
  raiseTrap_keeps (·.time) (fun _ _ _ _ => rfl) s t slot src w1 tr
@[simp] theorem raiseTrap_stamp (s : State) (t slot src w1 : Nat) (tr : Trap) : (raiseTrap s t slot src w1 tr).stamp = s.stamp :=
  raiseTrap_keeps (·.stamp) (fun _ _ _ _ => rfl) s t slot src w1 tr
@[simp] theorem raiseTrap_agenda (s : State) (t slot src w1 : Nat) (tr : Trap) : (raiseTrap s t slot src w1 tr).agenda = s.agenda :=
  raiseTrap_keeps (·.agenda) (fun _ _ _ _ => rfl) s t slot src w1 tr
@[simp] theorem raiseTrap_focus (s : State) (t slot src w1 : Nat) (tr : Trap) : (raiseTrap s t slot src w1 tr).focus = s.focus :=
  raiseTrap_keeps (·.focus) (fun _ _ _ _ => rfl) s t slot src w1 tr
@[simp] theorem raiseCore_mem (s : State) (tr : Trap) : (raiseCore s tr).mem = s.mem :=
  raiseCore_keeps (·.mem) (fun _ _ _ _ => rfl) s tr
@[simp] theorem raiseCore_poison (s : State) (tr : Trap) : (raiseCore s tr).poison = s.poison :=
  raiseCore_keeps (·.poison) (fun _ _ _ _ => rfl) s tr
@[simp] theorem raiseCore_writes (s : State) (tr : Trap) : (raiseCore s tr).writes = s.writes :=
  raiseCore_keeps (·.writes) (fun _ _ _ _ => rfl) s tr
@[simp] theorem raiseCore_msgs (s : State) (tr : Trap) : (raiseCore s tr).msgs = s.msgs :=
  raiseCore_keeps (·.msgs) (fun _ _ _ _ => rfl) s tr
@[simp] theorem raiseCore_hbm (s : State) (tr : Trap) : (raiseCore s tr).hbm = s.hbm :=
  raiseCore_keeps (·.hbm) (fun _ _ _ _ => rfl) s tr
@[simp] theorem raiseCore_pkg (s : State) (tr : Trap) : (raiseCore s tr).pkg = s.pkg :=
  raiseCore_keeps (·.pkg) (fun _ _ _ _ => rfl) s tr
@[simp] theorem raiseCore_net (s : State) (tr : Trap) : (raiseCore s tr).net = s.net :=
  raiseCore_keeps (·.net) (fun _ _ _ _ => rfl) s tr
@[simp] theorem raiseCore_regs (s : State) (tr : Trap) : (raiseCore s tr).regs = s.regs :=
  raiseCore_keeps (·.regs) (fun _ _ _ _ => rfl) s tr
@[simp] theorem raiseCore_time (s : State) (tr : Trap) : (raiseCore s tr).time = s.time :=
  raiseCore_keeps (·.time) (fun _ _ _ _ => rfl) s tr
@[simp] theorem raiseCore_stamp (s : State) (tr : Trap) : (raiseCore s tr).stamp = s.stamp :=
  raiseCore_keeps (·.stamp) (fun _ _ _ _ => rfl) s tr
@[simp] theorem raiseCore_agenda (s : State) (tr : Trap) : (raiseCore s tr).agenda = s.agenda :=
  raiseCore_keeps (·.agenda) (fun _ _ _ _ => rfl) s tr
@[simp] theorem raiseCore_focus (s : State) (tr : Trap) : (raiseCore s tr).focus = s.focus :=
  raiseCore_keeps (·.focus) (fun _ _ _ _ => rfl) s tr
@[simp] theorem holdCore_mem (s : State) (tr : Trap) : (holdCore s tr).mem = s.mem :=
  holdCore_keeps (·.mem) (fun _ _ _ _ => rfl) s tr
@[simp] theorem holdCore_poison (s : State) (tr : Trap) : (holdCore s tr).poison = s.poison :=
  holdCore_keeps (·.poison) (fun _ _ _ _ => rfl) s tr
@[simp] theorem holdCore_writes (s : State) (tr : Trap) : (holdCore s tr).writes = s.writes :=
  holdCore_keeps (·.writes) (fun _ _ _ _ => rfl) s tr
@[simp] theorem holdCore_msgs (s : State) (tr : Trap) : (holdCore s tr).msgs = s.msgs :=
  holdCore_keeps (·.msgs) (fun _ _ _ _ => rfl) s tr
@[simp] theorem holdCore_hbm (s : State) (tr : Trap) : (holdCore s tr).hbm = s.hbm :=
  holdCore_keeps (·.hbm) (fun _ _ _ _ => rfl) s tr
@[simp] theorem holdCore_pkg (s : State) (tr : Trap) : (holdCore s tr).pkg = s.pkg :=
  holdCore_keeps (·.pkg) (fun _ _ _ _ => rfl) s tr
@[simp] theorem holdCore_net (s : State) (tr : Trap) : (holdCore s tr).net = s.net :=
  holdCore_keeps (·.net) (fun _ _ _ _ => rfl) s tr
@[simp] theorem holdCore_regs (s : State) (tr : Trap) : (holdCore s tr).regs = s.regs :=
  holdCore_keeps (·.regs) (fun _ _ _ _ => rfl) s tr
@[simp] theorem holdCore_time (s : State) (tr : Trap) : (holdCore s tr).time = s.time :=
  holdCore_keeps (·.time) (fun _ _ _ _ => rfl) s tr
@[simp] theorem holdCore_stamp (s : State) (tr : Trap) : (holdCore s tr).stamp = s.stamp :=
  holdCore_keeps (·.stamp) (fun _ _ _ _ => rfl) s tr
@[simp] theorem holdCore_agenda (s : State) (tr : Trap) : (holdCore s tr).agenda = s.agenda :=
  holdCore_keeps (·.agenda) (fun _ _ _ _ => rfl) s tr
@[simp] theorem holdCore_focus (s : State) (tr : Trap) : (holdCore s tr).focus = s.focus :=
  holdCore_keeps (·.focus) (fun _ _ _ _ => rfl) s tr
@[simp] theorem blockCore_mem (s : State) : (blockCore s).mem = s.mem := rfl
@[simp] theorem blockCore_poison (s : State) : (blockCore s).poison = s.poison := rfl
@[simp] theorem blockCore_writes (s : State) : (blockCore s).writes = s.writes := rfl
@[simp] theorem blockCore_msgs (s : State) : (blockCore s).msgs = s.msgs := rfl
@[simp] theorem blockCore_hbm (s : State) : (blockCore s).hbm = s.hbm := rfl
@[simp] theorem blockCore_pkg (s : State) : (blockCore s).pkg = s.pkg := rfl
@[simp] theorem blockCore_net (s : State) : (blockCore s).net = s.net := rfl
@[simp] theorem blockCore_regs (s : State) : (blockCore s).regs = s.regs := rfl
@[simp] theorem blockCore_time (s : State) : (blockCore s).time = s.time := rfl
@[simp] theorem blockCore_stamp (s : State) : (blockCore s).stamp = s.stamp := rfl
@[simp] theorem blockCore_agenda (s : State) : (blockCore s).agenda = s.agenda := rfl
@[simp] theorem blockCore_focus (s : State) : (blockCore s).focus = s.focus := rfl

/-! ## Context frames -/

/-- Writing an area of HBM keeps the canonical form (R62, R438). -/
theorem State.wf_putArea {s : State} (a span : Nat) (ps : List FramePart) (w : Memory.wf s.mem = true) :
    Memory.wf (s.putArea a span ps).mem = true := by
  unfold State.putArea
  dsimp only
  rw [State.inject_mem]
  dsimp only
  generalize ps.filter _ = l
  generalize hm : mapKeep s.mem _ = m
  have hw : Memory.wf m = true := hm ▸ mapWf_filter _ w
  clear hm
  induction l generalizing m with
  | nil => exact hw
  | cons p r ih => exact ih _ (Memory.wf_putBytes _ _ hw)

/-- Writing a frame keeps the canonical form (R62). -/
theorem State.wf_putFrame {s : State} (a : Nat) (ps : List FramePart) (w : Memory.wf s.mem = true) :
    Memory.wf (s.putFrame a ps).mem = true := State.wf_putArea a frameSpan ps w

/-! ## Time, fetch -/

@[simp] theorem tick_mem (s : State) : (tick s).mem = s.mem := rfl
@[simp] theorem tick_poison (s : State) : (tick s).poison = s.poison := rfl
@[simp] theorem tick_writes (s : State) : (tick s).writes = s.writes := rfl
@[simp] theorem tick_msgs (s : State) : (tick s).msgs = s.msgs := rfl
@[simp] theorem tick_hbm (s : State) : (tick s).hbm = s.hbm := rfl
@[simp] theorem tick_pkg (s : State) : (tick s).pkg = s.pkg := rfl
@[simp] theorem tick_net (s : State) : (tick s).net = s.net := rfl
@[simp] theorem tick_regs (s : State) : (tick s).regs = s.regs := rfl
@[simp] theorem tick_stamp (s : State) : (tick s).stamp = s.stamp := rfl
@[simp] theorem tick_agenda (s : State) : (tick s).agenda = s.agenda := rfl
@[simp] theorem tick_focus (s : State) : (tick s).focus = s.focus := rfl
@[simp] theorem cache_mem (s : State) (x : XOut) : (s.cache x).mem = s.mem := rfl
@[simp] theorem cache_poison (s : State) (x : XOut) : (s.cache x).poison = s.poison := rfl
@[simp] theorem cache_writes (s : State) (x : XOut) : (s.cache x).writes = s.writes := rfl
@[simp] theorem cache_msgs (s : State) (x : XOut) : (s.cache x).msgs = s.msgs := rfl
@[simp] theorem cache_hbm (s : State) (x : XOut) : (s.cache x).hbm = s.hbm := rfl
@[simp] theorem cache_tiles (s : State) (x : XOut) : (s.cache x).tiles = s.tiles := rfl
@[simp] theorem cache_net (s : State) (x : XOut) : (s.cache x).net = s.net := rfl
@[simp] theorem cache_regs (s : State) (x : XOut) : (s.cache x).regs = s.regs := rfl
@[simp] theorem cache_time (s : State) (x : XOut) : (s.cache x).time = s.time := rfl
@[simp] theorem cache_stamp (s : State) (x : XOut) : (s.cache x).stamp = s.stamp := rfl
@[simp] theorem cache_draws (s : State) (x : XOut) : (s.cache x).draws = s.draws := rfl
@[simp] theorem cache_agenda (s : State) (x : XOut) : (s.cache x).agenda = s.agenda := rfl
@[simp] theorem cache_focus (s : State) (x : XOut) : (s.cache x).focus = s.focus := rfl

/-- A translation that used no descriptor leaves the caches as they are. -/
@[simp] theorem cache_none (s : State) (r : Except Trap (List Part)) : s.cache ⟨r, none, []⟩ = s := rfl

end Sys2Proof.Machine
end

