-- ==== Sys2Proof/Tests/Slice0.lean ====
section
/-! SUPPORT. Tests/Slice0.lean: the checks of WellFormed refuse ill-formed terms, words of the encoding tables decode to their
instructions, the manual's worked examples, and for each statement a state and operands that meet its hypotheses. -/

open Sys2Proof Sys2Proof.Machine Sys2Proof.Spec

namespace Sys2Proof.Tests

-- one test at a time: many at once ask for more memory than the check has
set_option Elab.async false

/-! ## WellFormed refuses -/

theorem test_wf_scope : (Instr.syFence 5).wf = false ∧ (Instr.amAdd 1 2 3 5).wf = false ∧ (Instr.amCas 1 2 3 7).wf = false ∧
    (Instr.syFence 4).wf = true := by decide
theorem test_wf_class : (Instr.pfFence 6 0).wf = false ∧ (Instr.pfFence 0 6).wf = false ∧ (Instr.pfFence 5 5).wf = true := by decide
theorem test_wf_base : (Instr.baseInstruction (.jal 1 3)).wf = false ∧ (Instr.baseInstruction (.branch .beq 1 2 1)).wf = false ∧
    (Instr.baseInstruction (.shift .slliw 1 2 32)).wf = false ∧ (Instr.baseInstruction (.shift .slliw 1 2 31)).wf = true := by decide
theorem test_wf_tile : (Instr.msStep 12288).wf = false ∧ (Instr.msStep 24).wf = false ∧ (Instr.trapEntry (11 * 512 + 25)).wf = false ∧
    (Instr.msStep 12279).wf = true := by decide
theorem test_wf_core : (Instr.instructionFetch 0 3).wf = false ∧ (Instr.rwWaitExpiry 0 3).wf = false ∧ (Instr.fuWaitExpiry 24 0).wf = false ∧
    (Instr.instructionFetch 0 2).wf = true := by decide
theorem test_wf_slot : (Instr.firingStart 0 8).wf = false ∧ (Instr.sectionRollback 0 8 1).wf = false ∧ (Instr.firingEnd 0 7).wf = true := by decide
theorem test_wf_region : (Instr.rowIssue 0 8).wf = false ∧ (Instr.routeLanding 24 0).wf = false ∧ (Instr.drainLimitExit 0 0 4).wf = false ∧
    (Instr.drainLimitExit 0 7 3).wf = true := by decide
theorem test_wf_port_copy_window : (Instr.portTokenFetch 0 16).wf = false ∧ (Instr.portTokenWrite 0 16).wf = false ∧
    (Instr.tileCopyComplete 0 96).wf = false ∧ (Instr.advanceMessage 12288 0).wf = false ∧ (Instr.releaseMessage 0 63).wf = true := by decide
theorem test_wf_stack : (Instr.bankSlice 48 0).wf = false ∧ (Instr.bankRefresh 0 1024).wf = false ∧ (Instr.queryResult 0 512).wf = false ∧
    (Instr.stackFault 48).wf = false ∧ (Instr.hbmTraining 48 true).wf = false ∧ (Instr.bankSlice 47 1023).wf = true := by decide
theorem test_wf_flow : (Instr.frameResend 64 0).wf = false ∧ (Instr.deliveryLimitExpiry 0 4).wf = false ∧ (Instr.copyEngineReset 24).wf = false ∧
    (Instr.frameResend 63 3).wf = true := by decide
theorem test_wf_links : (Instr.opticalPortLoss 8).wf = false ∧ (Instr.opticalPortReturn 8).wf = false ∧ (Instr.keyInstall 64 0 (.next 0)).wf = false ∧
    (Instr.keyRetirementReport 0 64).wf = false ∧ (Instr.laneGroupFailure 0 4).wf = false ∧ (Instr.pauseFrame 8 0 true).wf = false ∧
    (Instr.pauseFrame 0 4 true).wf = false ∧ (Instr.electricalPortLoss 8).wf = false ∧ (Instr.electricalPortReturn 7).wf = true := by decide
theorem test_wf_die : (Instr.dieReset 24).wf = false ∧ (Instr.d2dNack 24 0).wf = false ∧ (Instr.dieVerdict 24 0 0).wf = false ∧
    (Instr.dieVerdict 0 256 0).wf = false ∧ (Instr.shareCompleteReport 24 0).wf = false ∧ (Instr.d2dNack 0 65536).wf = false ∧
    (Instr.dieReset 23).wf = true := by decide
theorem test_wf_host : (Instr.hostWindowAccess 2 0 none 1).wf = false ∧ (Instr.hostWindowAccess 1 0 none 1).wf = true := by decide
theorem test_wf_monitor : (Instr.tileSelfTest (.monitor 24 0 0) []).wf = false ∧ (Instr.tileSelfTest (.monitor 0 3 0) []).wf = false ∧
    (Instr.tileSelfTest (.monitor 0 2 65534) []).wf = true := by decide

/-! ## Words of the encoding tables (R193, R205 to R209) -/

theorem test_decode_windows : decodeWord 0x06C5950B#32 = .rwWait 10 11 12 ∧ decodeWord 0x05EE900B#32 = .rwPop 29 30 ∧
    decodeWord 0x03EE900B#32 = .rwPush 29 30 := by decide +kernel
theorem test_decode_sync : decodeWord 0x06C5852B#32 = .fuWait 10 11 12 ∧ decodeWord 0x04C5952B#32 = .grBar 10 11 12 ∧
    decodeWord 0x2031302B#32 = .pfFence 2 3 ∧ decodeWord 0x2021B02B#32 = .pfFence 3 2 := by decide +kernel
theorem test_decode_atomics : decodeWord 0x02C5855B#32 = .amAdd 10 11 12 1 ∧ decodeWord 0x66C5855B#32 = .amCas 10 11 12 3 ∧
    decodeWord 0x1200302B#32 = .syFence 1 := by decide +kernel
theorem test_decode_fabric : decodeWord 0x0825007B#32 = .fbTok 10 2 ∧ decodeWord 0x0A20037B#32 = .fbSink 6 2 ∧
    decodeWord 0x000F907B#32 = .mxIssue 31 ∧ decodeWord 0x020013FB#32 = .mxWait 7 0 := by decide +kernel
theorem test_decode_sections : decodeWord 0x0800155B#32 = .xcBegin 10 ∧ decodeWord 0x0A0016DB#32 = .xcCommit 13 ∧
    decodeWord 0x0C6293DB#32 = .xcFrame 7 5 6 := by decide +kernel
theorem test_decode_infusers : decodeWord 0x00B526DB#32 = .nbQuery 13 10 11 ∧ decodeWord 0x020526DB#32 = .nbAppend 13 10 0 := by decide +kernel
theorem test_decode_base : decodeWord 0x00000013#32 = .baseInstruction (.imm .addi 0 0 0) ∧ decodeHalf 0x157d#16 =
    .baseInstruction (.imm .addi 10 10 0xFFF) ∧ decodeHalf 0x60A2#16 = .scalarLoad .ld 1 2 8 ∧ decodeHalf 0xE406#16 = .scalarStore .sd 2 1 8 ∧
    decodeHalf 0x7139#16 = .baseInstruction (.imm .addi 2 2 0xFC0) ∧ decodeHalf 0x9002#16 = .ebreak := by decide +kernel
theorem test_decode_reserved : decodeWord 0x2A00302B#32 = .baseInstruction (.reserved 0x2A00302B#32) ∧
    decodeWord 0x1A00302B#32 = .baseInstruction (.reserved 0x1A00302B#32) ∧
    decodeHalf 0#16 = .baseInstruction (.reserved 0) := by decide +kernel
theorem test_encode_fetchable : encode (.rwWait 10 11 12) = some (leBytes 4 0x06C5950B) ∧ encode (.amCas 10 11 12 3) = some (leBytes 4 0x66C5855B) ∧
    encode (.rowIssue 0 0) = none := by decide +kernel

/-! ## Small states -/

/-- The module after reset with one tile changed. -/
def onTile (t : Nat) (f : Tile → Tile) : State := State.reset.modTile t f
/-- A bound task, RESIDENT in slot 0 of tile 0. -/
def tk : Task :=
  { spawned := false, lidx := 0, launch := 0, container := 0, actor := 0, firstEntry := 0, basePrio := 0, prio := 0, ctx := 0, groups := []
    wins := 0, sbase := 0, ssize := 0, tbase := 0, tsize := 0, stat := .resident, readyAt := 0, aged := 0, frame := none, lent := false, firing := none
    phase := 0, firings := 0, fresh := false, saved := none }
/-- A core at the first byte of its store, every region of which executes. -/
def ck : Core := { Core.reset with stat := .run, pc := 0x2000000000000000, imap := BitVec.allOnes 256 }
/-- Tile 0 with that task and its control core running. -/
def s0 : State := onTile 0 (fun v => { v with ctl := ck, ldr := ck, sto := ck, resident := some 0, tasks := [(0, some tk)] })
/-- The same with registers. -/
def withX (l : List (Nat × DWord)) (s : State := s0) : State := s.modCur (fun k => { k with x := l })
/-- The same with the loader in focus. -/
def s0l : State := { s0 with focus := (0, 1) }

/-- Whether a result is a given value; the trap of a result. -/
def okIs {ε α : Type} [DecidableEq α] (e : Except ε α) (a : α) : Bool := match e with | .ok b => decide (b = a) | .error _ => false
def trapOf {α : Type} (e : Except Trap α) : Option Trap := match e with | .ok _ => none | .error t => some t
def isNext (o : Host.Outcome State Fault Refusal) : Bool := match o with | .next _ => true | _ => false

/-! ## Witnesses: fetch and the base profile -/

theorem wit_StepRunsDecodedInstruction :
    (let s := s0.withFetchWord 32 0x02C5855B; s.agenda = [] ∧ s.cur.stat = .run ∧
      okIs (decodeBytes (fetchBytes s.cur s.cur.pc.toNat 4)) (.amAdd 10 11 12 1, 4) = true ∧ fetchTrap s.cur s.cur.pc.toNat 4 = none) ∧
    (let s := s0.modCur (fun k => { k with pc := 0x2000000000010000 }); s.agenda = [] ∧ s.cur.stat = .run ∧
      fetchTrap s.cur s.cur.pc.toNat 2 = some ⟨cFETCHDATA, 0x10000, 0, false⟩) ∧
    (let s := s0.modCur (fun k => { k with pc := 0x200000000000FFFE, imem := [(0xFFFE, 0x13)] }); s.agenda = [] ∧ s.cur.stat = .run ∧
      fetchTrap s.cur s.cur.pc.toNat 2 = none ∧ okIs (decodeBytes (fetchBytes s.cur s.cur.pc.toNat 4)) (.baseInstruction (.imm .addi 0 0 0), 4) = true ∧
      fetchTrap s.cur s.cur.pc.toNat 4 = some ⟨cFETCHDATA, 0x10000, 0, false⟩) ∧
    { s0 with agenda := [Instr.msStep 0] }.agenda = [Instr.msStep 0] ∧ (State.reset.agenda = [] ∧ State.reset.cur.stat ≠ .run) := by
  decide +kernel
theorem wit_PlacedWordRuns : State.reset.fc < 3 ∧ 0x0800155B % 4 = 3 ∧ decodeTableWord 32 0x0800155B = some (.xcBegin 10) := by decide +kernel
theorem wit_FetchRegions :
    ck.imap.getLsbD (0xFFFF / 256) = true ∧ Core.reset.imap.getLsbD (0 / 256) = false ∧ ¬ inImem 0 ∧ ¬ inDmem (2 ^ 64 - 1) ∧ ¬ inImem (2 ^ 64 - 1) ∧
    fetchByteTrap ck 0x200000000000FFFE = none ∧ fetchByteTrap ck 0x200000000000FFFF = none ∧
    fetchByteTrap ck 0x2000000000010000 = some ⟨cFETCHDATA, 0x10000, 0, false⟩ ∧
    (let s := s0.modCur (fun k => { k with imap := 0 }); s.fc < 3 ∧ s.agenda = [] ∧ s.cur.stat = .run ∧
      fetchTrap s.cur s.cur.pc.toNat 2 = some ⟨cFETCHDATA, 0, 0, false⟩) := by
  unfold inImem inDmem; decide +kernel
theorem wit_FetchStepLatches : ((s0.tile 0).core 2).stat = .run ∧ 2 = instrLen (imemByte ((s0.tile 0).core 2) ((s0.tile 0).core 2).pc.toNat) ∧
    fetchTrap ((s0.tile 0).core 2) ((s0.tile 0).core 2).pc.toNat 2 = none := by decide +kernel
theorem wit_DecodeOfEncode : (Instr.pfFence 5 0).wf = true ∧ (encode (.pfFence 5 0)).isSome = true := by decide +kernel
theorem wit_StepRowRoundTrip : (decodeStepRow 0x10000008000800000000000000000000#128).isSome = true := by decide +kernel
theorem wit_StepKeepsMemoryCanonical : Safety.MemInv (s0.put 5 [1, 0, 2]) ∧ (s0.put 5 [1, 0, 2]).mem = [(5, 1), (7, 2)] ∧
    isNext (step ((s0.put 5 [1, 0, 2]).withFetchWord 32 0x13)) = true := by
  unfold Safety.MemInv; decide +kernel
theorem wit_WritingRdFrame : State.reset.fc < 3 := by decide
theorem wit_JumpsAndBranches : branchTaken .beq (s0.rx 1) (s0.rx 0) = true ∧ branchTaken .bne (s0.rx 1) (s0.rx 0) = false := by decide +kernel
theorem wit_ScalarLoads :
    (let s := withX [(1, 0x2000000000014000)]; addrOf s 1 0xFF8 = 0x2000000000010000 + 0x3FF8 ∧ 0x3FF8 % loadSize .ld = 0 ∧
      mapGet false s.cur.dpoison (0x3FF8 / 8) = false) ∧
    (let s := withX [(1, 0x200000000000FFFF)]; addrOf s 1 0 = 0x2000000000000000 + 0xFFFF ∧ 0xFFFF % loadSize .lbu = 0) ∧
    (let s := withX [(1, 0x1FFFF8)]; addrOf s 1 0 + loadSize .ld = 2 ^ 21 ∧ addrOf s 1 0 % loadSize .ld = 0 ∧
      s.poisonIn (spadBase s.ft + addrOf s 1 0) (loadSize .ld) = false ∧ isGeneric (addrOf s 1 0) ∧
      (match (s.find s.who (addrOf s 1 0) (loadSize .ld) .read).res with
        | .ok ps => ps.length == 1 && ps.all (fun p => !s.poisonIn p.addr p.len) | .error _ => false) = true) := by
  unfold isGeneric; decide +kernel
theorem wit_ScalarStores :
    (let s := withX [(1, 0x2000000000010000)]; addrOf s 1 0 = 0x2000000000010000 + 0 ∧ 0 % storeSize .sd = 0) ∧
    (let s := withX [(1, 0x1FFFF8)]; isGeneric (addrOf s 1 0) ∧ addrOf s 1 0 + storeSize .sd = 2 ^ 21 ∧ addrOf s 1 0 % storeSize .sd = 0 ∧
      (match (s.find s.who (addrOf s 1 0) (storeSize .sd) .write).res with | .ok ps => ps.length == 1 | .error _ => false) = true) := by
  unfold isGeneric; decide +kernel
theorem wit_ScalarAccessTraps :
    (let s := withX [(1, 0x2000000000010001)]; addrOf s 1 0 % loadSize .lh ≠ 0 ∧ addrOf s 1 0 % storeSize .sh ≠ 0) ∧
    (let s := withX [(1, 0x2000000000000000)]; addrOf s 1 0 % storeSize .sd = 0 ∧ inImem (addrOf s 1 0)) ∧
    (let s := withX [(1, 0x2000000000014000)]; addrOf s 1 0 % storeSize .sd = 0 ∧ ¬ isGeneric (addrOf s 1 0) ∧ ¬ inImem (addrOf s 1 0) ∧
      ¬ inDmem (addrOf s 1 0)) ∧ s0.fc < 3 ∧ controlCause cALIGN = false := by
  unfold isGeneric inImem inDmem; decide +kernel
theorem wit_CsrSetClear : (1 : Reg) ≠ 0 ∧ (0x0F0 : DWord) ||| (withX [(1, 0xF0)]).rx 1 = 0xF0 ∧ s0.fc = 0 ∧
    ((s0.modTile 0 (fun v => { v with tasks := [(0, some { tk with ssize := 64, sbase := 128 })] })).tile 0).task 0 = some { tk with ssize := 64, sbase := 128 } := by
  decide +kernel
theorem wit_PoisonedStores : mapGet false ({ ck with ipoison := [(0, true)] } : Core).ipoison (0 / 8) = true ∧ ck.imap.getLsbD (0 / 256) = true ∧
    mapGet false ck.ipoison (0xFFFF / 8) = false := by decide +kernel
theorem wit_CsrAccess : (s0.tile s0.ft).task s0.fslot = some tk ∧ tk.ssize = 0 ∧ s0.fc = 0 ∧ s0l.fc ≠ 0 ∧ s0.cur.machine = false ∧
    ((0x300 : BitVec 12).toNat / 256) % 4 = 3 ∧ ((0x8FF : BitVec 12).toNat / 256) % 4 ≠ 3 ∧
    (s0.modCur (fun k => { k with machine := true })).cur.machine = true := by decide +kernel
theorem wit_FencesAndPrivilegedForms : s0.cur.machine = false ∧ (s0.modCur (fun k => { k with machine := true })).cur.machine = true := by
  decide +kernel

/-! ## A tensor, a window and a copy -/

/-- Little-endian fields one after another: width and value. -/
def fields (l : List (Nat × Nat)) : List Byte := (l.map (fun f => leBytes f.1 f.2)).flatten
/-- A row-major FP32 tensor 1 of context 0, 4 by 8, of one page of 64 KiB, read and written. -/
def descT : List Byte :=
  fields [(2, 1), (2, 0), (1, 2), (1, fmtFP32), (1, 0), (1, 0), (1, 0x83), (1, 0), (2, 0), (2, 0), (2, 0), (4, 4), (4, 8), (12, 0), (4, 1), (8, 0),
    (16, 0)]
/-- The state with that tensor and its page, frame 0x20000 of HBM, in the caches. -/
def withTensor (s : State := s0) : State :=
  (s.modPkg (fun p => { p with descCache := [(1, descT)], pteCache := [(2 ^ 32, 0xE000000000020000)] })).modRegs
    (fun r => { r with ctxTable := 1 })
/-- A window of tile 0 with itself: token 8 bytes, capacity 4, two tokens. -/
def win0 : Window :=
  { base := 0, tok := 8, cap := 4, pTile := 0, pPkg := 0, cTile := 0, cPkg := 0, proxy := false, mon := false, pace := false, initial := 0, arc := 0
    wr := 2, rd := 0, occ := 2, lap := 0, laps := 0, cCount := 0, marks := [], tags := [], next := 0, inWord := 0, outWord := 0, launch := none, owner := 0 }
/-- The state with that window as number 5 of tile 0, and its producer's copy. -/
def withWin (x : Window := win0) (s : State := s0) : State := (s.modTile 0 (fun v => v.setWin 5 (some x))).modProd 0 0 5 (fun _ => ⟨2, 0, 2, 0, 0, 2⟩)
/-- A copy of 16 bytes in the unit. -/
def cp0 : Copy :=
  { kind := .copy, slot := 0, core := 0, ticket := 0, ev := false, src := 0, dst := 8, rowBytes := 16, rows := 1, srcPitch := 0, dstPitch := 0
    moved := 0, poisoned := false, held := none, mask := [], after := 0 }
/-- A tensor-mode walk of one step over tensor 1. -/
def cfgT : PortCfg := ⟨false, 0, 0, false, 1, 0, 1, [1], [1], 0⟩
def withPort (p : Nat) (x : Port) (s : State := s0) : State := s.modTile 0 (fun v => v.setPort p x)

/-! ## Witnesses: ports, windows, copies, tags -/

theorem wit_PortConfigure :
    (let s := withWin win0 (withX [(2, 15 + 2 ^ 4 + 2 ^ 9 + 2 ^ 10 * 5)]); s.rn 2 = 15 + 2 ^ 4 * bit01 true + 2 ^ 9 + 2 ^ 10 * 5 ∧ s.rn 1 = 0 ∧
      ((s.tile s.ft).port 15).stat ≠ .streaming ∧ (s.tile s.ft).win 5 = some win0 ∧ win0.tok % 4 = 0) ∧
    (let bs := fields [(1, 0), (1, 0), (1, 0), (1, 1), (2, 1), (2, 0), (2, 1), (6, 0), (4, 1), (12, 0), (8, 0), (8, 0)]
     let s := (withTensor (withX [(2, 0)])).put (spadBase 0) bs
     s.rn 2 = 0 + 2 ^ 4 * bit01 false + 2 ^ 5 * 0 ∧ okIs (readSpad s (s.rn 1) 48 8) bs = true ∧ portDescFail bs 0 0 = none ∧
      descOf s (s.taskCtx s.ft s.fslot) (parseBind bs).tensor = some (parseDesc descT) ∧ (parseDesc descT).pg = (parseBind bs).pageCode) ∧
    (let s := withPort 3 { Port.reset with stat := .streaming } (withX [(2, 3), (1, 3)]); s.rn 2 < 2 ^ 16 ∧ s.rn 2 / 2 ^ 7 % 4 = 0 ∧
      ((s.tile s.ft).port (s.rn 2 % 16)).stat = .streaming ∧ s.rn 1 = 3 + 2 ^ 8 * bit01 false) ∧
    (let s := withPort 15 { Port.reset with stat := .halted } (withX [(1, 0x10F)]); s.rn 1 = 15 + 2 ^ 8 * bit01 true ∧
      ((s.tile s.ft).port 15).stat = .halted ∧ ((s.tile s.ft).port 14).stat = .idle) := by decide +kernel
theorem wit_PortHaltAndStat :
    (let s := withPort 7 { Port.reset with stat := .streaming } (withX [(1, 7), (2, 15), (3, 16)]); s.rn 1 < 16 ∧ s.rn 1 < 8 ∧ s.rn 2 < 16 ∧
      ((s.tile s.ft).port (s.rn 1)).stat ≠ .idle ∧ ((s.tile s.ft).port (s.rn 2)).stat = .idle ∧ 16 ≤ s.rn 3) ∧
    (let pt : Port := { Port.reset with stat := .streaming, cfg := { cfgT with wm := true, win := 5 }, queue := [⟨⟨5, 0⟩, 0, false, 0⟩] }
     let s := withWin { win0 with occ := 4, wr := 0 } (withPort 15 pt (withX [(1, 15)]))
     let s1 := s.modProd 0 0 5 (fun _ => ⟨0, 0, 4, 0, 0, 4⟩)
     8 ≤ s1.rn 1 ∧ ((s1.tile s1.ft).port (s1.rn 1)).stat = .streaming ∧ ((s1.tile s1.ft).port (s1.rn 1)).held = none ∧
      ((s1.tile s1.ft).port (s1.rn 1)).queue ≠ [] ∧ ((s1.tile s1.ft).port (s1.rn 1)).cfg.wm = true ∧
      s1.win s1.ft ((s1.tile s1.ft).port (s1.rn 1)).cfg.win = some { win0 with occ := 4, wr := 0 } ∧ 4 ≤ win0.tok ∧
      freeCount win0 (s1.prod s1.ft s1.ft 5) = 0) ∧
    (let s := withPort 15 { Port.reset with stat := .streaming, cfg := cfgT } (withX [(1, 15)]); 8 ≤ s.rn 1 ∧
      ((s.tile s.ft).port (s.rn 1)).stat ≠ .idle ∧ ((s.tile s.ft).port (s.rn 1)).cfg.wm = false ∧
      portWaits (flushPort s.ft (s.rn 1) 16 s) s.ft (s.rn 1) = false) := by decide +kernel
theorem wit_PortTokens :
    (let s := withPort 7 { Port.reset with stat := .streaming, cfg := cfgT } withTensor; ((s.tile 0).port 7).stat = .streaming ∧
      ((s.tile 0).port 7).queue.length < 16 ∧ ((s.tile 0).port 7).held = none ∧ ((s.tile 0).port 7).cfg.wm = false ∧
      ((s.tile 0).port 7).nextStep < ((s.tile 0).port 7).cfg.total ∧
      okIs (stepOffset s (s.taskCtx 0 (s.slot 0)) ((s.tile 0).port 7).cfg 0 .read) 0 = true ∧
      okIs (xlate s (s.taskCtx 0 (s.slot 0)) 1 0 4 .read kSTREAM 7).res [⟨0x20000, 4⟩] = true) ∧
    (let s := withPort 8 { Port.reset with stat := .streaming, cfg := cfgT, queue := [⟨⟨5, 0⟩, 0, false, 0⟩] } withTensor
     ((s.tile 0).port 8).queue = [⟨⟨5, 0⟩, 0, false, 0⟩] ∧ okIs (stepOffset s (s.taskCtx 0 (s.slot 0)) ((s.tile 0).port 8).cfg 0 .write) 0 = true ∧
      okIs (xlate s (s.taskCtx 0 (s.slot 0)) 1 0 4 .write kSTREAM 8).res [⟨0x20000, 4⟩] = true ∧
      ((s.tile 0).port 8).written + 1 = ((s.tile 0).port 8).cfg.total) := by decide +kernel
theorem wit_WindowMoves :
    (let bs := fields [(4, 64), (2, 7), (2, 4), (2, 0), (1, 0), (1, 0), (2, 0), (1, 0), (1, 0), (2, 0), (2, 0), (12, 0)]
     let s := (withWin win0 (withX [(1, 5), (3, 63), (2, 0x1000)])).put (spadBase 0 + 0x1000) bs
     s.rn 1 = 5 ∧ s.rn 3 = 63 ∧ okIs (readSpad s (s.rn 2) 32 8) bs = true ∧ (s.tile s.ft).win 5 ≠ none ∧ (s.tile s.ft).win 63 = none ∧
      windowFail s s.ft bs = none) ∧
    (let s := withWin win0 (withX [(1, 2 * 2 ^ 48 + 5), (2, 5), (3, 3 * 2 ^ 48 + 5), (4, 2 * 2 ^ 48 + 2 ^ 7 + 5)])
     (winRef (s.taskLaunch s.ft s.fslot) s.ft (s.rn 1)).reserved = false ∧ (winRef (s.taskLaunch s.ft s.fslot) s.ft (s.rn 1)).badTile = false ∧ (winRef (s.taskLaunch s.ft s.fslot) s.ft (s.rn 1)).rel = false ∧
      (winRef (s.taskLaunch s.ft s.fslot) s.ft (s.rn 1)).space = false ∧ (winRef (s.taskLaunch s.ft s.fslot) s.ft (s.rn 1)).rmt = false ∧ (s.tile 0).win 5 = some win0 ∧ win0.pTile = s.ft ∧
      win0.pPkg = s.pkg.num ∧ monitorCheck s s.ft s.fslot 5 (s.rn 1) win0 true 0 2 = none ∧ win0.proxy = false ∧
      (winRef (s.taskLaunch s.ft s.fslot) s.ft (s.rn 1)).n = 2 ∧ 2 ≤ win0.cap - (s.prod s.ft 0 5).occ ∧ 2 ≤ win0.occ ∧ (s.tile s.ft).slotsUsed < 96 ∧
      (winRef (s.taskLaunch s.ft s.fslot) s.ft (s.rn 2)).n = 0 ∧ win0.cap - (s.prod s.ft 0 5).occ < (winRef (s.taskLaunch s.ft s.fslot) s.ft (s.rn 3)).n ∧ win0.occ < (winRef (s.taskLaunch s.ft s.fslot) s.ft (s.rn 3)).n ∧
      (winRef (s.taskLaunch s.ft s.fslot) s.ft (s.rn 4)).rel = true ∧ (winRef (s.taskLaunch s.ft s.fslot) s.ft (s.rn 4)).n = 2 ∧ s.rn 0 = 0 ∧ popInFlight s 5 = false) := by decide +kernel
theorem wit_WindowTests :
    (let s := withWin win0 (withX [(1, 2 * 2 ^ 48 + 5), (2, 3 * 2 ^ 48 + 5), (3, 0xFFFFFFFF), (4, 5), (5, 2 ^ 6 + 5)])
     waitCount s (winRef (s.taskLaunch s.ft s.fslot) s.ft (s.rn 1)) win0 = 2 ∧ (winRef (s.taskLaunch s.ft s.fslot) s.ft (s.rn 1)).n = 2 ∧ (winRef (s.taskLaunch s.ft s.fslot) s.ft (s.rn 2)).n = 3 ∧ s.rn 3 < 2 ^ 32 ∧ s.rn 3 ≠ 0 ∧
      s.rn 0 = 0 ∧ (winRef (s.taskLaunch s.ft s.fslot) s.ft (s.rn 4)).n = 0 ∧ (winRef (s.taskLaunch s.ft s.fslot) s.ft (s.rn 4)).rmt = false ∧ win0.proxy = false ∧ (winRef (s.taskLaunch s.ft s.fslot) s.ft (s.rn 5)).space = true) ∧
    (let s := (withWin win0 (withX [(1, 2 ^ 31 + 5)] (onTile 1 id))).modTile 1 id
     let s1 := { s with focus := (1, 0) }.modCur (fun k => { k with x := [(1, 2 ^ 31 + 5)] })
     (winRef (s1.taskLaunch s1.ft s1.fslot) s1.ft (s1.rn 1)).rmt = true ∧ (winRef (s1.taskLaunch s1.ft s1.fslot) s1.ft (s1.rn 1)).tile = 0 ∧ (winRef (s1.taskLaunch s1.ft s1.fslot) s1.ft (s1.rn 1)).n = 0 ∧
      (s1.tile 0).win 5 = some win0 ∧ { win0 with pTile := 1 }.pTile = s1.ft) ∧
    (let s := withWin win0 ((withX [(11, 3 * 2 ^ 48 + 5), (12, 1)]).modCur (fun k => { k with blocked := true, iword := 0x06C5950B, waited := 1 }))
     ((s.tile 0).core 0).stat = .run ∧ ((s.tile 0).core 0).blocked = true ∧
      decodeFetched ((s.tile 0).core 0).iword ((s.tile 0).core 0).ilen = .rwWait 10 11 12 ∧
      waitCount { s with focus := (0, 0) } (winRef (s.taskLaunch 0 (s.slot 0)) 0 (((s.tile 0).core 0).rx 11).toNat) win0 < 3 ∧
      (((s.tile 0).core 0).rx 12).toNat ≤ ((s.tile 0).core 0).waited ∧ 0 < (((s.tile 0).core 0).rx 12).toNat) := by decide +kernel
theorem wit_WindowMessages :
    (let s := { withWin with msgs := [(5, [⟨true, 1, 3, 0, none⟩, ⟨false, 1, 1, 0, none⟩])] }; (s.tile 0).win 5 = some win0 ∧ win0.proxy = false ∧
      (mapGet [] s.msgs (0 * 64 + 5)).find? (fun m => m.advance) = some ⟨true, 1, 3, 0, none⟩ ∧
      (mapGet [] s.msgs (0 * 64 + 5)).find? (fun m => !m.advance) = some ⟨false, 1, 1, 0, none⟩) ∧
    ((withWin { win0 with proxy := true }).tile 0).win 5 = some { win0 with proxy := true } := by decide +kernel
theorem wit_TileCopyForms :
    (let s := withX [(1, 2 ^ 63 + (2 ^ 24 - 1)), (2, 2 ^ 63), (3, 0x1000), (4, 2 ^ 31 - 1)]
     s.rn 1 = (2 ^ 24 - 1) + 2 ^ 63 * bit01 true ∧ s.rn 2 = 0 + 2 ^ 63 * bit01 true ∧ (s.tile s.ft).slotsUsed < 96 ∧
      (s.rn 0 + 2 ^ 31 - (s.ext s.ft s.fslot).tcNext) % 2 ^ 31 < 2 ^ 30 ∧ 2 ^ 63 ≤ s.rn 2 ∧
      2 ^ 30 ≤ (s.rn 4 + 2 ^ 31 - (s.ext s.ft s.fslot).tcNext) % 2 ^ 31 ∧ (s.tile s.ft).copies = [] ∧ s.rn 4 < 2 ^ 31) ∧
    (let bs := fields [(8, 64), (4, 2 ^ 24 - 1), (4, 65535), (8, 0), (8, 0)]
     let s := (withX [(2, 2 ^ 63), (3, 0x1000)]).put (spadBase 0 + 0x1000) bs
     s.rn 2 = 2 ^ 63 * bit01 true ∧ okIs (readSpad s (s.rn 3) 32 8) bs = true ∧ fieldAt bs 8 4 = 2 ^ 24 - 1 ∧ fieldAt bs 0x0C 4 = 65535) ∧
    (let s := s0.modTile 0 (fun v => { v with copies := [cp0], exts := [(0, { TaskExt.zero with tcNext := 1 })] })
     2 ^ 30 ≤ (s.rn 0 + 2 ^ 31 - (s.ext s.ft s.fslot).tcNext) % 2 ^ 31 ∧ cp0 ∈ (s.tile s.ft).copies ∧ cp0.kind = .copy ∧ cp0.slot = s.fslot ∧
      cp0.ticket = s.rn 0) := by decide +kernel
/-- Memory without poison: a LOCAL range of a copy is clean. -/
theorem clean_of {s : State} (h : s.poison = []) (hq : s.pkg.quarantined = []) (hh : s.hbm = []) (t src sp rows n : Nat) : cleanRows s t src sp rows n := by
  intro r i _ _
  simp [State.poisonAt, h, hq, hh, mapGet, Stack.reset]
/-- Tile 0 with copies in its unit. -/
def withCopies (l : List Copy) (s : State := s0) : State := s.modTile 0 (fun v => { v with copies := l })
def cpRows : Copy := { cp0 with dst := 0x1000, rows := 3, srcPitch := 32, dstPitch := 16 }
def cpPush : Copy := { cp0 with kind := .push 5 1 0, dst := 2, rowBytes := 8, srcPitch := 8 }
def cpPop : Copy := { cp0 with kind := .pop 5, src := 0, dst := 0x1000, rowBytes := 8, rows := 2, dstPitch := 8 }
def cpCast : Copy := { cp0 with kind := .cast 3, dst := 0x1000 }
def cpEdge : Copy := { cp0 with dst := BitVec.ofNat 64 (2 ^ 21 - 16) }
def cpLost : Copy := { cp0 with dst := BitVec.ofNat 64 (2 ^ 61) }
def sPush : State := (withCopies [cpPush] withWin).modProd 0 0 5 (fun _ => ⟨2, 0, 3, 0, 0, 3⟩)
theorem wit_TileCopyCompletes :
    FirstCopy (withCopies [cpEdge]) 0 cpEdge [] 0 0 1 16 ∧ FirstCopy (withCopies [cpRows]) 0 cpRows [] 0 32 3 16 ∧
    FirstCopy sPush 0 cpPush [] 0 win0.tok 1 win0.tok ∧ FirstCopy (withCopies [cpCast]) 0 cpCast [] 0 0 1 16 ∧
    FirstCopy (withCopies [cpLost]) 0 cpLost [] 0 0 1 16 := by
  refine ⟨?_, ?_, ?_, ?_, ?_⟩ <;> constructor <;> decide +kernel
theorem wit_TileCopyCompletes_more :
    (cpEdge.kind = .copy ∧ cpEdge.dstPitch = 0 ∧ cpEdge.dst = BitVec.ofNat 64 (2 ^ 21 - 16)) ∧
    (cpRows.kind = .copy ∧ cpRows.dst = BitVec.ofNat 64 0x1000 ∧ cpRows.dstPitch = ((16 : Nat) : Int)) ∧
    (cpPush.kind = .push 5 1 0 ∧ sPush.win 0 5 = some win0 ∧ win0.proxy = false ∧ 1 ≤ win0.cap) ∧
    (let s := withCopies [cpPop] withWin
     (s.tile 0).copies = cpPop :: [] ∧ cpPop.held = none ∧ cpPop.mask = [] ∧ cpPop.kind = .pop 5 ∧ cpPop.after = 0 ∧ cpPop.rowBytes = win0.tok ∧ s.win 0 5 = some win0 ∧
      2 ≤ win0.cap ∧ win0.base + win0.cap * win0.tok ≤ 2 ^ 21 ∧ cpPop.dst = BitVec.ofNat 64 0x1000 ∧ cpPop.dstPitch = ((win0.tok : Nat) : Int) ∧ s.poison = [] ∧
      (s.ext 0 cpPop.slot).rollback = none) ∧
    (let s := withCopies [cpLost]; ∀ k, k < 17 → trapOf (s.find (copyWho 0 cpLost) cpLost.dst.toNat k .write).res = some ⟨cAPERTURE, 2 ^ 61, kTCOPY + 256, false⟩ ∧
      cAPERTURE ≠ cNOTPRESENT) ∧
    (let s := { withCopies [{ cp0 with dst := 0x1000 }] with poison := [(protWord (spadBase 0), true)] }
     s.poisonAt (spadBase 0 + 0 + 0) = true) := by decide +kernel
theorem wit_WindowBound : WindowBound withWin 0 5 ∧ WindowBound sPush 0 5 := by
  refine ⟨fun x hx _ => ?_, fun x hx _ => ?_⟩
  · have h : (withWin.tile 0).win 5 = some win0 := by decide +kernel
    rw [h] at hx; cases hx; decide +kernel
  · have h : (sPush.tile 0).win 5 = some win0 := by decide +kernel
    rw [h] at hx; cases hx; decide +kernel
theorem wit_WindowBound_steps :
    isNext (exec (.rwPush 1 2) (withWin win0 (withX [(1, 2 * 2 ^ 48 + 5)]))) = true ∧ isNext (exec (.rwPop 1 2) (withWin win0 (withX [(1, 2 * 2 ^ 48 + 5)]))) = true ∧
    isNext (exec (.advanceMessage 0 5) withWin) = true ∧ isNext (exec (.releaseMessage 0 5) withWin) = true ∧ isNext (exec (.tileCopyComplete 0 0) sPush) = true := by
  decide +kernel
theorem wit_PortRefusals :
    (let s := withWin win0 (withX [(2, 15 + 2 ^ 5 * 0 + 2 ^ 9 + 2 ^ 10 * 6), (3, 15 + 2 ^ 5 * 1 + 2 ^ 9 + 2 ^ 10 * 5)])
     s.rn 2 = 15 + 2 ^ 5 * 0 + 2 ^ 9 + 2 ^ 10 * 6 ∧ s.rn 1 = 0 ∧ (s.tile s.ft).win (windowKey (s.taskLaunch s.ft s.fslot) 6) = none ∧
      s.rn 3 = 15 + 2 ^ 5 * 1 + 2 ^ 9 + 2 ^ 10 * 5 ∧ (s.tile s.ft).win (windowKey (s.taskLaunch s.ft s.fslot) 5) = some win0 ∧ (1 : Nat) ≠ 0) ∧
    (let s := withX [(1, 4)]; s.rn 1 < 2 ^ 21 ∧ s.rn 1 % 8 ≠ 0) ∧
    (let bs (dir pg : Nat) : List Byte := fields [(1, 0), (1, 0), (1, dir + 2 * pg), (1, 1), (2, 1), (2, 0), (2, 1), (6, 0), (4, 1), (12, 0), (8, 0), (8, 0)]
     let at' (l : List Byte) := (withX [(2, 0)]).put (spadBase 0) l
     okIs (readSpad (at' (bs 1 0)) 0 48 8) (bs 1 0) = true ∧ portDescFail (bs 1 0) 0 0 ≠ none ∧ portDescFail (bs 0 0) 0 0 = none ∧
      descOf (at' (bs 0 0)) ((at' (bs 0 0)).taskCtx 0 0) 1 = none ∧ portDescFail (bs 0 1) 0 0 = none ∧
      descOf (withTensor (at' (bs 0 1))) ((at' (bs 0 1)).taskCtx 0 0) 1 = some (parseDesc descT) ∧ (parseDesc descT).pg ≠ fieldAt (bs 0 1) 2 1 / 2 % 4) := by decide +kernel
theorem wit_PortTokens_window :
    (let pt : Port := { Port.reset with stat := .streaming, cfg := { cfgT with wm := true, win := 5 }, queue := [⟨⟨5, 0⟩, 0, false, 0⟩] }
     let s := withWin win0 (withPort 15 pt s0)
     8 ≤ 15 ∧ ((s.tile 0).port 15).stat = .streaming ∧ ((s.tile 0).port 15).held = none ∧ ((s.tile 0).port 15).cfg.wm = true ∧
      ((s.tile 0).port 15).queue = [⟨⟨5, 0⟩, 0, false, 0⟩] ∧ s.win 0 ((s.tile 0).port 15).cfg.win = some win0 ∧ win0.outWord + 1 < win0.tok / 4 ∧
      (s.prod 0 0 ((s.tile 0).port 15).cfg.win).occ < win0.cap) ∧
    (let v := (withPort 15 { Port.reset with stat := .streaming, reserved := 1 }).tile 0; 0 < (v.port 15).reserved) ∧
    isNext (exec (.portTokenFetch 0 7) s0) = true := by decide +kernel
theorem wit_TagTable :
    (let s := (withX [(1, 7), (2, 8 * 2 ^ 24 + (2 ^ 21 - 2 ^ 16)), (3, 2 ^ 63), (4, 2), (5, 9 * 2 ^ 24), (6, 8 * 2 ^ 24 + 2 ^ 15), (8, 2 ^ 21),
        (9, 2 ^ 28), (10, 2 ^ 10), (11, 2 ^ 63 + 2)]).modTile 0 (fun v =>
        { v with tasks := [(0, some { tk with tbase := 0, tsize := 2 })], tags := [(0, ⟨true, 7, 0x100⟩)] })
     s.tagRange.2 = 2 ∧ (s.tag 0).valid = true ∧ (s.tag 0).key = s.rx 1 ∧ (s.tag 1).valid = false ∧ s.rn 2 / 2 ^ 28 = 0 ∧ s.rn 2 / 2 ^ 21 % 8 = 0 ∧
      s.rn 2 / 2 ^ 24 = 8 ∧ s.rn 2 % 2 ^ 21 % 2 ^ (8 + 8) = 0 ∧ s.rn 2 % 2 ^ 21 + 2 ^ (8 + 8) = 2 ^ 21 ∧ s.rn 3 = 2 ^ 63 + 0 ∧ s.rn 0 = 0 ∧ s.rn 4 < 1024 ∧
      s.tagRange.2 ≤ s.rn 4 ∧ 8 < s.rn 5 / 2 ^ 24 % 16 ∧ ((s.tag 0).key ≠ s.rx 4 ∧ (s.tag 1).valid = false) ∧ s.rn 6 % 2 ^ 21 % 2 ^ (8 + s.rn 6 / 2 ^ 24) ≠ 0 ∧ s.rn 8 / 2 ^ 21 % 8 ≠ 0 ∧
      s.rn 9 / 2 ^ 28 ≠ 0 ∧ s.rn 10 / 2 ^ 10 % 2 ^ 53 ≠ 0 ∧ s.rn 11 / 2 ^ 10 % 2 ^ 53 = 0 ∧ s.tagRange.2 ≤ s.rn 11 % 2 ^ 10) ∧
    (s0.tagRange.2 = 0) := by decide +kernel
theorem wit_GaForms_cvt :
    (let s := withX [(1, 0x1FFFFF), (2, 2 ^ 60 + 23 * 2 ^ 21 + 0x1FFFFF), (3, 2 ^ 60 + 5), (4, 2 ^ 63), (5, 2 ^ 21), (6, 2 ^ 60 + 24 * 2 ^ 21)]
     s.rn 1 < 2 ^ 21 ∧ s.rn 2 = 2 ^ 60 + 23 * 2 ^ 21 + 0x1FFFFF ∧ 23 ≠ s.ft % 32 ∧ s.rn 3 = 2 ^ 60 + 0 * 2 ^ 21 + 5 ∧ 0 = s.ft % 32 ∧ 2 ^ 63 ≤ s.rn 4 ∧
      2 ^ 21 ≤ s.rn 5 ∧ s.rn 5 < 2 ^ 60 ∧ 2 ^ 60 + 24 * 2 ^ 21 ≤ s.rn 6 ∧ s.rn 6 < 2 ^ 63) := by decide +kernel
theorem wit_GaForms_test : (let s := withX [(1, 4), (2, 5)]; s.rn 1 < 5 ∧ 5 ≤ s.rn 2) := by decide +kernel

/-! ## Futures, groups and events -/

/-- The state with futures of cluster 0, from index 0. -/
def withFut (l : List Fut) (s : State := s0) : State := s.modPkg (fun p => { p with futures := l.zipIdx.map (fun f => (f.2, f.1)), nodes := [(0, 1)] })
def futP : Fut := ⟨0, .pending, 1, [], 0⟩
/-- A KIND 0 continuation of the task in slot 0. -/
def cont0 : Cont := ⟨0, 0, 0, 0, 0, 0, 0, 0⟩
/-- Group 3 of launch 0, members 0 and 1. -/
def grp0 : Grp := ⟨0, 3, [0, 1], false, 65535, [], [], 0⟩
def withGrp (g : Grp) (s : State := s0) : State := s.modPkg (fun p => { p with groups := [(9, some g)] })
/-- A class-3 record of slot 0. -/
def rec0 : EvRec := ⟨3, 0, 0, 7, 9⟩

/-- The value of a table of equal entries. -/
theorem mapGet_replicate {α : Type} (d v : α) (n i : Nat) (h : i < n) (b : Nat) :
    mapGet d ((List.range n).map (fun k => (b + k, v))) (b + i) = v := by
  have key : ∀ (l : List Nat), i ∈ l → mapGet d (l.map (fun k => (b + k, v))) (b + i) = v := by
    intro l
    induction l with
    | nil => simp
    | cons x r ih =>
      intro hm
      by_cases hx : i = x
      · simp [mapGet, hx]
      · have : i ∈ r := by simpa [hx] using hm
        simp [mapGet, hx, ih this]
  exact key _ (by simpa using h)

/-! ## Witnesses: synchronization -/

theorem wit_Atomics :
    (let s := withX [(1, 0x1FFFF8), (2, 0x1FFFF4)]; (4 : BitVec 3).toNat < 5 ∧ okIs (atomicFind s (s.rn 1)).2 (spadBase 0 + 0x1FFFF8) = true ∧
      s.rn 1 % 8 = 0 ∧ s.rn 1 < 2 ^ 21 ∧ s.poisonIn (spadBase s.ft + s.rn 1) 8 = false ∧ 5 ≤ (5 : BitVec 3).toNat ∧ s.rn 2 % 8 ≠ 0) := by
  decide +kernel
theorem wit_BindingsAndLocks :
    (let bs := fields [(8, 0x100), (8, 64), (1, 0), (1, 4), (6, 0), (8, 0x200)]
     let s := ((withX [(1, 15), (2, 0), (3, 16), (4, 1)]).put (spadBase 0) bs).modExt 0 0 (fun e => { e with binds := [(1, ⟨0, 8, 2, 0, 0⟩), (15, ⟨0, 8, 0, 0, 0x200⟩)] })
     s.rn 1 < 16 ∧ okIs (readSpad s (s.rn 2) 32 8) bs = true ∧ bindingFail bs = none ∧ (parseBinding bs).obj.toNat % 8 = 0 ∧
      (gaddr (parseBinding bs).base.toNat).isSome = true ∧
      (let bs' := fields [(8, 2 ^ 61), (8, 64), (1, 0), (1, 4), (6, 0), (8, 0x200)]
       okIs (readSpad (s.put (spadBase 0) bs') (s.rn 2) 32 8) bs' = true ∧ bindingFail bs' = none ∧ gaddr (parseBinding bs').base.toNat = none) ∧
      (mapGet Binding.zero (s.ext s.ft s.fslot).binds (s.rn 1)).kind = 0 ∧ (mapGet Binding.zero (s.ext s.ft s.fslot).binds (s.rn 1)).len ≠ 0 ∧
      okIs (atomicFind s (mapGet Binding.zero (s.ext s.ft s.fslot).binds (s.rn 1)).obj.toNat).2 (spadBase 0 + 0x200) = true ∧
      s.homeNat (spadBase 0 + 0x200) 8 = 0 ∧ (s.put (spadBase 0 + 0x200) [1]).homeNat (spadBase 0 + 0x200) 8 = (s.taskLidx s.ft s.fslot + 1) % 2 ^ 64 ∧
      (mapGet Binding.zero (s.ext s.ft s.fslot).binds (s.rn 4)).kind ≠ 0 ∧ (mapGet Binding.zero (s.ext s.ft s.fslot).binds 7).len = 0 ∧ 16 ≤ s.rn 3) := by decide +kernel
theorem wit_Fences : (4 : BitVec 3).toNat < 5 ∧ (5 : BitVec 5).toNat < 6 ∧ (0 : BitVec 5).toNat < 6 ∧ 5 ≤ (7 : BitVec 3).toNat ∧
    (let w : PWrite := ⟨5, [1, 2], .tile 0 0, 0, none, 0, false, [], [], 0, none, []⟩
     ({ s0 with writes := [w, { w with addr := 7 }] } : State).writes[0]? = some w ∧ (observerNo 23).has (.tile 1 1) = true ∧ w.covers 6 = true ∧
      ∀ v ∈ ({ s0 with writes := [w, { w with addr := 7 }] } : State).writes.drop 1, v.covers 6 = false) := by decide +kernel
theorem wit_Fences_acquired :
    (let w : PWrite := ⟨5, [1, 2], .tile 1 1, 2, some (1, 0), 0, false, [], [], 0, none, [(0, 0)]⟩
     (s0.ft, s0.fslot) ∈ w.acquired ∧ inScope s0.ft 3 (.tile 2 0) = true ∧ (∀ u ∈ ([w] : List PWrite), u.reach = []) ∧ w.divisible = true ∧
      w.cls ≠ kSTREAM ∧ hostLink w.addr = none ∧ (observerNo 23).shows (.tile 1 1) = true ∧
      ({ w with cls := kSCALAR } : PWrite).divisible = false) ∧ (0 : BitVec 5) ≠ 1 := by decide +kernel
theorem wit_WriteThenRead : (let w : PWrite := ⟨5, [1], .tile 0 0, 0, none, 0, false, [], [], 0, none, []⟩; 0 < w.bytes.length ∧ w.seenBy (.tile 0 0) = true ∧
    w.seenBy (.tile 1 0) = false ∧ ({ w with reach := [.one (.tile 2 0)] } : PWrite).touches w.addr w.bytes.length = true ∧
    ({ w with reach := [.one (.tile 2 0)] } : PWrite).unseen w = false) := by decide +kernel
theorem wit_SteepingForms :
    (let s := withX [(1, 0xFFFF), (2, 0xFFFFFFFF), (3, 0xFFFFFFFFFFFF), (4, 2 ^ 32), (5, 2 ^ 16), (6, 2 ^ 48)]; s.fc = 0 ∧ s.rn 2 < 2 ^ 32 ∧
      s.rn 1 < 2 ^ 16 ∧ s.rn 3 < 2 ^ 48 ∧ 2 ^ 32 ≤ s.rn 4 ∧ 2 ^ 16 ≤ s.rn 5 ∧ 2 ^ 48 ≤ s.rn 6 ∧ s0l.fc ≠ 0) := by decide +kernel
theorem wit_FutureSetting :
    (let s := withFut [{ futP with conts := [cont0] }, { futP with stat := .ready, gen := 2047 }] (withX [(1, 2 ^ 21), (2, 2047 * 2 ^ 21 + 1), (3, 2 ^ 21 + 5)])
     okIs (handleCheck s (s.rn 1) true .write) ⟨1, 0, 0⟩ = true ∧ okIs (handleCheck s (s.rn 1) false .write) ⟨1, 0, 0⟩ = true ∧
      okIs (handleCheck s (s.rn 2) true .write) ⟨2047, 0, 1⟩ = true ∧ (s.fut 0).stat = .pending ∧ (s.fut 1).stat ≠ .pending ∧ (s.fut 1).gen = 2047 ∧
      (s.fut 0).conts = [cont0] ∧ cont0.kind = 0 ∧ contAlive s cont0 = true ∧ (s.tile cont0.tile).events.length < 256 ∧
      (s.tile cont0.tile).pending = [] ∧ s.cur.blocked = false ∧ s.rn 1 < 2 ^ 63 ∧ (s.fut (s.ft / 32 * 4096 + 2)).stat = .empty ∧ (s.fut 1).conts = [] ∧
      trapOf (handleCheck s (s.rn 3) false .read) = some ⟨cSTALE, 2 ^ 21 + 5, 1, false⟩) := by decide +kernel
theorem wit_FutureSetting_waits :
    (let s := (withFut [futP] (withX [(1, 2 ^ 21)])).modTile 0 (fun v =>
       { v with ldr := { v.ldr with blocked := true, x := [(11, 2 ^ 21)], iword := 0x06C5852B } })
     okIs (handleCheck s (s.rn 1) false .write) ⟨1, 0, 0⟩ = true ∧ s.cur.blocked = false ∧ ((s.tile 0).core 1).blocked = true ∧
      ((s.tile 0).core 1).stat = .run ∧ ((s.tile 0).core 1).machine = false ∧
      decodeFetched ((s.tile 0).core 1).iword ((s.tile 0).core 1).ilen = .fuWait 10 11 12 ∧
      (handleOf (((s.tile 0).core 1).rx 11).toNat).word = (⟨1, 0, 0⟩ : Handle).word ∧
      mapGet false ((s.modPkg (fun p => { p with futPoison := [(0, true)] })).pkg).futPoison 0 = true) := by decide +kernel
theorem wit_FutureSetting_none : let s := s0.modPkg (fun p => { p with futures := (List.range 4096).map (fun k => (0 + k, futP)) })
    ∀ i, i < 4096 → (s.fut (0 / 32 * 4096 + i)).stat ≠ .empty := by
  intro s i h
  have := mapGet_replicate Fut.reset futP 4096 i h 0
  simp only [State.fut, s, State.modPkg]
  rw [show 0 / 32 * 4096 + i = 0 + i by omega, this]
  decide
theorem wit_FutureWaiting :
    (let s := withFut [futP, { futP with stat := .ready }, { futP with stat := .poisoned }] (withX [(1, 2 ^ 21), (2, 2 ^ 21 + 1), (3, 2 ^ 21 + 2), (4, 0xFFFFFFFF), (5, 2 ^ 32), (6, 2 ^ 62 + 2 ^ 21)])
     okIs (handleCheck s (s.rn 1) false .read) ⟨1, 0, 0⟩ = true ∧ okIs (handleCheck s (s.rn 2) false .read) ⟨1, 0, 1⟩ = true ∧
      okIs (handleCheck s (s.rn 3) false .read) ⟨1, 0, 2⟩ = true ∧ s.rn 4 < 2 ^ 32 ∧ 2 ^ 32 ≤ s.rn 5 ∧ (s.fut 0).stat = .pending ∧ (s.fut 1).stat = .ready ∧
      (s.fut 2).stat = .poisoned ∧ s.rn 6 = 1 * 2 ^ 62 + 2 ^ 21 ∧ s.rn 0 = 0 * 2 ^ 62 + 0 ∧ s.task s.ft s.fslot = some tk ∧ tk.stat ≠ .ended ∧
      s.nodesUsed 0 < 8192 ∧ 8192 ≤ (s.setNodes 0 8192).nodesUsed 0 ∧ (s.tile s.ft).events.length < 256 ∧ (s.tile s.ft).pending = [] ∧
      (handleOf (2 ^ 21)).live s = true ∧ (s.fut (handleOf (2 ^ 21)).key).conts = []) ∧
    (let s := withFut [futP] ((withX [(11, 2 ^ 21), (12, 1)]).modCur (fun k => { k with blocked := true, iword := 0x06C5852B, waited := 1 }))
     ((s.tile 0).core 0).blocked = true ∧ ((s.tile 0).core 0).stat = .run ∧
      decodeFetched ((s.tile 0).core 0).iword ((s.tile 0).core 0).ilen = .fuWait 10 11 12 ∧ (handleOf (((s.tile 0).core 0).rx 11).toNat).live s = true ∧
      (s.fut (handleOf (((s.tile 0).core 0).rx 11).toNat).key).stat = .pending ∧ 0 < (((s.tile 0).core 0).rx 12).toNat ∧
      (((s.tile 0).core 0).rx 12).toNat ≤ ((s.tile 0).core 0).waited) := by decide +kernel
theorem wit_GroupBarriers :
    (let s := withGrp grp0 (withX [(1, 3), (2, 255), (3, 256)]); s.fc = 0 ∧ s.rn 1 < 256 ∧ groupOf s (s.taskLaunch s.ft s.fslot) (s.rn 1) = some (9, grp0) ∧
      s.taskLidx s.ft s.fslot ∈ grp0.members ∧ grp0.debugHeld = false ∧ arrivedAt s (s.rn 1) = none ∧ castsOut s (s.rn 1) = false ∧
      (1 ∈ grp0.members ∧ 1 ≠ s.taskLidx s.ft s.fslot ∧ 1 ∉ grp0.arrived ∧ 1 ∉ grp0.ended) ∧
      (∀ m ∈ ({ grp0 with ended := [1] }).members, m = s.taskLidx s.ft s.fslot ∨ m ∈ ({ grp0 with ended := [1] }).arrived ∨ m ∈ ({ grp0 with ended := [1] }).ended) ∧
      groupOf s (s.taskLaunch s.ft s.fslot) (s.rn 2) = none ∧ 256 ≤ s.rn 3 ∧ s0l.fc ≠ 0 ∧
      groupOf (withGrp { grp0 with members := [1] } s) (s.taskLaunch s.ft s.fslot) (s.rn 1) = some (9, { grp0 with members := [1] }) ∧
      s.taskLidx s.ft s.fslot ∉ ({ grp0 with members := [1] } : Grp).members ∧
      castsOut (s.modTile 0 (fun v => { v with copies := [{ cp0 with kind := .cast 3 }] })) (s.rn 1) = true ∧
      arrivedAt (s.modExt 0 0 (fun e => { e with arrived := [(3, some 65535)] })) (s.rn 1) = some 65535 ∧
      arrivedAt (s.modExt 0 0 (fun e => { e with arrived := [(3, some 65534)] })) (s.rn 1) = some 65534) ∧
    (let s := withGrp { grp0 with arrived := [0] } (((withX [(11, 3), (12, 1)]).modCur (fun k => { k with blocked := true, iword := 0x04C5952B, waited := 1 })).modExt 0 0
        (fun e => { e with arrived := [(3, some 65535)] }))
     (s.tile 0).ctl.blocked = true ∧ (s.tile 0).ctl.stat = .run ∧ decodeFetched (s.tile 0).ctl.iword (s.tile 0).ctl.ilen = .grBar 10 11 12 ∧
      groupOf s (s.taskLaunch 0 (s.slot 0)) (((s.tile 0).ctl.rx 11).toNat % 256) = some (9, { grp0 with arrived := [0] }) ∧
      mapGet none (s.ext 0 (s.slot 0)).arrived (((s.tile 0).ctl.rx 11).toNat % 256) = some 65535 ∧ 0 < ((s.tile 0).ctl.rx 12).toNat ∧
      ((s.tile 0).ctl.rx 12).toNat ≤ (s.tile 0).ctl.waited) := by decide +kernel
theorem wit_GroupCast :
    (let s := withGrp grp0 (withX [(1, 65536 * 2 ^ 40 + 0x1F0000 * 2 ^ 8 + 3), (2, 0 * 2 ^ 40 + 3), (3, 65536 * 2 ^ 40 + 0x1F0001 * 2 ^ 8 + 3)])
     s.fc = 0 ∧ s.rn 1 = 65536 * 2 ^ 40 + 0x1F0000 * 2 ^ 8 + 3 ∧ groupOf s (s.taskLaunch s.ft s.fslot) 3 = some (9, grp0) ∧
      s.taskLidx s.ft s.fslot ∈ grp0.members ∧ 0x1F0000 + 65536 = 2 ^ 21 ∧ (s.tile s.ft).slotsUsed < 96 ∧ s.rn 2 = 0 * 2 ^ 40 + 0 * 2 ^ 8 + 3 ∧
      s.rn 3 = 65536 * 2 ^ 40 + 0x1F0001 * 2 ^ 8 + 3 ∧
      96 ≤ ((s.modTile 0 (fun v => { v with copies := List.replicate 96 cp0 })).tile 0).slotsUsed) := by decide +kernel
theorem wit_EventForms :
    (let s := (withX [(1, 0x1FFFF0 + 2 ^ 24 * 0), (2, 1), (3, 127), (4, 2 ^ 24 * 1)]).modTile 0 (fun v => { v with events := [rec0] })
     s.fc = 0 ∧ s.rn 1 = 0x1FFFF0 + 2 ^ 24 * 0 ∧ (taskRecords (s.tile s.ft) s.fslot)[0]? = some (rec0, 0) ∧
      (taskRecords (s.tile s.ft) s.fslot).length ≤ s.rn 2 ∧ s.rn 4 = 0 + 2 ^ 24 * 1 ∧ s.rn 3 < 128 ∧ bitOf (s.rn 3) rec0.cls = true ∧
      (∀ r ∈ (s.tile s.ft).events, r.slot = s.fslot → bitOf (s.rn 2) r.cls = false) ∧ s.rn 0 = 0 ∧ s.rn 2 ≠ 0) ∧
    (let s := ((withX [(11, 1), (12, 1)]).modCur (fun k => { k with blocked := true, iword := BitVec.ofNat 32 (leNat ((encode (.evWait 10 11 12)).getD [])), waited := 1 }))
     (s.tile 0).ctl.blocked = true ∧ (s.tile 0).ctl.stat = .run ∧ decodeFetched (s.tile 0).ctl.iword (s.tile 0).ctl.ilen = .evWait 10 11 12 ∧
      (s.tile 0).events = [] ∧ 0 < ((s.tile 0).ctl.rx 12).toNat ∧ ((s.tile 0).ctl.rx 12).toNat ≤ (s.tile 0).ctl.waited) ∧
    (let s := s0.modTile 0 (fun v => { v with pending := [rec0, { rec0 with tag := 8 }], events := List.replicate 255 rec0 })
     (s.tile 0).pending[1]? = some { rec0 with tag := 8 } ∧ (s.tile 0).events.length < 256 ∧
      (∀ q ∈ (s.tile 0).pending.take 1, sameSource q { rec0 with tag := 8 } = false)) := by decide +kernel
theorem wit_BreakTraps :
    (let s := (withX [(1, 0xFFFF), (2, 2 ^ 16)]).modTile 0 (fun v => { v with csr := { v.csr with tvec := 0x101 } })
     s.rn 1 = 0xFFFF ∧ s.fc = 0 ∧ (s.tile s.ft).csr.tvec.getLsbD 0 = true ∧ (s.tile s.ft).csr.tstat.getLsbD 0 = false ∧ (s.tile s.ft).traps = [] ∧
      (s.tile s.ft).copies = [] ∧ 2 ^ 16 ≤ s.rn 2 ∧ { s with focus := (0, 2) }.fc = 2) ∧
    (s0.fc < 3 ∧ (s0.tile s0.ft).csr.tvec.getLsbD 0 = false) := by decide +kernel
theorem wit_TrapEntryAndReturn :
    (let s := s0.modTile 0 (fun v => { v with csr := { v.csr with tvec := 0x101 }, traps := [(⟨1, 0, 0, 0⟩, 2)], ctl := { v.ctl with stat := .ended } })
     (s.tile 0).traps = [(⟨1, 0, 0, 0⟩, 2)] ∧ (s.tile 0).csr.tvec.getLsbD 0 = true ∧ (s.tile 0).csr.tstat.getLsbD 0 = false ∧
      (s.tile 0).ctl.stat ≠ .faulted ∧ (s.tile 0).ctl.stat ≠ .held ∧ (s.tile 0).copies = []) ∧
    (let s := s0.modTile 0 (fun v => { v with csr := { v.csr with tstat := 0x131 } })
     s.fc = 0 ∧ (s.tile s.ft).csr.tstat.getLsbD 0 = true ∧ (s.tile s.ft).csr.tstat.toNat / 2 ^ 4 % 4 = 3 ∧ (s.ext s.ft s.fslot).rollback = none ∧
      (s.tile s.ft).traps = [] ∧ ∃ x ∈ ((s.modTile 0 (fun v => { v with traps := [(⟨1, 0, 0, 0⟩, 3)] })).tile 0).traps, x.2 = 3) ∧
    (s0.tile s0.ft).csr.tstat.getLsbD 0 = false := by decide +kernel

/-! ## A configuration of one element, and a matrix-mode one -/

/-- A region of one element at (0, 0), one row; a matrix-mode region. -/
def hdr1 : RegionHdr := ⟨0, 0, 1, false, 0, 0, 1, 1, 1, 2, 0⟩
def hdrM : RegionHdr := ⟨0, 0, 1, true, 0, 0, 16, 16, 0, 3, 4⟩
/-- CONST with immediate 7 in UINT32, no route. -/
def wordC : ElemWord := BitVec.ofNat 96 (opCONST * 2 ^ 88 + 48 * 2 ^ 82 + 49 * 2 ^ 76 + 49 * 2 ^ 70 + fmtINT32 * 2 ^ 59 + 7 * 2 ^ 33)
/-- Tile 0 with a fabric on plane 0 and regions. -/
def withFab (h : RegionHdr) (words : List (Nat × ElemWord)) (steps : List QWord) (g : List Region) (s : State := s0) : State :=
  s.modTile 0 (fun v => { v with fabric := { v.fabric with plane0 := { v.fabric.plane0 with regions := [h], words := words, steps := steps }, active := some 0, regions := g } })
/-- A context that runs, in its first pass; the region at row 0 with its boundary's work done. -/
def lcRun : LoopCtx := { LoopCtx.reset with stat := .running, sv := 1 }
def reg1 : Region := { Region.reset with ctxs := [lcRun, LoopCtx.reset, LoopCtx.reset, LoopCtx.reset], ready := true }
def sf : State := withFab hdr1 [(0, wordC)] [] [reg1]
/-- A block at row 0 of the given step rows. -/
def withMx (rows : List StepRow) (words : List (Nat × ElemWord) := []) (s : State := s0) : State :=
  (withFab hdrM words (rows.map encodeStepRow) [] s).modTile 0 (fun v => { v with mx := { v.mx with busy := true } })

/-- A whole staged plane whose port 0 is bound to tensor 1 with another page size. -/
def pageBad : State :=
  let bs := fields [(1, 0), (1, 0), (1, 2), (1, 1), (2, 1), (2, 0), (2, 1), (6, 0), (4, 1), (12, 0), (8, 0), (8, 0)]
  ((withTensor (withFab hdr1 [(0, wordC)] [] [Region.reset])).modTile 0 (fun v => { v with fabric := { v.fabric with staged := true, plane1 := { v.fabric.plane1 with regions := [hdr1], conf := 0 } } })).modPkg (fun p => { p with containers := [(0, [⟨2, 0, 0, bs⟩])] })

/-- An image of 4 by 4 elements whose one row is all NOP, behind a list that names it; and a result of a check that answers a value. -/
def imgList : List Byte := fields ([(1, 1), (3, 0), (4, 64), (56, 0), (1, 0), (1, 0), (1, 1), (1, 0), (1, 0), (1, 0), (1, 4), (1, 4), (1, 1), (1, 0), (1, 0), (1, 0),
  (4, 32), (4, 160), (4, 8), (4, 0), (4, 0)] ++ List.replicate 16 (8, 1) ++ [(4, 0), (4, 0)])
def isOk {α : Type} : Except Trap α → Bool
  | .ok _ => true
  | .error _ => false

/-! ## Witnesses: the fabric and the matrix path -/

theorem wit_PlaneSwap_list :
    (let s := (withX [(1, 2 ^ 63), (2, 2 ^ 63 + 4), (3, 256), (4, 2 ^ 63 + 2 ^ 21), (5, 2 ^ 63 + 2), (6, 2 ^ 63 + 2 ^ 21 - 4)]).put (spadBase 0) imgList
     s.fc = 0 ∧ s.rn 1 = 2 ^ 63 + 0 ∧ isOk (listImgs s 0) = true ∧ (s.tile s.ft).fabric.expanding = false ∧ s.rn 2 = 2 ^ 63 + 4 ∧
      isOk (listImgs s 4) = false ∧ s.rn 3 < 2 ^ 63 ∧ 256 ≤ s.rn 3 ∧ 2 ^ 63 + 2 ^ 21 ≤ s.rn 4 ∧ s.rn 5 = 2 ^ 63 + 2 ∧ 2 % 4 ≠ 0 ∧
      s.rn 6 = 2 ^ 63 + (2 ^ 21 - 4) ∧ (s.byteAt (.tile s.ft 0) (spadBase s.ft + (2 ^ 21 - 4))).toNat = 0 ∧
      (∀ i, i < 4 → s.poisonAt (spadBase s.ft + (2 ^ 21 - 4) + i) = false) ∧
      isOk (listImgs (s.modTile 0 (fun v => { v with fabric := { v.fabric with expanding := true } })) 0) = true) := by decide +kernel

theorem wit_PlaneSwap :
    (let s := (withX [(1, 255), (2, 0)]).modPkg (fun p => { p with containers := [(0, [⟨1, 0, 0, []⟩])] }); s.fc = 0 ∧ s.rn 1 < 256 ∧ s.rn 2 < 256 ∧
      confSections s.myContainer (s.rn 2) ≠ [] ∧ confSections s.myContainer (s.rn 1) = [] ∧ (s.tile s.ft).fabric.expanding = false ∧
      (s.tile s.ft).fabric.staged = false ∧
      ((s.modTile 0 (fun v => { v with fabric := { v.fabric with expanding := true } })).tile 0).fabric.expanding = true) ∧
    (let w : Word := BitVec.ofNat 32 (leNat ((encode (.fbSwap 5)).getD []))
     let s := sf.modTile 0 (fun v => { v with fabric := { v.fabric with staged := true }, ctl := { v.ctl with blocked := true, iword := w } })
     (s.tile 0).fabric.staged = true ∧ (s.tile 0).fabric.expanding = false ∧ quiescent (s.tile 0) = false ∧ (s.tile 0).ctl.blocked = true ∧
      (s.tile 0).ctl.stat = .run ∧ decodeFetched (s.tile 0).ctl.iword (s.tile 0).ctl.ilen = .fbSwap 5 ∧
      quiescent ((s.modTile 0 (fun v => { v with fabric := { v.fabric with regions := [Region.reset] } })).tile 0) = true ∧
      stagedPageFail s s.ft s.fslot = false ∧ stagedPageFail s 0 (s.slot 0) = false) ∧
    stagedPageFail pageBad pageBad.ft pageBad.fslot = true ∧ stagedPageFail pageBad 0 (pageBad.slot 0) = true ∧
    (pageBad.tile 0).fabric.staged = true ∧ (pageBad.tile 0).fabric.expanding = false ∧ quiescent (pageBad.tile 0) = true := by decide +kernel
theorem wit_FabricRunning :
    (let s := withFab hdr1 [(0, wordC)] [] [reg1] (withX [(1, 15), (2, 2 ^ 40 - 1)]); s.fc = 0 ∧ s.rn 1 < 16 ∧ (s.tile s.ft).fabric.active ≠ none ∧
      (s.tile s.ft).fabric.matrix = false ∧ (s.tile s.ft).fabric.regions[0]? = some reg1 ∧ (s.tile s.ft).fabric.act.regions[0]? = some hdr1 ∧
      reg1.ready = true ∧ reg1.ctxs[0]? = some lcRun ∧ lcRun.stat = .running ∧ s.rn 2 < 2 ^ 40 ∧ mapGet none (s.tile s.ft).fabric.ct 3 = none ∧
      mapGet none (s.tile s.ft).fabric.sk 3 = none) ∧
    ((s0.tile 0).fabric.active = none) ∧ ((withMx [.fin]).tile 0).fabric.matrix = true ∧ s0l.fc ≠ 0 ∧
    (let s := s0.modTile 0 (fun v => { v with fabric := { v.fabric with ct := [(2, some ⟨1, 2⟩)], sk := [(1, some ⟨3, 4⟩)] } })
     mapGet none (s.tile s.ft).fabric.ct 2 ≠ none ∧ mapGet none (s.tile s.ft).fabric.sk 1 = some ⟨3, 4⟩) := by decide +kernel
/-- A row of one word: an element at (0, 0), or at (15, 15) where a route south reaches port 12. -/
def rowWord (o sa fmt cv rest : Nat) : ElemWord := BitVec.ofNat 96 (o * 2 ^ 88 + sa * 2 ^ 82 + 49 * 2 ^ 76 + 49 * 2 ^ 70 + fmt * 2 ^ 59 + cv * 2 ^ 49 + rest)
def rowEnv1 (s : State) (h : RegionHdr) : RowEnv := rowEnv s 0 (s.tile 0) [] h 0 0 lcRun
def hdr15 : RegionHdr := { hdr1 with orow := 15, ocol := 15 }
/-- MOV from port 0 with HARM; CONST whose result goes south; a trapping NEG of an EMPTY entry; EPS. -/
def sPort : State := (withFab hdr1 [(0, rowWord opMOV 32 fmtINT32 0 1)] [] [reg1]).modTile 0 (fun v =>
  v.setPort 0 { v.port 0 with stat := .streaming, queue := [⟨⟨1, 4⟩, 0, false, 0⟩, ⟨⟨2, 4⟩, 0, false, 1⟩], nextStep := 2 })
def sDrive : State := (withTensor (withFab hdr15 [(0 * 256 + 15 * 16 + 15, rowWord opCONST 48 fmtFP32 0 (7 * 2 ^ 33 + (8 + 2) * 2 ^ 12 + 1))] [] [reg1])).modTile 0 (fun v =>
  v.setPort 12 { v.port 12 with stat := .streaming, cfg := { PortCfg.empty with tensor := 1, counts := [4] } })
def sTrap : State := withFab hdr1 [(0, rowWord 0x16 0 fmtINT32 0 0)] [] [reg1]
def sDraw : State := (withFab hdr1 [(0, rowWord opEPS 0 fmtFP32 0 0)] [] [reg1]).modTile 0 (fun v =>
  { v with tables := 3, fabric := { v.fabric with live := [(0, 1)], rot := [(0, ⟨5, 4⟩)] } })
theorem wit_FabricRows_stands : RowStands sf 0 0 0 reg1 hdr1 lcRun ∧ RowStands sPort 0 0 0 reg1 hdr1 lcRun ∧ RowStands sTrap 0 0 0 reg1 hdr1 lcRun ∧
    RowStands sDrive 0 0 0 reg1 hdr15 lcRun := by
  refine ⟨?_, ?_, ?_, ?_⟩ <;> constructor <;> decide +kernel
theorem wit_FabricRows :
    ((rowEnv1 sf hdr1).isReady (rowEnv1 sf hdr1).execRow = true ∧ drawsTables (rowEnv1 sf hdr1).execRow = false ∧
      (∀ o ∈ (rowEnv1 sf hdr1).execRow, o.trap = none) ∧ (rowEnv1 sf hdr1).portsRead (rowEnv1 sf hdr1).execRow = []) ∧
    (let s := withFab hdr1 [(0, rowWord opMOV 32 fmtINT32 0 1)] [] [reg1]
     (rowEnv1 s hdr1).isReady (rowEnv1 s hdr1).execRow = false) ∧
    ((rowEnv1 sPort hdr1).isReady (rowEnv1 sPort hdr1).execRow = true ∧ (rowEnv1 sPort hdr1).portsRead (rowEnv1 sPort hdr1).execRow = [0] ∧
      (∀ o ∈ (rowEnv1 sPort hdr1).execRow, o.trap = none) ∧ ((sPort.tile 0).port 0).cfg.wm = false ∧ ((sPort.tile 0).port 0).queue.tail ≠ []) ∧
    ((rowEnv1 sDrive hdr15).isReady (rowEnv1 sDrive hdr15).execRow = true ∧
      ((rowEnv1 sDrive hdr15).execRow.map (rowEnv1 sDrive hdr15).drives).flatten = [12]) ∧
    ((rowEnv1 sTrap hdr1).isReady (rowEnv1 sTrap hdr1).execRow = true ∧ ((rowEnv1 sTrap hdr1).execRow.map (fun o => o.trap.isSome)) = [true] ∧
      (sTrap.tile 0).tables ≠ 3 ∧ (rowEnv1 sTrap hdr1).portsRead (rowEnv1 sTrap hdr1).execRow = []) := by decide +kernel
theorem wit_FabricRows_more :
    (∀ y ∈ Region.reset.ctxs, y.stat ≠ .running ∧ y.stat ≠ .draining ∧ y.starting = false ∧ y.resuming = false) ∧
    (let g : Region := { reg1 with ready := false, passEnd := true, ctxs := [{ lcRun with stat := .draining, drained := 15 }] }
     let x : InFlight := ⟨0, 0, none, 1, 2, ⟨5, 6⟩, 0⟩
     let s := (withFab hdr1 [(0, wordC)] [] [g]).modTile 0 (fun v => { v with fabric := { v.fabric with flight := [x] } })
     (s.tile 0).fabric.regions[0]? = some g ∧ g.ready = false ∧ (s.tile 0).fabric.flight.filter (fun y => y.region == 0 && y.left == 0) = [x] ∧
      x.port = none ∧ { x with port := some 8 }.val.tag ≠ 0 ∧ g.passEnd = true ∧ g.ctxs[0]? = some { lcRun with stat := .draining, drained := 15 } ∧
      (∀ y ∈ ((withFab hdr1 [] [] [g]).tile 0).fabric.flight, y.region = 0 → y.ctx = 0 → y.val.tag = 0)) := by decide +kernel
/-- A word that draws is ready and traps nowhere; with both table copies failing nothing of it issues. -/
theorem wit_FabricRows_draw : (sDraw.tile 0).tables = 3 ∧ (rowEnv1 sDraw hdr1).isReady (rowEnv1 sDraw hdr1).execRow = true ∧
    drawsTables (rowEnv1 sDraw hdr1).execRow = true := by decide +kernel
theorem wit_MatrixBlocks :
    (let s := withMx [.fin] [] (withX [(1, 0 + 2 ^ 32 * 7), (2, 7)]); s.fc = 0 ∧ s.rn 1 = 0 + 2 ^ 32 * (7 : Word).toNat ∧
      (s.tile s.ft).fabric.active ≠ none ∧ (s.tile s.ft).fabric.matrix = true ∧ 0 < (s.tile s.ft).fabric.act.steps.length ∧
      (s.tile s.ft).mx.busy = true ∧ (s.tile s.ft).mx.wind = none ∧ { (s.tile s.ft).mx with wind := some ⟨2, 0, SteepKeys.zero⟩ }.wind = some ⟨2, 0, SteepKeys.zero⟩ ∧ s.rn 2 < 2 ^ 32 ∧ (s.tile 0).stepRow = some .fin ∧ (s.tile 0).events.length < 256 ∧ (s.tile 0).pending = []) ∧
    (let s := (withX [(2, 7)]).modTile 0 (fun v => { v with events := [⟨4, 0, 3, 7, 0⟩] }); (s.tile s.ft).mx.busy = false ∧
      (s.tile s.ft).fabric.active = none ∧ (s.tile s.ft).events[0]? = some ⟨4, 0, 3, 7, 0⟩ ∧ (7 : Word) = BitVec.ofNat 32 (s.rn 2) ∧
      (s.tile s.ft).pending = [] ∧ (s0.tile 0).events = []) ∧
    ((withMx [.loop 0 1 3 0 0 0 0 0 0]).tile 0).stepRow = some (.loop 0 1 3 0 0 0 0 0 0) ∧
    (let s := withMx [.zero 1008 15 1]; (s.tile 0).stepRow = some (.zero 1008 15 1) ∧ (s.tile 0).mx.wind = none ∧ okIs ((s.tile 0).effAcc 1008 15) 1008 = true) ∧
    ((withMx [.wait 1 0 0 0 0 0]).tile 0).stepRow = some (.wait 1 0 0 0 0 0) ∧
    (let s := (withMx [.wait 0 0 0 0 0 1]).modTile 0 (fun v => { v with mx := { v.mx with prog := ⟨0, 256, some (1, 0)⟩ } })
     (s.tile 0).stepRow = some (.wait 0 0 0 0 0 1) ∧ okIs ((s.tile 0).effAcc 0 0) 0 = true ∧ okIs ((s.tile 0).rowPeer 0 0) (1, 0) = true ∧
      (1 : BitVec 24).toNat * 256 ≤ (s.tile 0).mx.prog.waited) ∧
    (let s := (withMx [.drain 1 1 0 0 0 fmtFP32 0 0 0 1]).modTile 0 (fun v => { v with mx := { v.mx with prog := ⟨0, 257, some (1, 0)⟩ } })
     (s.tile 0).stepRow = some (.drain 1 1 0 0 0 fmtFP32 0 0 0 1) ∧ (1 : BitVec 24).toNat * 256 < (s.tile 0).mx.prog.waited) := by decide +kernel
/-- An unfold descriptor of a 1 by 1 input of one channel and a 1 by 1 kernel, in BF16. -/
def unf : List Byte := fields [(4, 0x1000), (1, fmtBF16), (1, 0), (2, 1), (2, 1), (2, 1), (1, 1), (1, 1), (1, 1), (1, 0), (48, 0)]
theorem wit_MatrixRows_step :
    (let s := (withMx [.step 0 0 1023 0 0 0 0]).put (spadBase 0) unf
     (s.tile 0).stepRow = some (.step 0 0 1023 0 0 0 0) ∧ (s.tile 0).mx.wind = none ∧ okIs ((s.tile 0).effAcc 1023 0) 1023 = true ∧
      okIs (readUnfold s 0 0) (parseUnfold unf) = true ∧
      (match stepInterval s 0 0 false (parseUnfold unf) 0 0 1023 with | .ok _ => true | .error _ => false) = true) := by decide +kernel
theorem wit_MatrixRows_moves :
    (let s := withMx [.load 0 8176 fmtFP32 0]; (s.tile 0).stepRow = some (.load 0 8176 fmtFP32 0) ∧ (s.tile 0).mx.wind = none ∧
      okIs (effSpad (8176 * 256) 4096 .read) (2 ^ 21 - 4096) = true ∧ s.poison = [] ∧ s.pkg.quarantined = [] ∧
      (s.tile 0).fabric.act.words = []) ∧
    (let s := withMx [.steep 0 0 1 fmtBF16 0 0 0]; (s.tile 0).stepRow = some (.steep 0 0 1 fmtBF16 0 0 0) ∧
      okIs (effSpad 0 (16 * (16 * kPrime fmtBF16 * fmtBytes fmtPW32)) .read) 0 = true) ∧
    (let s := withMx [.drain 0 1 0 0 32767 fmtFP32 0 0 0 0]; (s.tile 0).stepRow = some (.drain 0 1 0 0 32767 fmtFP32 0 0 0 0) ∧
      okIs ((s.tile 0).effAcc 0 0) 0 = true ∧ (32767 + 0) * 64 + (0 + 1) * 64 = 2 ^ 21 ∧
      okIs (drainBytes ((s.tile 0).accRow 0) fmtFP32 0 false) (List.replicate 64 0) = true) ∧
    (let s := (withMx [.drain 1 0 0 0 0 fmtFP32 0 0 3 0]).modTile 0 (fun v => { v with mx := { v.mx with prog := ⟨0, 0, some (1, 3)⟩ } })
     okIs ((s.tile 0).rowPeer 0 3) (1, 3) = true ∧ mapGet false s.pkg.quarantined 1 = false) ∧
    (let d := (withMx [.drain 1 1 0 0 0 fmtFP32 0 0 0 0]).modTile 0 (fun v => { v with mx := { v.mx with prog := ⟨0, 0, some (1, 2)⟩ } })
     let w := (withMx [.wait 0 0 0 2 0 0]).modTile 0 (fun v => { v with mx := { v.mx with prog := ⟨0, 0, some (0, 0)⟩ } })
     let s := d.modTile 1 (fun _ => w.tile 0)
     1 ≠ 0 ∧ (s.tile 1).stepRow = some (.wait 0 0 0 2 0 0) ∧ (s.tile 1).mx.prog.peer = some (0, 0) ∧ (s.tile 1).mx.wind = none ∧ (s.tile 0).mx.wind = none ∧
      (s.tile 0).stepRow = some (.drain 1 1 0 0 0 fmtFP32 0 0 0 0) ∧ (s.tile 0).mx.prog.peer = some (1, (2 : BitVec 2).toNat) ∧
      okIs ((s.tile 1).effAcc 0 0) 0 = true ∧ okIs ((s.tile 0).effAcc 0 0) 0 = true ∧ ((s.tile 0).accRow 0).int32 = ((s.tile 1).accRow 0).int32) := by
  decide +kernel

/-! ## Sections, remote commands, token rows, infuser commands -/

/-- An explicit section, opened at the first form with rd x10. -/
def sect0 : Sect :=
  { (default : Sect) with serial := 3, explicit := true, savedX := [(1, 5)], savedPc := 0x2000000000000004, beginRd := 10 }
def withExt (f : TaskExt → TaskExt) (s : State := s0) : State := s.modExt 0 0 f
/-- A command of that section, not complete. -/
def xcmd0 : XcCmd := { (default : XcCmd) with op := 1, inSect := some 3 }
/-- The remote descriptor of class 3 to package 1, at LOCAL 0x100. -/
def xcBytes : List Byte := fields [(8, 0x100), (1, 1), (1, 3), (2, 4095), (2, 7), (2, 0), (8, 2 ^ 47 - 8), (8, 0)]
def withXc (s : State := s0) : State := s.put (spadBase 0) xcBytes

theorem wit_Sections :
    (s0.fc = 0 ∧ (s0.ext s0.ft s0.fslot).sect = none) ∧
    (let s := withExt (fun e => { e with sect := some sect0, cmds := [xcmd0] })
     s.fc = 0 ∧ (s.ext s.ft s.fslot).sect = some sect0 ∧ (s.ext s.ft s.fslot).rollback = none ∧
      (∃ c ∈ (s.ext s.ft s.fslot).cmds, c.inSect = some sect0.serial ∧ c.done = false)) ∧
    (let s := withExt (fun e => { e with sect := some sect0, cmds := [{ xcmd0 with done := true }] })
     (∀ c ∈ (s.ext s.ft s.fslot).cmds, c.inSect = some sect0.serial → c.done = true) ∧ sect0.decided = false ∧ sect0.targets = []) ∧
    (let x := { sect0 with targets := [1, 63] }
     let y := { x with decided := true, pendingAck := [63] }
     x.targets ≠ [] ∧ y.pendingAck ≠ [] ∧ (let s := withExt (fun e => { e with sect := some y })
       ∀ c ∈ (s.ext s.ft s.fslot).cmds, c.inSect = some y.serial → c.done = true)) ∧
    (let s := withExt (fun e => { e with sect := some sect0 })
     (s.ext 0 0).sect = some sect0 ∧ (s.ext 0 0).rollback = none ∧ (s.tile 0).resident = some 0 ∧ (s.tile 0).csr.tstat.getLsbD 0 = false ∧
      (s.tile 0).popping 0 = false ∧ (s.tile 0).ctl.stat ≠ .faulted) ∧
    (let s := (withExt (fun e => { e with sect := some sect0 })).modTile 0 (fun v => { v with copies := [{ (default : Copy) with kind := .pop 5 }] })
     (s.ext 0 0).sect = some sect0 ∧ (s.ext 0 0).rollback = none ∧ (s.tile 0).resident = some 0 ∧ (s.tile 0).popping 0 = true) ∧
    (let s := withExt (fun e => { e with implicit := some { sect0 with explicit := false } })
     (s.ext 0 0).sect = none ∧ (s.ext 0 0).implicit = some { sect0 with explicit := false }) := by decide +kernel
theorem wit_RemoteCommands :
    (let s := withXc (withX [(2, 2 ^ 20), (3, 8 + 2 ^ 56 * 6 + 2 ^ 63), (4, 2 ^ 63)])
     s.rn 2 = 2 ^ 20 + 2 ^ 56 * 0 + 2 ^ 63 * bit01 false ∧ s.rn 3 = 8 + 2 ^ 56 * 6 + 2 ^ 63 * bit01 true ∧ s.rn 4 = 2 ^ 63 * bit01 true ∧
      okIs (readSpad s (s.rn 1) 32 8) xcBytes = true ∧ xcFail s xcBytes = none ∧ (s.ext s.ft s.fslot).rollback = none ∧
      (s.ext s.ft s.fslot).sect = none ∧ (s.ext s.ft s.fslot).section' false = none ∧ fieldAt xcBytes 0x10 8 % redBytes 6 = 0 ∧
      fieldAt xcBytes 0 8 % redBytes 6 = 0 ∧ 8 % redBytes 6 = 0 ∧ fieldAt xcBytes 0x10 8 % 8 = 0 ∧
      okIs (resolve s s.ft (s.taskCtx s.ft s.fslot) (fieldAt xcBytes 0 8) (2 ^ 20) .read kXCOPY 0).res [⟨spadBase 0 + 0x100, 2 ^ 20⟩] = true ∧
      s.poison = [] ∧ xcFail s (fields [(8, 0x100), (1, 0)]) = some 64) ∧
    (let s := withExt (fun e => { e with sect := some { sect0 with count := 63, bytes := 2 ^ 20 - 8 } }) (withXc (withX [(3, 8)]))
     (s.ext s.ft s.fslot).sect.isSome = true ∧
      (∀ x, (s.ext s.ft s.fslot).section' true = some x → (x.count < 64 ∧ x.bytes + 8 ≤ 2 ^ 20) ∧ x.decided = false ∧
        ∀ y ∈ (s.ext s.ft s.fslot).cmds, y.inSect = some x.serial → y.op ≠ 0 → y.done = false → y.pkg = fieldAt xcBytes 8 1 ∧ y.cls = fieldAt xcBytes 9 1)) := by
  refine ⟨by decide +kernel, by decide +kernel, ?_⟩
  intro x h
  have : some { sect0 with count := 63, bytes := 2 ^ 20 - 8 } = some x := h
  cases this
  exact ⟨by decide, by decide, fun y hy => nomatch hy⟩
/-- A framing descriptor: rows of 16 bytes at 0x1000, the vector at 0x2000, class 1. -/
def frBytes : List Byte := fields [(8, 0x1000), (4, 16), (4, 0x2000), (1, 0), (1, 64), (1, 1), (13, 0)]
/-- A route word to package 5, die 23, row 3 and column 7 of it, window 9, token 2. -/
def route5 : Nat := 2 * 2 ^ 48 + 5 * 2 ^ 34 + 23 * 2 ^ 29 + 3 * 2 ^ 25 + 7 * 2 ^ 20 + 9 * 2 ^ 14
def rowsOf (s : State) (l : List Nat) : List RowDest :=
  (dedupRows (acceptedRows s (s.taskLaunch s.ft s.fslot) l) []).map (fun r => r.1)
def fill1 : RowFill := ⟨5, 23, 1, 16, 0, [(0, [(1, false)])], []⟩
theorem wit_TokenRows :
    (let s := ((withX [(2, 1), (3, 2)]).put (spadBase 0) frBytes).put (spadBase 0 + 0x2000) (leBytes 8 route5 ++ leBytes 8 route5)
     let x := parseFrameDesc frBytes
     s.rn 2 = 1 + 2 ^ 63 * bit01 false ∧ s.rn 3 = 2 ∧ okIs (readSpad s (s.rn 1) 32 8) frBytes = true ∧ frameDescFail frBytes = none ∧
      x.vec + 8 * 1 ≤ 2 ^ 21 ∧ x.base + x.rowBytes * 1 ≤ 2 ^ 21 ∧ s.poison = [] ∧ x.cells = false ∧ s.net.fills = [] ∧
      leNat (s.bytesAt (.engine ((s.pkg.num + 4 * x.cls) % 16)) (spadBase s.ft + x.vec) 8) = route5 ∧
      rowDest s (s.taskLaunch s.ft s.fslot) route5 = some ⟨5, 23 * 512 + 3 * 32 + 7, 9⟩ ∧ (5 : Nat) ≠ s.pkg.num ∧
      rowWindow s (s.taskLaunch s.ft s.fslot) ⟨5, 23 * 512 + 3 * 32 + 7, 9⟩ = none ∧
      rowsCheck s (s.taskLaunch s.ft s.fslot) x.rowBytes (rowsOf s [route5]) 0 = none ∧ rowsBehind s (s.taskLaunch s.ft s.fslot) x.rowBytes x.cls (rowsOf s [route5]) = false ∧
      rowsCheck s (s.taskLaunch s.ft s.fslot) x.rowBytes (rowsOf s [route5, route5]) 0 = none ∧ rowsBehind s (s.taskLaunch s.ft s.fslot) x.rowBytes x.cls (rowsOf s [route5, route5]) = false ∧ (rowsOf s [route5, route5]).length = 1 ∧
      rowsOf s [24 * 2 ^ 29] = [] ∧ rowsCheck s (s.taskLaunch s.ft s.fslot) x.rowBytes [] 0 = none) ∧
    (let s := s0.modNet (fun n => { n with fills := [fill1] })
     s.net.fills[0]? = some fill1) := by decide +kernel
/-- A compute-capable striped tensor of 8 tokens of 16 BF16 lanes, over banks by 4, and a page of it in stack 0. -/
def descK (n : Nat) : List Byte :=
  fields [(2, n), (2, 0), (1, 2), (1, fmtBF16), (1, 3), (1, 1), (1, 0x8F), (1, 0), (2, 4), (2, 32), (2, 0), (4, 8), (4, 16), (12, 0), (4, 1), (8, 0),
    (16, 0)]
def withKV (s : State) : State :=
  (s.modPkg (fun p => { p with descCache := [(1, descK 1), (2, descK 2)], pteCache := [(2 ^ 32, 0xF000000000200000), (2 ^ 33, 0xF000000000400000)] })).modRegs
    (fun r => { r with ctxTable := 1 })
/-- A query block and an append block over tensors 1 and 2 from bank 1020. -/
def nbQ : List Byte := fields [(1, 1), (1, fmtBF16), (2, 16), (2, 1), (2, 2), (2, 1020), (2, 0), (4, 0), (4, 8), (4, 0x3F800000), (8, 0x100), (8, 0x1000), (24, 0)]
def nbA : List Byte := fields [(1, 2), (1, fmtBF16), (2, 16), (2, 1), (2, 2), (2, 1020), (2, 0), (4, 7), (4, 1), (4, 0), (8, 0x100), (8, 0x140), (24, 0)]
def nbState (bs : List Byte) (ctl : Nat) (q : List NbProg) : State :=
  (((withKV (withX [(1, 0x400), (2, 2 ^ 63)])).put (spadBase 0 + 0x400) bs).modDie 0 (fun x => { x with nbqCtl0 := BitVec.ofNat 64 ctl })).modStack 0
    (fun x => { x with queue := q })
/-- A query of tile 0 over banks 4 to 7, and an append. -/
def cmdQ : NbCmd := { (default : NbCmd) with isQuery := true, fmt := fmtBF16, dim := 16, banks := 4, stride := 32, b0 := 4, count := 8, ev := true, result := 0x1000 }
def cmdA : NbCmd := { cmdQ with isQuery := false }
def prog0 (c : NbCmd) : NbProg := ⟨c, [], [], false, false, none⟩
def withNb (p : NbProg) (s : State := s0) : State := s.modStack 0 (fun x => { x with queue := [p] })
theorem wit_InfuserCommands_post :
    (∀ q : Bool, let bs := if q then nbQ else nbA
     let s := nbState bs 256 []
     let x := parseNb bs
     s.rn 2 = (if q then 0 + 2 ^ 62 * bit01 false else 0) + 2 ^ 63 * bit01 true ∧ s.rn 1 % 64 = 0 ∧ spadOperand (s.rn 1) = some 0x400 ∧
      x = parseNb (s.bytesAt (nbReader s q 0x400) (spadBase s.ft + 0x400) 64) ∧ nbFail q x = none ∧ nbReach s q x = (s, none) ∧
      descOf s (s.taskCtx s.ft s.fslot) x.kTensor = some (parseDesc (descK 1)) ∧
      descOf s (s.taskCtx s.ft s.fslot) x.vTensor = some (parseDesc (descK 2)) ∧
      nbMatch s x (parseDesc (descK 1)) (parseDesc (descK 2)) (s.rn 1) = none ∧ s.poison = [] ∧
      stackOf (frameOf s (s.taskCtx s.ft s.fslot) (parseDesc (descK 1))) = 0 ∧ bitOf (nbqCtl s 0) 8 = true ∧ (s.stack 0).queue.length < 512) ∧
    bitOf (nbqCtl (nbState nbQ 0 []) 0) 8 = false ∧
    512 ≤ ((nbState nbQ 256 (List.replicate 512 (prog0 cmdQ))).stack 0).queue.length ∧
    (let s := (withX [(1, 47)]); s.rn 1 < 48 ∧ appendsOut s (s.rn 1) = false) ∧
    (let s := (withX [(1, 0)]).modStack 0 (fun x => { x with queue := [prog0 cmdA] }); s.rn 1 < 48 ∧ appendsOut s (s.rn 1) = true) := by decide +kernel
theorem wit_InfuserCommands_run :
    (let s := s0.modStack 0 (fun x => { x with queue := [prog0 cmdQ] })
     (s.stack 0).queue.findIdx? (fun p => p.pendingAt 7) = some 0 ∧ (s.stack 0).queue[0]? = some (prog0 cmdQ) ∧
      ((s.stack 0).bank 7).refreshDue = false ∧ ((s.stack 0).bank 7).ordinary = 0 ∧ mapGet false (s.stack 0).down 7 = false ∧
      (prog0 cmdQ).cmd.isQuery = true ∧ (s.stack 1).queue = [] ∧ (∀ x ∈ (prog0 cmdQ).keyed, x.1 ≠ 7 - cmdQ.b0) ∧ (prog0 cmdQ).done = []) ∧
    (let p := { prog0 cmdQ with keyed := [(3, [], [])] }; p.keyed.find? (fun x => x.1 == 7 - p.cmd.b0) = some (7 - p.cmd.b0, [], []) ∧
      p.pendingAt 7 = true) ∧
    (let p := { prog0 cmdQ with done := [(0, .empty 16 0), (1, .empty 16 0), (2, .empty 16 0), (3, .empty 16 0)] }
     let bs := ((List.range p.cmd.banks).map (fun j => resBytes p.cmd.dim (p.res j))).flatten
     let s := s0.modStack 0 (fun x => { x with queue := [p] })
     p.whole = true ∧ p.held = none ∧ bs.length = 320 ∧
      okIs (resolve s p.cmd.tile p.cmd.ctx p.cmd.result.toNat bs.length .write kINFUSER 0).res [⟨spadBase 0 + 0x1000, 320⟩] = true ∧
      p.cmd.future = none ∧ p.cmd.ev = true ∧ nbAlive s p.cmd true = true ∧ (s.tile p.cmd.tile).events.length < 256 ∧
      (s.tile p.cmd.tile).pending = []) := by decide +kernel
/-- An append of token 7 at bank 7, its rows at slots of two frames, and its second slice. -/
def cmdB : NbCmd := { cmdA with t0 := 7, count := 1, kFrame := 0x200000, vFrame := 0x400000, vec := List.replicate 32 1, vec2 := List.replicate 32 2 }
theorem wit_InfuserCommands_append :
    (let s := withNb (prog0 cmdB)
     (s.stack 0).queue.findIdx? (fun p => p.pendingAt 7) = some 0 ∧ (s.stack 0).queue[0]? = some (prog0 cmdB) ∧ ((s.stack 0).bank 7).refreshDue = false ∧
      ((s.stack 0).bank 7).ordinary = 0 ∧ cmdB.isQuery = false ∧ mapGet false (s.stack 0).down 7 = false ∧ (∀ x ∈ (prog0 cmdB).keyed, x.1 ≠ 7 - cmdB.b0) ∧
      nbAlive s cmdB true = true ∧ (s.tile cmdB.tile).events.length < 256 ∧ (s.tile cmdB.tile).pending = []) ∧
    (let p := { prog0 cmdB with keyed := [(3, [], [])] }
     let s := withNb p
     (s.stack 0).queue.findIdx? (fun p => p.pendingAt 7) = some 0 ∧ (∃ x ∈ p.keyed, x.1 = 7 - cmdB.b0) ∧ p.failed = false ∧ p.poisoned = false ∧ cmdB.ev = true ∧
      cmdB.kFrame + cmdB.slotAt cmdB.t0 + cmdB.vec.length ≤ cmdB.vFrame + cmdB.slotAt cmdB.t0 ∧
      s.poisonIn (cmdB.kFrame + cmdB.slotAt cmdB.t0) cmdB.beatLen = false ∧ s.poisonIn (cmdB.vFrame + cmdB.slotAt cmdB.t0) cmdB.beatLen = false ∧
      (s.die 0).errInj = 0) ∧
    mapGet false ((s0.modStack 0 (fun x => { x with down := [(7, true)] })).stack 0).down 7 = true := by decide +kernel
/-- R375: −∞ and 2 above −2, a NaN score, and a NaN maximum; and a score of a NaN scale. -/
theorem wit_InfuserCommands_fold :
    ((decodeLane fmtFP32 0xC0000000).isNan = false ∧ (decodeLane fmtFP32 0x7FC00000).isNan = true ∧
      decodeLane fmtFP32 0xFF800000 = .inf true ∧ (decodeLane fmtFP32 0xFF800000).lt (decodeLane fmtFP32 0xC0000000) = true ∧
      (decodeLane fmtFP32 0xC0000000).lt (decodeLane fmtFP32 0x40000000) = true ∧
      (decodeLane fmtFP32 0x40000000).lt (decodeLane fmtFP32 0xC0000000) = false) ∧
    scoreOf fmtBF16 0x3F000000 (leBytes 2 0x4040) (leBytes 2 0xBF80) = 0xBFC00000 ∧
    scoreOf fmtBF16 0x7FC00000 (leBytes 2 0x4040) (leBytes 2 0xBF80) = BitVec.ofNat 32 (genNan fmtFP32 2) ∧
    isNan fmtFP32 (rn32 (productSum [(decodeLane fmtBF16 0x7FC0, decodeLane fmtBF16 0x3F80)])) = true := by decide +kernel

/-! ## A launch of three actors: a compute actor between a source and a sink of rows -/

/-- Actor 0 of two phases reads arc 0 from source 1 and feeds arc 1 to sink 2, one token of 32 bytes each. -/
def graphBytes : List Byte :=
  fields [(2, 0), (2, 3), (2, 2), (1, 1), (9, 0)] ++
    fields [(1, 0), (1, 2), (2, 0), (2, 0), (2, 0)] ++ fields [(1, 1), (1, 1), (2, 0), (2, 0), (2, 0)] ++ fields [(1, 2), (1, 1), (2, 0), (2, 0), (2, 0)] ++
    fields [(2, 1), (2, 0), (2, 31), (2, 4), (2, 0), (4, 0), (2, 0)] ++ fields [(2, 0), (2, 2), (2, 31), (2, 4), (2, 0), (4, 0), (2, 0)] ++
    fields [(2, 1), (30, 0), (2, 1), (2, 1), (28, 0)] ++ fields [(2, 1), (2, 1), (28, 0), (2, 1), (30, 0)]
/-- One sequencing entry for actor 0, phase 0: control core at 0x10, storer at 0x20; and one for phase 1 that starts the loader. -/
def seqBytes : List Byte :=
  fields [(2, 0), (1, 0), (1, 255), (1, 255), (1, 255), (2, 0), (2, 0x10), (2, 0xFFFF), (2, 0x20), (2, 0)] ++
    fields [(2, 0), (1, 1), (1, 255), (1, 255), (1, 255), (2, 0), (2, 0xFFFF), (2, 0), (2, 0xFFFF), (2, 0)]
def contG : List NofSection := [⟨3, 0, 0, seqBytes⟩, ⟨7, 0, 0, graphBytes⟩]
def bindT (x : Nat) : Bind := { (default : Bind) with actor := x, tensor := 1, origin := [0, 0], extent := [4, 8] }
def launch0 : Launch := { (default : Launch) with stat := .running, binds := [bindT 1, bindT 2], arcTile := [(0, 0), (1, 0)] }
/-- A window of tile 0 with itself: tokens of 32 bytes, capacity 4. -/
def wn (base occ : Nat) : Window := { win0 with base := base, tok := 32, wr := occ, occ := occ }
/-- The state with that launch, running, and its two windows. -/
def withL (a b : Nat) (s : State := s0) : State :=
  ((withTensor s).modPkg (fun p => { p with containers := [(0, contG)], launches := [(0, some launch0)] })).modTile 0
    (fun v => { (v.setWin 0 (some (wn 0x4000 a))).setWin 1 (some (wn 0x8000 b)) with prods := [(0, ⟨a, 0, a, 0, 0, a⟩), (1, ⟨b, 0, b, 0, 0, b⟩)] })
def firing0 : Firing := ⟨0, 0, 5, 0⟩

/-! ## Witnesses: system forms, tasks, memory actors -/

theorem wit_SystemForms :
    (s0.fc = 0 ∧ (s0.ext s0.ft s0.fslot).sect = none ∧ s0.cur.stat = .run) ∧
    (s0.fc = 0 ∧ ∀ x ∈ readySlots (markReady s0 s0.ft) s0.ft, x.1 = s0.fslot) ∧
    (let s := (withL 0 0).modTile 0 (fun v => { v with tasks := [(0, some tk), (7, some { tk with lidx := 5, stat := .ready })] })
     s.fc = 0 ∧ (s.tile s.ft).resident = some s.fslot ∧ s.task s.ft s.fslot = some tk ∧ tk.stat = .resident ∧
      (∃ x ∈ readySlots (markReady s s.ft) s.ft, x.1 ≠ s.fslot ∧ x.2.prio ≤ tk.prio) ∧ savable (s.tile s.ft) s.fslot = true) := by decide +kernel
/-- An open section with a command to package 1 in class 3, and its decided form. -/
theorem wit_SystemForms_section :
    (let s := withExt (fun e => { e with sect := some sect0, cmds := [{ xcmd0 with pkg := 1, cls := 3 }] })
     s.fc = 0 ∧ (s.ext s.ft s.fslot).sect = some sect0 ∧ sect0.decided = false ∧ (s.tile 0).wins = [] ∧
      (∃ c ∈ (s.ext s.ft s.fslot).cmds, c.inSect = some sect0.serial ∧ c.op ≠ 0)) ∧
    (let x := { sect0 with decided := true }
     let s := withExt (fun e => { e with sect := some x }); (s.ext s.ft s.fslot).sect = some x ∧ x.decided = true) := by decide +kernel
/-- A firing whose storer has ended, of an actor that owes its consumed token on arc 0. -/
theorem wit_SystemForms_rate :
    (let k := { tk with firing := some firing0 }
     let s := (withL 1 3).modTile 0 (fun v => { v.setWin 0 (some { wn 0x4000 1 with mon := true }) with tasks := [(0, some k)], sto := { v.sto with stat := .ended } })
     s.fc = 0 ∧ s.task s.ft s.fslot = some k ∧ k.firing = some firing0 ∧ (∀ j, j < 3 → j ≠ 0 → bitOf firing0.named j = true → ((s.tile 0).core j).stat = .ended) ∧
      (s.tile 0).traps = [] ∧ quiescent (s.tile 0) = true ∧ (s.tile 0).copies = [] ∧ (s.tile 0).fabric.ports = [] ∧ (s.ext 0 0).cmds = [] ∧
      (s.ext 0 0).sect = none ∧ (s.ext 0 0).rollback = none ∧ (shortfall s 0 k).map (fun t => t.cause) = some cRATE) := by decide +kernel
theorem wit_SystemForms_spawn :
    (let s := withL 0 0 (withX [(1, 2 ^ 16 * 3), (2, 9)])
     s.fc = 0 ∧ s.rn 1 = 0 + 2 ^ 16 * 3 ∧ ((seqEntries s.myContainer)[0]?).map (fun y => (y.starts 0, y.starts 1, y.starts 2)) = some (true, false, true) ∧
      (s.ext s.ft s.fslot).spawns < 256 ∧ (newFuture s s.ft (s.taskLaunch s.ft s.fslot)).map (·.1) = some ⟨1, 0, 0⟩) := by decide +kernel
theorem wit_SystemForms_select :
    (let s := (withX [(1, 7), (2, 128), (3, 129)]).modLext 0 (fun e => { e with buckets := [(7, 0, 128, 3), (7, 1, 64, 2)] })
     s.rn 1 < 8 ∧ (7, 0, 128, 3) ∈ (s.lext (s.taskLaunch s.ft s.fslot)).buckets ∧ s.rn 2 ≤ 128 ∧
      (∀ r' ∈ (s.lext (s.taskLaunch s.ft s.fslot)).buckets, r'.1 = s.rn 1 → s.rn 2 ≤ r'.2.2.1 → r' = (7, 0, 128, 3) ∨ 128 < r'.2.2.1) ∧
      ((seqEntries s.myContainer)[3]?).bind (fun e => if e.region = 0xFF then none else regionConf s.myContainer e.region) = none ∧
      (∀ r ∈ (s.lext (s.taskLaunch s.ft s.fslot)).buckets, r.1 = s.rn 1 → r.2.2.1 < s.rn 3) ∧
      (∀ r ∈ (s.lext (s.taskLaunch s.ft s.fslot)).buckets, r.1 ≠ 6)) := by decide +kernel
/-- A bucket whose target names a region, of configuration 9. -/
theorem wit_SystemForms_staged :
    (let s := ((withL 0 0 (withX [(1, 7), (2, 128)])).modLext 0 (fun e => { e with buckets := [(7, 0, 128, 0)] })).modPkg
       (fun p => { p with containers := [(0, [⟨3, 0, 0, fields [(2, 0), (1, 0), (1, 255), (1, 2), (11, 0)]⟩, ⟨1, 0, 2, List.replicate 16 9⟩])] })
     s.rn 2 ≤ 128 ∧ (s.lext (s.taskLaunch s.ft s.fslot)).buckets = [(s.rn 1, 0, 128, 0)] ∧ ((seqEntries s.myContainer)[0]?).bind
       (fun e => if e.region = 0xFF then none else regionConf s.myContainer e.region) = some 9 ∧ (s.tile s.ft).fabric.expanding = false) := by
  decide +kernel
theorem wit_SystemForms_part :
    (let s := (withL 0 0).modLext 0 (fun e => { e with due := 1 })
     s.fc = 0 ∧ s.task s.ft s.fslot = some tk ∧ (s.ext s.ft s.fslot).sect = none ∧ (s.lext tk.launch).due = 1 ∧ (s.ext s.ft s.fslot).part = 0 ∧
      (s.lext tk.launch).complete = 0 ∧ ((s.modTile 0 (fun v => { v with mx := { v.mx with busy := true } })).tile s.ft).mx.busy = true ∧ (s.launch tk.launch).map (fun l => l.stat) = some .running ∧ (s.tile s.ft).mx.busy = false ∧
      (s.ext s.ft s.fslot).implicit = none) := by decide +kernel
theorem wit_SystemForms_other : s0l.fc ≠ 0 ∧ ∀ k f, s0l.task s0l.ft s0l.fslot = some k → k.firing = some f → f.ctl = true := by
  refine ⟨by decide +kernel, ?_⟩
  intro k f h hf
  have h0 : s0l.task s0l.ft s0l.fslot = some tk := by decide +kernel
  rw [h0] at h
  cases h
  cases hf
theorem wit_SystemForms_end : ∀ t w x, s0.win t w = some x → x.mon = false := by
  intro t w x h
  have h0 : s0.win t w = none := by
    show mapGet none ((mapGet Tile.reset s0.tiles t).wins) w = none
    have : s0.tiles = [(0, s0.tile 0)] := by decide +kernel
    rw [this]
    unfold mapGet
    by_cases ht : (0 : Nat) = t
    · subst ht
      have : (s0.tile 0).wins = [] := by decide +kernel
      simp [this, mapGet]
    · simp only [mapGet]; rw [if_neg (fun e => ht e.symm)]; rfl
  rw [h0] at h
  cases h
theorem wit_TaskSteps :
    (let s := withL 1 3
     s.task 0 0 = some tk ∧ (s.tile 0).resident = some 0 ∧ tk.stat = .resident ∧ enabled s 0 0 = true ∧ nextEntry s tk = some 0 ∧
      (seqEntries (s.container tk.container))[0]?.isSome = true ∧ (s.tile 0).traps = []) ∧
    (let k := { tk with firing := some firing0 }
     let s := (withL 1 3).modTile 0 (fun v => { v with tasks := [(0, some k)], ctl := { v.ctl with stat := .ended }, sto := { v.sto with stat := .ended } })
     s.task 0 0 = some k ∧ k.firing = some firing0 ∧ firingQuiet s 0 0 firing0 = true ∧ shortfall s 0 k = none ∧ (s.ext 0 0).implicit = none ∧
      k.spawned = false ∧ lastFiring s k = false ∧ firing0.ctl = true ∧
      (shortfall (s.modTile 0 (fun v => v.setWin 0 (some { wn 0x4000 1 with mon := true }))) 0 k).isSome = true) ∧
    (let s := (withL 0 0).modTile 0 (fun v => { v with resident := none, tasks := [(7, some { tk with stat := .ready })] })
     (s.tile 0).resident = none ∧ choose (markReady s 0) 0 = some 7 ∧ (markReady s 0).task 0 7 = some { tk with stat := .ready } ∧
      (s.lext tk.launch).serial = none ∧ (s.die 0).errInj = 0) ∧
    (let k := { tk with stat := .ready, aged := 2 ^ 16, prio := 3 }
     let s := (withL 0 0).modTile 0 (fun v => { v with tasks := [(0, some k)] }); s.task 0 0 = some k ∧ k.stat = .ready ∧ 2 ^ 16 ≤ k.aged ∧ 0 < k.prio) ∧
    (let k := { tk with frame := some 3 }
     let s := ((withL 0 0).modTile 0 (fun v => { v with tasks := [(0, some k)], copies := [{ cp0 with held := some default }] })).modDie 0
       (fun x => { x with swapCtl := 1 }) |>.modExt 0 0 (fun e => { e with heldFor := 2 })
     (s.tile 0).resident = some 0 ∧ s.task 0 0 = some k ∧ (s.tile 0).taskHeld = true ∧ (s.die (0 / 512)).swapCtl.toNat % 2 ^ 24 = 1 ∧
      (s.ext 0 0).heldFor = 2 ∧ (s.tile 0).wasOut 0 = false ∧ savable (s.tile 0) 0 = true ∧ k.frame = some 3 ∧
      (let s := (s.modTile 0 (fun v => { v with tasks := [(0, some tk)] })).modDie 0 (fun x => { x with ctxfPool := BitVec.ofNat 64 (2 * 2 ^ 52) })
       tk.frame = none ∧ s.pkg.round = none ∧ 0 < framePool s 0 ∧ 0 ∉ usedFrames s 0)) ∧
    (let r : SpawnReq := ⟨2 ^ 31, 0, 0, 1, 9, 2 ^ 21, 0, none⟩
     let s := (((withL 0 0).modLext 0 (fun e => { e with spawnQ := [r] })).modDie 0 (fun x => { x with ctxfPool := BitVec.ofNat 64 (2 * 2 ^ 52), managed := true })).modPkg
       (fun p => { p with dieMask := 1 })
     (spawnReqs s)[0]? = some (0, r) ∧ s.launch 0 = some launch0 ∧ launch0.stat = .running ∧ (freeSlots s r.tile true).head? = some 1 ∧
      eligibleTile s r.tile = true ∧ (s.die (r.tile / 512)).runs = true ∧ r.digest = none ∧ s.pkg.round = none ∧
      eligibleTile (s.modPkg (fun p => { p with quarantined := [(0, true)] })) r.tile = false ∧ framesUsed s (r.tile / 512) + framesNeeded s r.tile ≤ framePool s (r.tile / 512) ∧
      (s.lext 0).complete ≤ r.born) ∧
    (let s := (withL 0 0).modLext 0 (fun e => { e with due := 1 })
     s.task 0 0 = some tk ∧ tk.firing = none ∧ (s.ext 0 0).implicit = none ∧ partDue s 0 0 tk = true ∧ partDue (withL 0 0) 0 0 tk = false) := by
  decide +kernel
/-- A saved task with a frame that holds an error, and a spawned one whose region's port binding has 64 KiB pages over a tensor of 2 MiB ones. -/
theorem wit_TaskSteps_frame :
    (let k := { tk with stat := .ready, frame := some 0, saved := some ⟨[Core.reset, Core.reset, Core.reset], CtlCsr.reset, Fabric.reset, []⟩ }
     let s := { ((withL 0 0).modTile 0 (fun v => { v with resident := none, tasks := [(0, some k)] })) with poison := [(64, true)] }
     choose (markReady s 0) 0 = some 0 ∧ k.saved.isSome = true ∧ (s.lext k.launch).serial = none ∧ framePoison s (ctxFrameAddr s 0 0) = some 64) ∧
    (let s := s0.modDie 12 (fun x => { x with ckptBase := 1 }); (ckptBlock s 0 1).isSome = true ∧ ckptBlock s0 0 1 = none) := by decide +kernel
theorem wit_TaskSteps_pages :
    (let bs := fields [(1, 0), (1, 0), (1, 2), (1, 1), (2, 1), (2, 0), (2, 1), (6, 0), (4, 1), (12, 0), (8, 0), (8, 0)]
     let seq := fields [(2, 0xFFFF), (1, 0), (1, 255), (1, 0), (1, 255), (2, 0), (2, 0x10), (2, 0xFFFF), (2, 0xFFFF), (2, 0)]
     let k := { tk with spawned := true, firings := 0 }
     let s := ((withL 0 0).modPkg (fun p => { p with containers := [(0, [⟨2, 0, 0, bs⟩, ⟨1, 1, 0, imgList.drop 64⟩, ⟨3, 0, 0, seq⟩])] })).modTile 0
       (fun v => { v with tasks := [(0, some k)] })
     s.task 0 0 = some k ∧ (s.tile 0).resident = some 0 ∧ k.stat = .resident ∧ enabled s 0 0 = true ∧ nextEntry s k = some 0 ∧ (s.tile 0).traps = [] ∧
      ((seqEntries (s.container k.container))[0]?).map (fun e => (e.starts 0, spawnPageFail s 0 0 k e.region)) = some (true, true)) := by decide +kernel
theorem wit_MemoryActors :
    (let s := withL 0 0
     let c : MemCtx := ⟨launch0, parseGraph graphBytes, 0, 0, wn 0x4000 0, bindT 1⟩
     memCtx s 0 1 1 = some c ∧ descOf s c.l.ctx c.b.tensor = some (parseDesc descT) ∧ (s.actorSt 0 1).rows = 0 ∧ viewRows c.b 2 = 4 ∧
      1 ≤ freeCount c.w (s.prod c.u c.u (windowKey 0 c.a)) ∧
      (planRuns s c.l.ctx c.b.tensor .read (runsOf 4 (rowOffsets c.b (parseDesc descT) 0))).2 = none) ∧
    (let s := (withL 0 3).modPkg (fun p => { p with pteCache := [(2 ^ 32, 0x6000000000020000)] })
     let c : MemCtx := ⟨launch0, parseGraph graphBytes, 0, 0, wn 0x4000 0, bindT 1⟩
     memCtx s 0 1 1 = some c ∧ ((planRuns s c.l.ctx c.b.tensor .read (runsOf 4 (rowOffsets c.b (parseDesc descT) 0))).2).map (fun t => t.cause) =
      some cNOTPRESENT) ∧
    (let s := withL 0 3
     let c : MemCtx := ⟨launch0, parseGraph graphBytes, 1, 0, wn 0x8000 3, bindT 2⟩
     memCtx s 0 2 2 = some c ∧ descOf s c.l.ctx c.b.tensor = some (parseDesc descT) ∧ (s.actorSt 0 2).rows < viewRows c.b 2 ∧ 0 < c.w.occ ∧
      (planRuns s c.l.ctx c.b.tensor .write (runsOf 4 (rowOffsets c.b (parseDesc descT) 0))).2 = none ∧
      (planRuns s c.l.ctx c.b.tensor .write (runsOf 4 (rowOffsets c.b (parseDesc descT) 0))).1.map (fun x => (x.1, x.2.1, partsOf x.2.2)) =
        [(0, 32, [⟨0x20000, 32⟩])]) ∧
    (let s := (withL 0 0).modWin 0 1 (fun w => { w with marks := [0] })
     s.graph 0 = some (parseGraph graphBytes) ∧ canEclipse s 0 2 launch0 (parseGraph graphBytes) = some none) ∧
    (let s := (withL 0 0).modWin 0 0 (fun w => { w with marks := [0] })
     canEclipse s 0 0 launch0 (parseGraph graphBytes) = some (some (0, 0)) ∧ launch0.modeReq = none ∧ (s.ext 0 0).implicit = none) ∧
    (let m : ModeReq := ⟨4, 1, 2, 0⟩
     let s := ((withL 0 0).modLext 0 (fun e => { e with quiet := [0], reqs := [m] })).modLaunch 0 (fun l => { l with modeReq := some m })
     (s.launch 0).bind (fun l => l.modeReq) = some m ∧ s.graph 0 = some (parseGraph graphBytes) ∧ s.pkg.num ∈ (s.lext 0).quiet ∧ allQuiet s 0 = true ∧ partsSettled s 0 = true) ∧
    (let s := ((withL 0 0).modTile 0 (fun v => { v with tasks := [] })).modLaunch 0
       (fun l => { l with actors := [(0, ⟨0, true, none⟩), (1, ⟨4, true, none⟩), (2, ⟨4, true, none⟩)] })
     s.pkg.num ∉ (s.lext 0).quiet ∧ (s.launch 0).map (fun l => locallyQuiet s 0 l (parseGraph graphBytes)) = some true) := by decide +kernel


/-- R221, R318: the window that a launch bound to a task closes with it, the one of a sink does not, and a restore opens it again. -/
theorem test_end_closes_window :
    (let own (w : Window) : Window := { w with launch := some 0 }
     let s := endTask (((withL 0 0).modWin 0 0 own).modWin 0 1 own) 0 0
     s.win 0 0 = none ∧ (s.win 0 1).isSome = true ∧ ((reopenArcs s 0 launch0 (parseGraph graphBytes)).win 0 0).isSome = true) := by decide +kernel
/-! ## The journal -/

/-- The module with one die, its manager running, and one entry of the journal at 0x100000 of HBM, exposed. -/
def withJ (bs : List Byte) (s : State := State.reset) : State :=
  (((s.put 0x100000 bs).put 0x2000 (leBytes 8 0x3001 ++ leBytes 4 0)).modDie 0 (fun d => { d with managed := true })).modPkg
    (fun p => { p with dieMask := 1, doorbells := [1] }) |>.modRegs
    (fun r => { r with stage := 6, jbase := 0x100004, jdb := 1, ctxTable := 0x2001 })
/-- The same with the round of entry 0 open and a verdict of the head in, and with one that rejects it for a field. -/
def votedJ (bs : List Byte) (v : Nat × Nat) (s : State := State.reset) : State :=
  (withJ bs s).modPkg (fun p => { p with round := some ⟨0, [(0, v)], [], false, 1, []⟩ })
def agreedJ (bs : List Byte) (s : State := State.reset) : State := votedJ bs (0, 0) s
def refusedJ (bs : List Byte) (f : Nat) (s : State := State.reset) : State := votedJ bs (0x20, f) s
/-- A graph of one compute actor, its sequencing entry, and a template section. -/
def cont1 : List NofSection :=
  [⟨3, 0, 0, fields [(2, 0), (1, 0), (1, 255), (1, 255), (1, 255), (2, 0), (2, 0x10), (2, 0xFFFF), (2, 0xFFFF), (2, 0)]⟩,
    ⟨7, 0, 0, fields [(2, 0), (2, 1), (2, 0), (1, 1), (9, 0)] ++ fields [(1, 0), (1, 1), (2, 0), (2, 0), (2, 0)]⟩, ⟨0x0B, 0, 0, [1]⟩]
/-- A launch packet of it: NOPACE, a bind table of no entries, the record at 0x300000. -/
def pktBytes : List Byte :=
  fields [(1, 1), (1, 1), (1, 3), (1, 0), (4, 0), (2, 0), (2, 0xFFFF), (2, 0), (2, 0), (8, 77), (8, 0), (8, 0x300000), (8, 0x400000), (2, 0), (2, 0),
    (4, 0), (8, 0), (128, 0), (8, 0), (56, 0)]
def stateP : State := (agreedJ pktBytes).modPkg (fun p => { p with containers := [(0, cont1)] })
/-- A mode request and a pre-emption request of the launch of `withL`, both with the record at 0x300000. -/
def modeBytes : List Byte := fields [(1, 2), (1, 0), (2, 0), (4, 2), (8, 0), (8, 0x300000), (232, 0)]
def preBytes : List Byte := fields [(1, 3), (7, 0), (8, 0), (8, 0x300000), (232, 0)]

/-- A container file of one tool section with no bytes. -/
def nofHead : List Byte := fields [(4, 0x1A464F4E), (2, 1), (2, 0), (4, 1), (4, 0), (8, 96), (8, 64)]
def nofFile : List Byte := nofHead ++ leBytes 4 (crc32c nofHead) ++ leBytes 28 0 ++ fields [(2, 0x8000), (2, 0), (4, 0), (8, 96), (8, 0), (4, 0), (4, 0)]
/-- The invalidate queue at 0x200000 with one command. -/
def withInv (bs : List Byte) (s : State := State.reset) : State :=
  (s.put 0x200000 bs).modRegs (fun r => { r with invqBase := 0x200000, invqTail := 1 })
def inv (op : Nat) : List Byte := fields [(1, op), (1, 0), (2, 0), (2, 1), (2, 1), (4, 0), (4, 0xFFFFFFFF)]

theorem wit_LaunchesEnd_shares :
    (let s := ((withL 0 0).modTile 0 (fun v => { v with tasks := [(0, some { tk with stat := .ended })] })).modLext 0 (fun e => { e with quiet := [0] })
     s.launch 0 = some launch0 ∧ shareDrained s 0 launch0 = true ∧
      (checkDigest (formDigest (showWrites s 0) 0 (taskDigests (showWrites s 0) 0)).1 0 0 (s.lext 0).complete
        (formDigest (showWrites s 0) 0 (taskDigests (showWrites s 0) 0)).2).2 = true ∧ s.otherPkgs 0 = [] ∧
      let s' := (s.put 0x400000 (leBytes 8 0 ++ leBytes 8 0 ++ leBytes 8 (2 ^ 64 - 1))).modRegs (fun r => { r with plxRef := 2 ^ 52 + 0x400000 })
      s'.launch 0 = some launch0 ∧ shareDrained s' 0 launch0 = true ∧ (refDigest (showWrites s' 0) 0 0).isSome = true) ∧
    (let s := ((withL 0 0).modLext 0 (fun e => { e with dies := [23, 4] })).modLaunch 0 (fun l => { l with stat := .completed })
     s.launch 0 = some { launch0 with stat := .completed } ∧ 23 ∈ (s.lext 0).dies ∧ (∀ x ∈ (s.lext 0).dies.erase 23, x ∉ s.dieList) ∧
      0 ∉ s.pkg.released ∧ (∃ x ∈ (s.lext 0).dies.erase 23, x ∈ (s.modPkg (fun p => { p with dieMask := 0x10 })).dieList)) := by decide +kernel
theorem wit_LaunchesEnd_placed :
    (let l : Launch := { launch0 with stat := .unplaced }
     let s := (withJ [] (withL 0 0)).modPkg (fun p => { p with launches := [(0, some l)], replaceQ := [0] })
     let s0 := (openRound s 0 true).modPkg (fun p => { p with round := none })
     s.launch 0 = some l ∧ s.graph 0 = some (parseGraph graphBytes) ∧ canOpen s = true ∧ l.stat = .unplaced ∧ 0 ∈ s.pkg.replaceQ ∧
      (match placeCheck (unbindLaunch s0 0) (holdingsOf (unbindLaunch s0 0)) l (parseGraph graphBytes) with | .ok _ => true | .error _ => false) = true ∧
      (match placeCheck ((unbindLaunch s0 0).modPkg (fun p => { p with dieMask := 0 })) (holdingsOf (unbindLaunch s0 0)) l (parseGraph graphBytes) with
        | .ok _ => true | .error _ => false) = false) := by decide +kernel
/-- A launch that runs, with a task of it, one that is to return to its start, one whose checkpoint can become complete, and a pre-emption request. -/
theorem wit_LaunchesEnd_restore :
    (let s := withL 0 0
     s.launch 0 = some launch0 ∧ launch0.stat.live = true ∧ mapWf Tile.reset s.tiles = true ∧ mapWf none (s.tile 0).tasks = true ∧ s.task 0 0 = some tk ∧
      tk.launch = 0 ∧ tk.spawned = false ∧ s.graph 0 = some (parseGraph graphBytes) ∧ (s.lext 0).complete < 1 ∧ s.regs.plxHash.getLsbD 0 = false ∧
      refDigest s 0 1 = none ∧ s.otherPkgs 0 = [] ∧ launchPkgs s 0 = [0] ∧ s.pkg.futures = []) ∧
    (let l : Launch := { launch0 with stat := .restoring }
     let s := (withL 0 0).modLaunch 0 (fun _ => l)
     s.launch 0 = some l ∧ infuserBusy s 0 = false ∧ (s.lext 0).cleared = [] ∧ (s.lext 0).mismatch = none ∧ (s.lext 0).target = 0 ∧ l.proxyTile = [] ∧
      (0, 0) ∈ l.arcTile ∧ (s.win 0 (windowKey 0 0)).map (fun w => w.proxy) = some false) ∧
    (let p : CkPart := { (default : CkPart) with number := 2, firing := some firing0 }
     let c : CkPkg := { (default : CkPkg) with number := 2 }
     let s := (withL 0 0).modLext 0 (fun e => { e with target := 2, parts := [(0, [p])], pkgParts := [c] })
     s.partNo 0 tk.lidx 2 = some p ∧ (s.lext 0).pkgParts.find? (fun p => p.number == 2) = some c) ∧
    (let s := (withL 0 0).modLext 0 (fun e => { e with restored := [0], written := [0], preempt := [(5, 0x300000)] })
     (∀ p ∈ launchPkgs s 0, p ∈ (s.lext 0).restored ∧ p ∈ (s.lext 0).written) ∧ (5, 0x300000) ∈ (s.lext 0).preempt) ∧
    (∃ p ∈ launchPkgs (withL 0 0) 0, p ∉ ((withL 0 0).lext 0).written) ∧
    (let x := wn 0x4000 0; (launch0.ends.find? (fun p => p.1 == 0) = some (0, 0)) ∧ (withL 0 0).win 0 (windowKey 0 0) = some x ∧ x.proxy = false ∧ 0 < x.cap ∧
      (wn 0 3).occ ≤ x.cap ∧ (List.replicate 96 ((1 : Byte), false)).length = (wn 0 3).occ * x.tok) ∧
    (let s := (withL 0 0).put 0x400000 (leBytes 8 0 ++ leBytes 8 1 ++ leBytes 8 7) |>.modRegs (fun r => { r with plxRef := 2 ^ 52 + 0x400000 })
     refDigest s 0 1 = some 7 ∧ (s.lext 0).serial = none) := by decide +kernel
/-- An actor's task, two windows and a placement of them on tile 3. -/
theorem wit_LaunchesEnd_bound :
    let p : Placed := ⟨[(0, 3, some 0)], [(0, 3), (1, 3)], []⟩
    let h := holdingsOf State.reset
    let g := parseGraph graphBytes
    3 ∈ p.tiles ∧ (p.tasksOn 3)[0]? = some (0, 0) ∧ (h.freeSlots 3)[0]? = some 0 ∧ (p.arcsOn 3) = [0, 1] ∧ (g.arcs[1]?).isSome = true ∧
      (fitAll 64 (2 ^ 21) (h.spad 3) (spadItems g p 3)).map (fun x => x.take 2) = some [0, 128] := by decide +kernel
theorem wit_LaunchesEnd_containers :
    2 ≤ (withJ []).regs.stage ∧ loadFail nofFile = none ∧ loadFail [] = some ⟨0x01, 0, 0⟩ ∧ containerBusy State.reset 0 = false ∧
    containerBusy (withL 0 0) 0 = true := by decide +kernel
theorem wit_LaunchesEnd_queue :
    (let s := withInv (inv 3); invEntry s = some 0x200000 ∧ (invNext s).map (fun c => c.malformed) = some true) ∧
    (let s := withInv (inv 2) (s0.modCur (fun k => { k with held := some { (default : Held) with tensor := 1 } }))
     (invNext s).map (fun c => (c.malformed, c.op, (wokenGets s c).isEmpty, c.wakes ((s.tile 0).core 0).held)) = some (false, 2, true, true)) ∧
    (let s := withInv (inv 1) (withTensor State.reset)
     (invNext s).map (fun c => (c.malformed, c.op, invBusy s c, stagedUnder s c, queuedUnder s c)) = some (false, 1, false, false, false)) ∧
    (let s := withInv (inv 1) ((withL 0 0).modLext 0 (fun e => { e with pinned := [(1, 9)] }))
     (invNext s).map (fun c => (c.malformed, c.op, invBusy s c)) = some (false, 1, true)) ∧
    (let s := withInv (inv 1) ((withTensor State.reset).modNet (fun n => { n with stagings := [⟨5, 9, [⟨0, 0, 0, 1, 32, [1, 2, 3, 4], [(0x20020, 4)]⟩], false⟩] }))
     (invNext s).map (fun c => (c.malformed, c.op, invBusy s c, stagedUnder s c)) = some (false, 1, false, true)) ∧
    (let p : NbProg := ⟨{ (default : NbCmd) with kFrame := 0x20100 }, [], [], false, false, none⟩
     let s := withInv (inv 1) ((withTensor State.reset).modStack 0 (fun k => { k with queue := [p] }))
     (invNext s).map (fun c => (c.malformed, c.op, invBusy s c, queuedUnder s c)) = some (false, 1, false, true)) := by decide +kernel
/-- A core, a tile copy and a saved task that hold an access of the range of a READY. -/
theorem wit_LaunchesEnd_woken :
    let c : InvCmd := ⟨2, 0, 0, 1, 1, 0, 9⟩
    let h : Held := { (default : Held) with tensor := 1 }
    let k : Core := { Core.reset with stat := .held, held := some h }
    let x : Context := { (default : Context) with cores := [k] }
    let s := s0.modTile 0 (fun v => { v with tasks := [(7, some { tk with stat := .saved, saved := some x })], copies := [{ cp0 with slot := 7, held := some h }] })
    c.wakes k.held = true ∧ k.stat = .held ∧ wakesContext c x = true ∧ s.task 0 7 = some { tk with stat := .saved, saved := some x } ∧
    ∃ y ∈ (s.tile 0).copies, y.slot = 7 ∧ c.wakes y.held = true := by decide +kernel

/-! ## Frames, links, faults and the host -/

/-- A frame from package 5 to this one, class 3, of an opcode, with its header fields and payload. -/
def frm (op : Nat) (fs : List (Nat × Nat × Nat)) (bs : List Byte := []) : Frame :=
  { (default : Frame) with dst := 0, src := 5, cls := 3, ethertype := 0x88B5, opcode := op, hdr := opHdr fs, payload := bs, crcOk := true }
def inTurnB (s : State) (f : Frame) : Bool :=
  f.crcOk && frameOk f && decide (f.dst = s.pkg.num) && decide (f.seq = (s.rx' (flowKey f.src f.cls)).expect) &&
    (!f.sect || decide (6 ≤ s.regs.stage)) &&
    (s.rx' (flowKey f.src f.cls)).window.all (fun g => g.seq != f.seq)
theorem inTurn_of (s : State) (f : Frame) (h : inTurnB s f = true) : InTurn s f := by
  simp only [inTurnB, Bool.and_eq_true, decide_eq_true_eq, List.all_eq_true, bne_iff_ne] at h
  exact ⟨h.1.1.1.1.1, h.1.1.1.1.2, h.1.1.1.2, h.1.1.2, fun y => by simpa [y] using h.1.2, h.2⟩
/-- A staged put, a reduction, a get request, a commit, an arc token, a row frame part and a cell of key or serial 9. -/
def fPut : Frame := frm 1 [(2, 2, 0), (4, 2, 1), (6, 6, 32), (12, 4, 9)] [1, 2, 3, 4]
def fGet : Frame := frm 4 [(2, 2, 0), (4, 2, 1), (6, 6, 0), (12, 4, 9)] (leBytes 4 8)
def fOp (op : Nat) : Frame := frm op [(12, 4, 9)]
/-- A route word to this package, tile 33 of die 0, window 5. -/
def routeHere : Nat := 1 * 2 ^ 25 + 1 * 2 ^ 20 + 5 * 2 ^ 14
def stage9 : Staging := ⟨5, 9, [⟨0, 0, 0, 1, 32, [1, 2, 3, 4], [(0x20020, 4)]⟩], false⟩

theorem wit_FrameDelivery_turn : InTurn State.reset fPut ∧ InTurn State.reset (frm 2 [(1, 1, 6)]) ∧ InTurn State.reset (fOp 3) ∧
    InTurn State.reset fGet ∧ InTurn State.reset (fOp 5) ∧ InTurn State.reset (fOp 6) ∧ InTurn State.reset (fOp 7) ∧
    InTurn State.reset (frm 9 [(2, 1, 7), (12, 4, 9)]) ∧ InTurn State.reset (frm 10 [(2, 2, 65535), (4, 8, 2 ^ 64 - 1)]) ∧
    InTurn State.reset (frm 11 [(2, 1, 63), (4, 8, 2 ^ 64 - 1)]) := by
  refine ⟨?_, ?_, ?_, ?_, ?_, ?_, ?_, ?_, ?_, ?_⟩ <;> exact inTurn_of _ _ (by decide +kernel)
theorem wit_FrameDelivery_window :
    (let s := State.reset.modNet (fun n => { n with rx := [(23, ⟨2 ^ 24 - 1, [], []⟩)] })
     frameOk fPut = true ∧ fPut.dst = s.pkg.num ∧ (s.rx' (flowKey 5 3)).expect = 2 ^ 24 - 1 ∧
      ({ fPut with seq := 4094 }.seq + 2 ^ 24 - (s.rx' (flowKey 5 3)).expect) % 2 ^ 24 = 4095 ∧
      2 ^ 23 ≤ ({ fPut with seq := 2 ^ 24 - 2 }.seq + 2 ^ 24 - (s.rx' (flowKey 5 3)).expect) % 2 ^ 24 ∧
      ∀ g ∈ (s.rx' (flowKey 5 3)).window, g.seq ≠ 4094) := by decide +kernel
theorem wit_FrameDelivery_sections :
    okIs (xlate (withTensor) (hdrField fPut 2 2) (hdrField fPut 4 2) (hdrField fPut 6 6) 4 .write kXCOPY 0).res [⟨0x20020, 4⟩] = true ∧
    (trapOf (xlate State.reset 0 1 32 4 .write kXCOPY 0).res).isSome = true ∧
    (let s := State.reset.modNet (fun n => { n with stagings := [{ stage9 with refused := true }] })
     isStaging fPut { stage9 with refused := true } = true ∧ { stage9 with refused := true } ∈ s.net.stagings ∧
      s.net.stagings.find? (isStaging (fOp 6)) = some { stage9 with refused := true } ∧ State.reset.net.stagings = []) ∧
    (let s := State.reset.modNet (fun n => { n with stagings := [stage9] })
     s.net.stagings.find? (isStaging (fOp 6)) = some stage9 ∧ stage9.refused = false ∧ ((fOp 6).src, hdrField (fOp 6) 12 4) ∉ s.net.committed ∧
      ((fOp 6).src, hdrField (fOp 6) 12 4) ∈ (s.modNet (fun n => { n with committed := [(5, 9)] })).net.committed) ∧
    (let o : StageOp := ⟨1, 0, 0, 1, 32, [1, 2, 3, 4], [(0x20020, 4)]⟩
     o.parts = [(0x20020, 4)] ∧ (opResult o (State.reset.homeBytes 0x20020 4)).length = 4) ∧
    ((withTensor).readParts (rxObs fGet) [⟨0x20000, 8⟩]).length ≤ 8192 ∧
    okIs (xlate withTensor (hdrField fGet 2 2) (hdrField fGet 4 2) (hdrField fGet 6 6) (leNat fGet.payload) .read kXCOPY 0).res [⟨0x20000, 8⟩] = true ∧
    (let c : XcCmd := { (default : XcCmd) with pkg := 5, serial := 9 }
     findGet (withExt (fun e => { e with cmds := [c] })) 5 (hdrField (fOp 5) 12 4) = some (0, 0, c) ∧ c.held = none) ∧
    (trapOf (xlate State.reset (hdrField fGet 2 2) (hdrField fGet 4 2) (hdrField fGet 6 6) (leNat fGet.payload) .read kXCOPY 0).res).isSome = true ∧
    ({ fOp 5 with payload := [7] }.payload ≠ [] ∧ (fOp 5).payload = []) ∧
    (State.reset.net.stagings.any (isStaging (fOp 7)) = false ∧ findSection State.reset 5 9 = none) := by decide +kernel
/-- A section that is open here, of the key that a target's discard frame names. -/
theorem wit_FrameDelivery_refused (b : Bool) : ∃ (s : State) (f : Frame), f.src = 5 ∧ s.net.stagings.any (isStaging f) = false ∧
    findSection s f.src (hdrField f 12 4) = some (0, 0, b) := by
  let x : Sect := { (default : Sect) with targets := [5] }
  let e : TaskExt := if b then { (default : TaskExt) with sect := some x } else { (default : TaskExt) with implicit := some x }
  let s := { State.reset with tiles := [(0, { (default : Tile) with exts := [(0, e)] })] }
  let f : Frame := { (default : Frame) with src := 5, hdr := sectKey s 0 0 x * 256 ^ 11 }
  have h : hdrField f 12 4 = sectKey s 0 0 x := by
    have : sectKey s 0 0 x < 2 ^ 32 := BitVec.isLt _
    simp only [hdrField, f]; omega
  refine ⟨s, f, rfl, rfl, ?_⟩
  rw [h]
  have : (default : Sect).decided = false := rfl
  cases b <;> simp [findSection, s, e, x, f, this] <;> rfl
/-- A refused operation is answered by a discard frame of its key, once. -/
theorem test_refusal_answers :
    (let s := stageOp State.reset fPut 0
     (s.tx (flowKey 5 3)).unacked.map (fun y => (y.frame.opcode, y.frame.dst, hdrField y.frame 12 4)) = [(7, 5, 9)] ∧
      ((stageOp s fPut 0).tx (flowKey 5 3)).unacked.length = 1) := by decide +kernel
theorem wit_FrameDelivery_rows :
    (State.reset.net.gathers.find? (isGather 5 9 9) = none) ∧
    (let g : Gather := ⟨5, 9, (List.range 7).map (fun i => (i, [])), BitVec.ofNat 64 (9 * 2 ^ 56)⟩
     let s := State.reset.modNet (fun n => { n with gathers := [g], rx := [(23, ⟨7, [], [(4, 0)]⟩)] })
     let bad := List.replicate 33 ((0 : Byte), false)
     s.net.gathers.find? (isGather 5 9 9) = some g ∧ (mapInsert g.parts 7 []).length = 8 ∧ (mapInsert g.parts 7 bad).length = 8 ∧
      rowFrameOk ((((mapInsert g.parts 7 []).map (fun p => p.2)).flatten).map (fun b => b.1)) = true ∧
      rowFrameOk ((((mapInsert g.parts 7 bad).map (fun p => p.2)).flatten).map (fun b => b.1)) = false ∧
      (s.rx' (flowKey 5 3)).holds.find? (fun h => h.2 == 0) = some (4, 0)) ∧
    (let f := frm 10 [(1, 1, 8), (2, 2, 0), (4, 8, routeHere), (12, 4, 9)] [1, 2, 3, 4, 5, 6, 7, 8]
     let s := onTile 33 (fun v => v.setWin 5 (some { win0 with occ := 3, wr := 3, rd := 0 }))
     hdrField f 2 2 = 0 ∧ bitOf (hdrField f 1 1) 3 = true ∧ s.net.gathers.find? (isGather f.src (hdrField f 12 4) 10) = none ∧ fieldDest s (hdrField f 4 8) = some ⟨0, 33, 5⟩ ∧ rowKeys s f.src 33 5 = [5] ∧
      s.win 33 5 = some { win0 with occ := 3, wr := 3, rd := 0 } ∧
      win0.tok = f.payload.length ∧ win0.occ < win0.cap ∧ win0.tok ≠ 4) ∧
    (let s := withL 3 0
     s.launch 0 = some launch0 ∧ (launch0.arcTile.find? (fun p => p.1 == 0)).map (fun p => p.2) = some 0 ∧ s.win 0 0 = some (wn 0x4000 3) ∧
      ((wn 0x4000 3).arrived - (wn 0x4000 3).initial) % 2 ^ 32 = 3 ∧ (wn 0x4000 3).tok = 32 ∧ (wn 0x4000 3).occ < (wn 0x4000 3).cap ∧
      (wn 0x4000 3).next = 0 ∧ (3 + 2 ^ 32 - 3) % 2 ^ 32 = 0 ∧ 0 < (2 ^ 31 + 2 + 2 ^ 32 - 3) % 2 ^ 32 ∧ (2 ^ 31 + 2 + 2 ^ 32 - 3) % 2 ^ 32 < 2 ^ 31 ∧
      2 ^ 31 ≤ (2 ^ 32 - 1 + 2 ^ 32 - 0) % 2 ^ 32 ∧ 2 ^ 31 ≤ (2 + 2 ^ 32 - 3) % 2 ^ 32 ∧ (5 + 2 ^ 32 - 0) % 2 ^ 32 < 2 ^ 31) := by
  decide +kernel
theorem wit_ControlFrames :
    (let s := (withL 2 0).modPkg (fun p => { p with launches := [(0, some { launch0 with home := 7, map := [0, 5] })] })
     let f (k a : Nat) : Frame := frm 12 [(2, 1, k), (4, 8, 7), (12, 4, a)]
     (∀ k < 7, inTurnB s (f (k + 1) 0) = true ∧ hdrField (f (k + 1) 0) 2 1 = k + 1) ∧ inTurnB s (f 3 (2 ^ 32 - 1)) = true ∧
      (launchOfHome (pastFrame s (f 1 0)) (hdrField (f 1 0) 4 8) 5).map (fun x => (x.1, x.2.stat)) = some (0, .running) ∧
      launchOfHome (pastFrame State.reset (f 1 0)) 7 5 = none) ∧
    (∀ st ∈ [LaunchStat.restoring, .unplaced, .completed, .aborted],
     let s := State.reset.modPkg (fun p => { p with launches := [(0, some { launch0 with home := 7, map := [0, 5], stat := st })] })
     (launchOfHome (pastFrame s (frm 12 [(4, 8, 7)])) 7 5).map (fun x => (x.1, x.2.stat)) = some (0, st)) ∧
    (let s := (withL 2 0).modWin 0 0 (fun x => { x with pPkg := 5 })
     ((s.graph 0).any (fun g => markCanBe s 0 launch0 g 0 && g.hasMem 0) = true) ∧ unmarkedFrom s 0 launch0 5 = [(0, 0)] ∧ s.win 0 0 = some { wn 0x4000 2 with pPkg := 5 } ∧ (s.lext 0).marksDue = [] ∧
      (s.graph 0).isSome = true ∧ (unmarkedFrom s 0 launch0 6) = []) ∧
    (let f := frm 8 [(2, 2, 65535), (4, 4, 2 ^ 24 - 1)]
     frameOk f = true ∧ f.dst = State.reset.pkg.num ∧ f.opcode = 8) ∧
    (let c : XcCmd := { (default : XcCmd) with op := 1, ticket := 2 ^ 31 - 1 }
     ((withExt (fun e => { e with cmds := [c] })).ext 0 0).cmds.find? (fun x => x.ticket == c.ticket) = some c ∧ c.done = false ∧
      cmdPending (withExt (fun e => { e with cmds := [c] })) (0, 0, c.ticket) = false) ∧
    (let f := { fPut with dst := 63, relay := true }
     frameOk f = true ∧ f.dst ≠ State.reset.pkg.num ∧ State.reset.regs.stage < 6 ∧ 6 ≤ (State.reset.modRegs (fun r => { r with stage := 6 })).regs.stage ∧ creditUnits f.payload.length ≤ mapGet 0 (State.reset.modNet (fun n => { n with granted := [(5, 1)] })).net.granted f.src ∧
      mapGet 0 State.reset.net.granted f.src < creditUnits f.payload.length) ∧
    ((frm 0 []).crcOk = true ∧ frameOk (frm 0 []) = false ∧ frameOk (frm 13 []) = false) := by decide +kernel

/-! ## Witnesses: links -/

def tx0 : TxFrame := ⟨{ fPut with dst := 5, src := 0 }, false, false, [], some 0, false⟩
/-- Lock at slot 62 with every port, and a key for package 62 from here. -/
def withOrr : State := State.reset.modNet (fun n => { n with lock := true, slot := 62, ports := 0x7F, keys := [(pairNo 0 62, { PairKey.zero with epoch := 1 })] })
def flit0 (seq : Nat) : OptFlit :=
  ⟨5, 0, true, seq, [], gcmTag (aesKeys (keyBytes 7)) (nonceBe (flitNonce 5 0 1 seq)) (leBytes 8 (flitHeader true seq).toNat) [], []⟩
def withKey : State := State.reset.modNet (fun n => { n with keys := [(pairNo 5 0, { PairKey.zero with epoch := 1, key := 7 })] })

theorem wit_Links_flows :
    (let s := State.reset.modNet (fun n => { n with tx := [(23, ⟨1, [tx0]⟩)] })
     (s.tx (flowKey 5 3)).unacked = [] ++ tx0 :: [] ∧ tx0.launch = some 0 ∧ tx0.cmds = [] ∧ tx0.expired = false) ∧
    (let x := { tx0 with launch := none, cmds := [(0, 0, 2 ^ 31 - 1)] }
     let y := { tx0 with expired := true }
     ((State.reset.modNet (fun n => { n with tx := [(23, ⟨3, [y, x, tx0]⟩)] })).tx (flowKey 5 3)).unacked = [y] ++ x :: [tx0] ∧ y.expired = true ∧
      x.launch = none ∧ x.cmds.length = 1 ∧ x.expired = false) ∧
    (let x := { tx0 with frame := { tx0.frame with dst := roundPeer 0 (portRound 62 0) } }
     let k := roundPeer 0 (portRound 62 0)
     let s := withOrr.modNet (fun n => { n with tx := [(k * 4 + 3, ⟨1, [x]⟩)] })
     k = 61 ∧ (k * 4 + 3) / 4 = k ∧ s.net.relayed = [] ∧ s.net.acks = [] ∧ x.sent = false ∧ s.optical k x.frame = true ∧ wireBytes x.frame ≤ 1444000 ∧
      (s.modNet (fun n => { n with keys := [(pairNo 0 61, { PairKey.zero with epoch := 1, used := 2 ^ 47 - 1 })] })).pairOpen k x.frame = true) ∧
    (let f := { fPut with dst := roundPeer 0 (portRound 62 7), relay := true }
     let s := withOrr.modNet (fun n => { n with relayed := [f], keys := [(pairNo 0 f.dst, { PairKey.zero with epoch := 1 })] })
     s.net.relayed = [f] ∧ s.net.acks = [] ∧ s.net.tx = [] ∧ s.pairOpen f.dst f = true ∧ wireBytes f ≤ 1444000) ∧
    (let f := { frm 8 [] with dst := roundPeer 0 (portRound 62 7) }
     let s := withOrr.modNet (fun n => { n with acks := [f], keys := [(pairNo 0 f.dst, { PairKey.zero with epoch := 1 })] })
     s.net.relayed = [] ∧ s.net.acks = [f] ∧ s.net.tx = [] ∧ s.optical f.dst f = true ∧ s.pairOpen f.dst f = true ∧ wireBytes f ≤ 1444000) ∧
    (let s := State.reset.modRegs (fun r => { r with stage := 5 }); 5 ≤ s.regs.stage ∧ s.pkg.halted = false ∧ 255 % 256 ≠ 0) ∧
    (withOrr.net.lock = true ∧ withOrr.net.ports.getLsbD 7 = false ∧ withOrr.net.ports.getLsbD 6 = true ∧ State.reset.net.lock = false) := by
  decide +kernel
theorem wit_Links_optical :
    (flit0 0).dst = withKey.pkg.num ∧ (flit0 0).seq = (withKey.pair 5 0).rxNext ∧ (withKey.pair 5 0).epoch ≠ 0 ∧
    (flit0 0).phase = decide ((withKey.pair 5 0).epoch % 2 = 1) ∧ (withKey.pair 5 0).old = none ∧ (withKey.pair 5 0).replay = [] ∧
    (withKey.pair 5 0).key = 7 ∧ (withKey.pair 5 0).epoch = 1 ∧ frameOfFlits (withKey.pair 5 0).delivered = none := by
  refine ⟨?_, ?_, ?_, rfl, ?_, ?_, ?_, ?_, ?_⟩ <;> decide +kernel
/-- A flit of 28 zero bytes but for their CRC-32C holds a frame, and an unacknowledged flit of the epoch lets a key be retired. -/
theorem wit_Links_frames :
    (let bs := leBytes 24 5
     let k := { PairKey.zero with delivered := [(fitBytes 232 (bs ++ leBytes 4 (crc32c bs))).map (fun b => (b, false))] }
     (frameOfFlits k.delivered).isSome = true) ∧
    (let k := { PairKey.zero with epoch := 1, replay := [flit0 0] }
     ∀ f ∈ k.replay, f.phase = decide (k.epoch % 2 = 1)) := by
  refine ⟨by decide +kernel, ?_⟩
  intro k f h
  simp only [k, List.mem_singleton] at h
  subst h
  rfl
/-- A flit with its own tag opens, as that one has, and with the bits of the tag inverted it does not. -/
theorem wit_Links_tags (key : BitVec 256) (n : BitVec 96) (h : BitVec 64) (c : List Byte) :
    gcmOpen key n h c (gcmTag (aesKeys (keyBytes key)) (nonceBe n) (leBytes 8 h.toNat) c) = some (gcmCtr (aesKeys (keyBytes key)) (nonceBe n) c) ∧
    gcmOpen key n h c (~~~ gcmTag (aesKeys (keyBytes key)) (nonceBe n) (leBytes 8 h.toNat) c) = none := by
  have inv : ∀ x : BitVec 128, x ≠ ~~~x := by
    intro x hx
    have := congrArg (fun y => y.getLsbD 0) hx
    simp at this
  unfold gcmOpen
  exact ⟨by simp, by simp [inv]⟩
theorem wit_Links_dies :
    (State.reset.die 23).link.lost = false ∧ (State.reset.die 23).link.rxNext = 0 ∧ (State.reset.die 23).link.nacked = false ∧
    (State.reset.die 23).link.replay = [] ∧ (State.reset.die 23).link.asked = none ∧ (4095 + 4096 - 4094) % 4096 = 1 ∧ ¬((5 + 4096 - 5) % 4096 ≠ 0) ∧
    (let f := Flit.make 0 4095 1 [1]; f.crcOk = true ∧ f.kind = 1 ∧ f.seq = 0) ∧
    (Flit.make 0 0 4 []).kind = 4 ∧ (Flit.make 4095 0 1 []).seq = 4095 ∧ (⟨List.replicate 128 0⟩ : Flit).crcOk = false ∧
    (D2d.reset.replay.length < 2048 ∧ D2d.reset.lost = false ∧
      2048 ≤ { D2d.reset with replay := List.replicate 2048 (0, []) }.replay.length) ∧
    ((State.reset.modDie 23 (fun d => { d with link := { d.link with replay := [(4095, [1])], fails := 16, groups := 8 } })).die 23).link.fails = 16 ∧
    (State.reset.die 0).link.groups &&& (15 - 2 ^ 3) ≠ 0 ∧ (8 : Nat) &&& (15 - 2 ^ 3) = 0 ∧ State.reset.net.eports.getLsbD 3 = true ∧
    State.reset.net.eports.getLsbD 7 = false := by decide +kernel
theorem wit_CalendarMatches : (63 : Nat) < 64 ∧ (0 : Nat) ≠ 63 ∧ roundPeer 63 (portRound 5 7) < 64 := by decide

/-! ## Witnesses: faults, bring-up and the host -/

def rec1 (cause arr : Nat) : TrapRec := ⟨BitVec.ofNat 64 cause, 0, 0, BitVec.ofNat 64 arr⟩
theorem wit_FaultHandling :
    (let s := State.reset.modDie 0 (fun d => { d with managed := true, faults := [(rec1 cNOTPRESENT 0, 0, none)] })
     (s.die 0).runs = true ∧ (s.die 0).fatal = [] ∧ (s.die 0).faults = [(rec1 cNOTPRESENT 0, 0, none)]) ∧
    (let s := State.reset.modDie 0 (fun d => { d with managed := true, fatal := [511] }); (s.die 0).runs = true ∧ (s.die 0).fatal = [511]) ∧
    (let g : Grp := { (default : Grp) with launch := 0, members := [0, 7], arrived := [0] }
     let s := ((withL 0 0).modPkg (fun p => { p with launches := [(0, some { launch0 with map := [0, 5], place := [(0, 0)] })], groups := [(1, some g)] })).modDie 0
       (fun d => { d with managed := true })
     (s.die 0).runs = true ∧ (s.die 0).fatal = [] ∧ (s.die 0).faults = [] ∧ sharedLaunches s = [0] ∧ sharedLaunches State.reset = [] ∧
      remoteMembers State.reset = [] ∧ remoteMembers s = [(1, 7)] ∧ mapGet none s.pkg.groups 1 = some g) ∧
    (let s := (withL 0 0).modDie 0 (fun d => { d with managed := true, faultCtl := 1, faults := [(rec1 cPOISON 3, 0, none)] })
     (s.die 0).runs = true ∧ (s.launch 0).map (fun l => l.stat) = some .running ∧ (s.lext 0).retries < (s.die 0).faultCtl.toNat % 16 ∧
      (State.reset.launch 0).map (fun l => l.stat) ≠ some .running) ∧
    (let s := (withJ []).modPkg (fun p => { p with jnext := 3, completed := [(0, true)], launches := [(1, some { launch0 with stat := .completed })] })
     boundLaunches s = [1] ∧ s.dieList.head? = some 0 ∧ s.pkg.round = none ∧ s.jdone = 1 ∧ s.jdone ≤ s.pkg.jnext ∧
      (resumeAccepted s 0).pkg.jnext = 2 ∧ ¬((State.reset.die 23).managed = true ∧ State.reset.pkg.dieMask.getLsbD 23 = true) ∧
      (s.die 0).managed = true ∧ s.pkg.dieMask.getLsbD 0 = true) ∧
    (armedInj State.reset 0 0x07 3 1 = none) := by decide +kernel
theorem wit_FaultHandling_units :
    (let s := State.reset.modDie 0 (fun d => { d with managed := true, faultCtl := 15, faults := [(rec1 cPOISON 3, 0, none)] })
     (rec1 cPOISON 3).cause ≠ cNOTPRESENT ∧ (rec1 cPOISON 3).fromArray = true ∧ (s.lext 0).retries < (s.die 0).faultCtl.toNat % 16 ∧
      (State.reset.die 0).faultCtl.toNat % 16 ≤ 15) ∧
    ((withL 0 0).launch 0 = some launch0 ∧ launch0.stat = .running) ∧
    (let s := State.reset.modRegs (fun r => { r with ringWait := [[1]], fbase := 0x100010, ftail := 5, fhead := 6 })
     s.regs.ringWait = [[1]] ∧ ringRoom s.regs = false ∧
      ringRoom { s.regs with fhead := 5 } = true) ∧
    (let s := State.reset.modPkg (fun p => { p with quarantined := [(3, true)] }); mapGet false s.pkg.quarantined 3 = true ∧ 3 ∉ s.pkg.returning) ∧
    (let s := State.reset.modPkg (fun p => { p with quarantined := [(3, true)] }); (s.tile 3).resident = none ∧ (0 : Nat) ≠ 63 ∧ s.pkg.num = 0 ∧ (s.pair 63 0).old = none) ∧
    (2 ≤ (withJ []).regs.stage ∧ ((withJ []).die 23).link.lost = false ∧ ((withJ []).die 0).managed = true) ∧
    stackOf (3 * 2 ^ 40 - 1) = 47 := by decide +kernel
/-- The padding of a data block, and a salt of zeros. -/
def db0 : List Byte := List.replicate 381 0 ++ 1 :: List.replicate 64 0
theorem db0_length : db0.length = 446 := by decide +kernel
def hash0 (m : List Byte) : List Byte := sha512 (List.replicate 8 0 ++ sha512 m ++ List.replicate 64 0)
/-- A signature of RFC 8017 over a message, by the key of modulus 2 ^ 4096 - 1 and exponent 1. -/
def sign0 (m : List Byte) : List Byte :=
  (((mgf1 (hash0 m) 447).getD 0 0 &&& 0x7F) :: List.zipWith (· ^^^ ·) db0 ((mgf1 (hash0 m) 447).drop 1)) ++ (hash0 m ++ [0xBC])
def key0 : Nat := 2 ^ 4096 - 1
theorem masked_length (m : List Byte) : (List.zipWith (· ^^^ ·) db0 ((mgf1 (hash0 m) 447).drop 1)).length = 446 := by
  rw [List.length_zipWith, List.length_drop, mgf1_length, db0_length]; rfl
theorem sign0_length (m : List Byte) : (sign0 m).length = 512 := by
  rw [sign0, List.length_append, List.length_cons, masked_length, List.length_append, hash0, sha512_length]; rfl
theorem low7 (x : Byte) : (x &&& 0x7F).toNat ≤ 127 := by
  have : (x &&& 0x7F).toNat = x.toNat &&& 127 := by simp
  exact this ▸ Nat.and_le_right
theorem sign0_lt (m : List Byte) : beNat (sign0 m) < key0 := by
  have h := leNat_lt (sign0 m).tail.reverse
  have e : beNat (sign0 m) = leNat (sign0 m).tail.reverse + 256 ^ (sign0 m).tail.reverse.length * ((mgf1 (hash0 m) 447).getD 0 0 &&& 0x7F).toNat := by
    rw [beNat, sign0, List.cons_append, List.reverse_cons, leNat_snoc, List.tail_cons]
  rw [List.length_reverse, List.length_tail, sign0_length] at h e
  have k : 256 ^ (512 - 1) * 128 < key0 := by decide +kernel
  have := Nat.mul_le_mul_left (256 ^ (512 - 1)) (low7 ((mgf1 (hash0 m) 447).getD 0 0))
  generalize 256 ^ (512 - 1) = z at *
  omega
theorem sign0_verifies (m : List Byte) : pssVerify key0 1 m (sign0 m) = true := by
  have lt : beNat (sign0 m) < key0 := sign0_lt m
  have p : powMod (beNat (sign0 m)) 1 key0 = beNat (sign0 m) := by
    have one : 1 * 1 % key0 = 1 := by decide +kernel
    show 1 * 1 % key0 * (if Nat.testBit 1 0 then beNat (sign0 m) else 1) % key0 = _
    rw [one, Nat.one_mul, if_pos (by rfl), Nat.mod_eq_of_lt lt]
  have n : Nat.log2 key0 < 4096 := by decide +kernel
  rw [pssVerify, p, beBytes_beNat 512 _ (sign0_length m), sign0_length, decide_eq_true lt, decide_eq_true n]
  have g := mgf1_length (hash0 m)
  have hl : (hash0 m).length = 64 := sha512_length _
  have t1 : (sign0 m).take 447 = ((mgf1 (hash0 m) 447).getD 0 0 &&& 0x7F) :: List.zipWith (· ^^^ ·) db0 ((mgf1 (hash0 m) 447).drop 1) :=
    List.take_left' (by rw [List.length_cons, masked_length])
  have t2 : (sign0 m).drop 447 = hash0 m ++ [0xBC] := List.drop_left' (by rw [List.length_cons, masked_length])
  have t3 : (hash0 m ++ [(0xBC : Byte)]).take 64 = hash0 m := List.take_left' hl
  have t4 : (sign0 m).getD 511 0 = 0xBC := by
    have : (sign0 m)[511]? = ((sign0 m).drop 447)[64]? := by rw [List.getElem?_drop]
    rw [List.getD_eq_getElem?_getD, this, t2, List.getElem?_append_right (by omega), hl]; rfl
  have t5 : (sign0 m).getD 0 0 = ((mgf1 (hash0 m) 447).getD 0 0 &&& 0x7F) := rfl
  have t6 : ((sign0 m).drop 447).take 64 = hash0 m := by rw [t2, t3]
  have t7 : sha512 (List.replicate 8 0 ++ sha512 m ++ List.replicate 64 0) = hash0 m := rfl
  have t8 : db0.drop 382 = List.replicate 64 0 := by decide +kernel
  have t9 : db0.take 382 = List.replicate 381 0 ++ [1] := by decide +kernel
  simp only [pssEncodes, t6, t1, t4, t5, sign0_length]
  generalize mgf1 (hash0 m) 447 = g0 at g ⊢
  cases g0 with
  | nil => cases g
  | cons x r =>
    have rl : r.length = 446 := by simpa using g
    simp only [List.drop_succ_cons, List.drop_zero, List.zipWith_cons_cons, xor_cancel db0 r (db0_length.trans rl.symm), List.take_succ_cons, t8, t9]
    have z : (x &&& 127 ^^^ x) &&& 127 = 0 := by
      have : ∀ y : BitVec 8, (y &&& 127 ^^^ y) &&& 127 = 0 := by decide +kernel
      exact this x
    have y : (x &&& 127).getLsbD 7 = false := by simp
    simp only [List.getD_cons_zero, z, y, t7]
    have w : ((0 : Byte) :: (List.replicate 381 0 ++ [1]) == List.replicate 382 0 ++ [1]) = true := by decide +kernel
    simp only [w, beq_self_eq_true, Bool.and_true, Bool.not_false]
def boot0 : BootFlash :=
  ⟨BitVec.ofNat 512 (beNat (sha512 (beBytes 512 key0 ++ leBytes 4 1))), key0, 1, [⟨[1, 2, 3], sign0 [1, 2, 3]⟩], 0⟩
theorem wit_BringUpAndHost_boot : bootSigned boot0 = true ∧ bootSigned { boot0 with images := [] } = false := by
  have l := sha512_length (beBytes 512 key0 ++ leBytes 4 1)
  have h := leNat_lt (sha512 (beBytes 512 key0 ++ leBytes 4 1)).reverse
  rw [List.length_reverse, l] at h
  have e : (BitVec.ofNat 512 (beNat (sha512 (beBytes 512 key0 ++ leBytes 4 1)))).toNat = beNat (sha512 (beBytes 512 key0 ++ leBytes 4 1)) :=
    Nat.mod_eq_of_lt (Nat.lt_of_lt_of_le h (by decide +kernel))
  constructor
  · rw [bootSigned, show boot0.romHash = BitVec.ofNat 512 (beNat (sha512 (beBytes 512 key0 ++ leBytes 4 1))) from rfl,
      show boot0.images = [⟨[1, 2, 3], sign0 [1, 2, 3]⟩] from rfl, e, beBytes_beNat 64 _ l]
    simp only [List.all_cons, List.all_nil, show boot0.keyMod = key0 from rfl, show boot0.keyExp = 1 from rfl, sign0_verifies]
    simp
  · simp [bootSigned]
/-- A root of trust whose identity key is that one and that has measured one image, and the bytes of its report ahead of the signature. -/
def regs0 : HostRegs := { HostRegs.reset with stage := 2, attc := true, measured := [0], idExp := 1, idMod := key0 }
def body0 : List Byte :=
  leBytes 4 0x470 ++ leBytes 4 1 ++ nonceBytes regs0 ++ leBytes 4 1 ++ leBytes 4 0 ++ beBytes 512 key0 ++ [(0 : BitVec 512)].flatMap (fun h => beBytes 64 h.toNat)
def report0 : List Byte := body0 ++ sign0 body0
theorem wit_BringUpAndHost_report : 2 ≤ regs0.stage ∧ regs0.attc = true ∧ reportOk regs0 report0 = true := by
  have l : body0.length = 0x270 := by decide +kernel
  have t : report0.take 0x270 = body0 := List.take_left' l
  have d : report0.drop 0x270 = sign0 body0 := List.drop_left' l
  have n : report0.length = 0x470 := by rw [report0, List.length_append, l, sign0_length]
  refine ⟨by decide, rfl, ?_⟩
  rw [reportOk]
  simp only [show regs0.measured = [0] from rfl, List.length_singleton, show 0x230 + 64 * 1 = 0x270 from rfl, show 0x430 + 64 * 1 = 0x470 from rfl,
    n, t, d, show regs0.idMod = key0 from rfl, show regs0.idExp = 1 from rfl, sign0_verifies]
  simp [body0]
theorem wit_BringUpAndHost :
    (State.reset.regs.stage = 0 ∧ State.reset.pkg.halted = false) ∧
    (let s := State.reset.modRegs (fun r => { r with stage := 3 }); s.regs.stage = 3 ∧ (s.stack 47).trained = false) ∧
    (let s := State.reset.modRegs (fun r => { r with stage := 5 }); s.regs.stage = 5 ∧ s.pkg.halted = false ∧ 256 % 256 = 0) ∧
    (let s := (State.reset.modTile 0 (fun v => { v with tasks := [(1, some { (default : Task) with saved := some default })] })).modDie 0
       (fun d => { d with managed := true })
     betweenTasks s 0 = true ∧ (s.tile 0).resident = none) ∧
    (let s := State.reset.modRegs (fun r => { r with stage := 2, jbase := 0x100010, win := [(31, 0xFFFFFFFFC0000001 &&& 0x000BFFFFC0000001), (0, 1)] })
     (65536 : DWord).toNat ≤ 2 ^ (s.regs.jbase.toNat % 32) + s.jdone ∧ s.regs.jdb.toNat < (65536 : DWord).toNat ∧
      2 ^ (s.regs.jbase.toNat % 32) + s.jdone < (65537 : DWord).toNat ∧ windowAddr s 0 (2 ^ 30 - 8) 8 = some (2 ^ 30 - 8) ∧
      windowAddr s 0 (2 ^ 30 - 7) 8 = none ∧ windowAddr s 1 0 8 = none) ∧
    (State.reset.regs.jdb = 0 ∧ State.reset.jdone = 0 ∧ 4 ≤ (0x100004 : DWord).toNat % 32 ∧ (0x100010 : DWord).toNat % 32 ≤ 16 ∧
      State.reset.regs.ftail = State.reset.regs.fhead) := by decide +kernel

/-! ## The manual's worked examples -/

/-- An element operation in RNE without saturation, with immediate 0. -/
def eb (o f cv a b c : Nat) : Nat := elemBits SteepKeys.zero o f 0 false cv 0 a b c

/-- R131: `IADD.i8`, wrapped and saturated; `IMULH.i16` and `IMULHU.i16`. -/
theorem test_integer_ops : eb 0x10 fmtINT8 0 0x7F8001FF 0x01FF0101 0 = 0x807F0200 ∧
    elemBits SteepKeys.zero 0x10 fmtINT8 0 true 0 0 0x7F8001FF 0x01FF0101 0 = 0x7F800200 ∧
    eb 0x13 fmtINT16 0 0x40008000 0xFFFF8000 0 = 0xFFFF4000 ∧ eb 0x14 fmtINT16 0 0x40008000 0xFFFF8000 0 = 0x3FFF4000 := by decide +kernel
/-- R136, R137: `ICMP.i16.lt`, `.ltu` (b is the immediate 3), then `SEL.bf16` by the first mask. -/
theorem test_compare_select : eb 0x30 fmtINT16 2 0x0005FFFE 0x00000003 0 = 0x0000FFFF ∧ eb opSEL fmtBF16 0 0x3F804000 0 0x0000FFFF = 0x00004000 := by
  decide +kernel
/-- R140: `CVT.b8p4se.fp32` of 12.5, of 300.0 in RNE, RTZ and with saturation, of −0 and of a NaN. -/
theorem test_convert : eb 0x60 fmtB8p4se fmtFP32 0x41480000 0 0 = 0x5C ∧ eb 0x60 fmtB8p4se fmtFP32 0x43960000 0 0 = 0x7F ∧
    elemBits SteepKeys.zero 0x60 fmtB8p4se 1 false fmtFP32 0 0x43960000 0 0 = 0x7E ∧
    elemBits SteepKeys.zero 0x60 fmtB8p4se 0 true fmtFP32 0 0x43960000 0 0 = 0x7E ∧
    eb 0x60 fmtB8p4se fmtFP32 0x80000000 0 0 = 0 ∧ eb 0x60 fmtB8p4se fmtFP32 0x7FC00003 0 0 = 0x80 := by decide +kernel
/-- R141: four codes shifted in by `PACK4`. R142: lane 2 brought to lane 0. -/
theorem test_pack : eb 0x62 fmtB8p4se 0 0x017E5C00 0xC0 0 = 0xC0017E5C ∧ eb 0x62 fmtB8p4se 0 0 0x5C 0 = 0x5C000000 := by decide +kernel
/-- R143, R144: `QSC.i8.fp32` of −3.3 by 10, and `SCL.fp32.i8` back by 0.1. -/
theorem test_scale : eb 0x65 fmtINT8 fmtFP32 0xC0533333 0x41200000 0 = 0xDF ∧ eb 0x64 fmtFP32 fmtINT8 0xDF 0x3DCCCCCD 0 = 0xC0533333 := by decide +kernel
/-- R148, R149: a fused low term; signs of zero; an invalid product before a sum of infinities; minimum and maximum of zeros. -/
theorem test_float_ops : eb 0x43 fmtFP32 0 0x3F800001 0x3F800001 0xBF800002 = 0x28800000 ∧ eb 0x42 fmtFP32 0 0x3F800001 0x3F800001 0 = 0x3F800002 ∧
    eb 0x45 fmtFP32 0 0 0x3F800000 0x80000000 = 0x80000000 ∧ eb 0x43 fmtFP32 0 0 0x7F800000 0xFF800000 = 0x7FC00004 ∧
    eb 0x46 fmtFP32 0 0 0x80000000 0 = 0x80000000 ∧ eb 0x47 fmtFP32 0 0 0x80000000 0 = 0 := by decide +kernel
/-- R153: `FSCALB` of 1.0 by −133 and −134 in BF16. -/
theorem test_scalb : eb 0x55 fmtBF16 0 0x3F80 0xFF7B 0 = 0x0001 ∧ eb 0x55 fmtBF16 0 0x3F80 0xFF7A 0 = 0x0000 ∧
    elemBits SteepKeys.zero 0x55 fmtBF16 2 false 0 0 0x3F80 0xFF7A 0 % 2 ^ 16 = 0x0001 := by decide +kernel
/-- R158: the combination of two partials. -/
theorem test_osmc : eb 0x72 fmtFP32 0 0x40400000 0x3F800000 0 = 0x40400000 ∧ eb 0x72 fmtFP32 1 0x40400000 0x3F800000 0 = 0x40000000 ∧
    eb 0x72 fmtFP32 2 0x3FC00000 0x40000000 0x40000000 = 0x40000000 ∧ eb 0x72 fmtFP32 2 0x40C00000 0xC0800000 0x40000000 = 0x40A00000 := by decide +kernel
/-- R165: a pair of σ that rounds to 0 gives μ exactly, whatever the draw. -/
theorem test_steep : eb opSTEEP fmtBF16 fmtPW16 0xC4FF4CFF 0 0 = 0xBFC04040 ∧ eb opSTEEP fmtB8p4se fmtPW16 0xC4FF4CFF 0 0 = 0x0000C44C := by decide +kernel
/-- R145: the fields of the word of `ICMP.i32.lt v2, v0, #5`. -/
theorem test_element_word : (let w : ElemWord := 0x30030C4A2004000A00000000
    ewOpc w = 0x30 ∧ ewSA w = 0 ∧ ewSB w = 48 ∧ ewSC w = 49 ∧ ewDST w = 2 ∧ ewWE w = true ∧ ewFMT w = fmtINT32 ∧ ewCV w = 2) := by decide +kernel
/-- R320, R321: phases of 2 and 1 tokens against 3, then against 2. -/
theorem test_balance : (let g (c : Nat) : Graph := ⟨0, 1, [⟨0, 2, 0, 0, 0⟩, ⟨0, 1, 0, 0, 0⟩], [⟨0, 1, 8, 3, 0, 0⟩],
      fields [(2, 2), (2, 1), (28, 0), (2, c), (30, 0)]⟩
    (g 3).firings 0 0 = 2 ∧ (g 3).firings 0 1 = 1 ∧ (g 2).firings 0 0 = 4 ∧ (g 2).firings 0 1 = 3) := by decide +kernel
/-- R340: the peers of package 5 in slot 0, and where it meets packages 63 and 7. -/
theorem test_calendar : (List.range 8).map (fun k => roundPeer 5 (portRound 0 k)) = [58, 11, 27, 43, 59, 12, 28, 44] ∧
    roundPeer 5 (portRound 5 0) = 63 ∧ roundPeer 5 (portRound 60 1) = 63 ∧ roundPeer 5 (portRound 6 0) = 7 := by decide
/-- R235: `ga.cvt` on tile 5.3.17. -/
theorem test_cvt : (match exec (.gaCvt 2 1) (({ s0 with focus := (5 * 512 + 3 * 32 + 17, 0) }.modTile (5 * 512 + 3 * 32 + 17)
    (fun v => { v with ctl := { ck with x := [(1, 0x100)] } }))) with
    | .next t => t.rx 2 | _ => 0) = 0x1000000002200100 := by decide +kernel
/-- R283: bucket 2 with sizes 16, 32 and 64. -/
theorem test_buckets : (let s (n : DWord) := (withX [(1, 2), (2, n)]).modLext 0 (fun e => { e with buckets := [(2, 0, 16, 0), (2, 1, 32, 0), (2, 2, 64, 0)] })
    let r (n : DWord) : DWord := match exec (.bkSel 3 1 2) (s n) with | .next t => t.rx 3 | _ => 0
    r 17 = 2 ^ 48 + 32 ∧ r 0 = 16 ∧ r 65 = BitVec.allOnes 64) := by decide +kernel
/-- R263: the two orders of an add of 3 and a compare-and-swap of 5 to 9, on a word that holds 5. -/
theorem test_atomics : (let s := (withX [(1, 0x100), (2, 3), (3, 5), (4, 9)]).put (spadBase 0 + 0x100) [5]
    (match exec (.amAdd 5 1 2 0) s with | .next t => (t.rx 5, t.homeNat (spadBase 0 + 0x100) 8) | _ => (0, 0)) = (5, 8)) := by decide +kernel
/-- R375: the state of a bank job after tokens of scores −2 and 2 with values (8, 0) and (−1, 3) in BF16. -/
theorem test_infuser_fold : (let r (a b : Nat) : List Byte := leBytes 2 a ++ leBytes 2 b
    let p := foldToken fmtBF16 (foldToken fmtBF16 ⟨0xFF800000, 0, [0, 0]⟩ 0xC0000000 (r 0x4100 0)) 0x40000000 (r 0xBF80 0x4040)
    p = ⟨0x40000000, 0x3F880000, [0xBF000000, 0x40400000]⟩) := by decide +kernel
/-- CRC-32C of the digits 1 to 9, and the S-box at 0x53, as their standards give them. -/
theorem test_standards : crc32c ((List.range 9).map (fun i => BitVec.ofNat 8 (0x31 + i))) = 0xE3069283 ∧ aesSub 0x53 = 0xED := by decide +kernel


/-! ## Witnesses: the journal -/

theorem wit_JournalEntries_rounds :
    (let s := withJ [] ; canOpen s = true ∧ s.pkg.jnext < s.regs.jdb.toNat) ∧
    (let s := (withJ pktBytes).modPkg (fun p => { p with round := some ⟨0, [], [], false, 1, []⟩ })
     s.pkg.round = some ⟨0, [], [], false, 1, []⟩ ∧ 0 ∈ maskDies 1 ∧ (s.die 0).runs = true ∧ verdictOf s (headHoldings s) 0 = (0x20, 0x18) ∧ verdictOf s (headHoldings s) 0 ≠ (0, 0)) ∧
    (let s := withL 0 0; launchOn s 0 (fun t => !eligibleTile s t) = true ∧ launchOn State.reset 0 (fun t => !eligibleTile State.reset t) = false ∧
      s.launch 0 = some launch0 ∧ launch0.stat = .running) := by
  decide +kernel
theorem wit_JournalEntries_rejected :
    (agreed (refusedJ pktBytes 0x18) 0 = true ∧ entryType (refusedJ pktBytes 0x18) 0 = 1 ∧ requestsOf (refusedJ pktBytes 0x18) 0 = [] ∧
      (match validateLaunch (refusedJ pktBytes 0x18) (headHoldings (refusedJ pktBytes 0x18)) 0 with | .ok _ => none | .error f => some f) = some ⟨0x18, 0, none, 0⟩) ∧
    (let s := (refusedJ (pktBytes ++ modeBytes) 0x18).modPkg (fun p => { p with doorbells := [2] }) |>.modRegs (fun r => { r with jdb := 2 })
     agreed s 0 = true ∧ entryType s 0 = 1 ∧ (requestsOf s 0).map (·.1) = [1] ∧
      (match validateLaunch s (headHoldings s) 0 with | .ok _ => none | .error f => some f) = some ⟨0x18, 0, none, 0⟩) ∧
    (agreed (refusedJ modeBytes 0x19) 0 = true ∧ entryType (refusedJ modeBytes 0x19) 0 = 2 ∧ modeVerdict (refusedJ modeBytes 0x19) 0 = some ⟨0x19, 0, none, 0⟩ ∧
      deferred (refusedJ modeBytes 0x19) 0 = false) ∧
    (agreed (refusedJ preBytes 0x19) 0 = true ∧ entryType (refusedJ preBytes 0x19) 0 = 3 ∧ preemptVerdict (refusedJ preBytes 0x19) 0 = some ⟨0x19, 0, none, 0⟩) ∧
    (agreed (refusedJ [] 0x19) 0 = true ∧ entryType (refusedJ [] 0x19) 0 = 0 ∧ entryType (agreedJ [4]) 0 = 4) ∧
    ((agreedJ []).isComplete 0 = false ∧ recordAddr (0x300000 : DWord).toNat = some 0x300000 ∧
      recordAddr (0x300001 : DWord).toNat = none) := by decide +kernel
theorem wit_JournalEntries_requests :
    (let s := agreedJ modeBytes (withL 0 0); agreed s 0 = true ∧ entryType s 0 = 2 ∧ modeVerdict s 0 = none ∧ deferred s 0 = false ∧
      (parseMode (entryBytes s 0)).target = 0 ∧ (s.lext 0).reqs = [] ∧ sourceElsewhere s 0 = none) ∧
    (let s := agreedJ modeBytes ((withL 0 0).modPkg (fun p => { p with launches := [(0, some { launch0 with hasMap := true, map := [5, 5, 5] })] }))
     agreed s 0 = true ∧ entryType s 0 = 2 ∧ modeVerdict s 0 = none ∧ (parseMode (entryBytes s 0)).target = 0 ∧ (s.lext 0).reqs = [] ∧
      (sourceElsewhere s 0).isSome = true) ∧
    (let bs := fields [(1, 2), (1, 0), (2, 0), (4, 2), (8, 1), (8, 0x300000), (232, 0)] ++ pktBytes
     let s := (agreedJ bs).modPkg (fun p => { p with doorbells := [2] })
     agreed s 0 = true ∧ entryType s 0 = 2 ∧ deferred s 0 = true) ∧
    (let s := agreedJ preBytes (withL 0 0); agreed s 0 = true ∧ entryType s 0 = 3 ∧ preemptVerdict s 0 = none) := by decide +kernel
/-- A launch packet that holds, whatever the template that it names says: its own bind table replaces it. -/
theorem wit_JournalEntries_accepted (tb : List (List Byte)) (h : Config.templateBinds [1] 0 = some tb) :
    agreed stateP 0 = true ∧ entryType stateP 0 = 1 ∧ ∃ a, validateLaunch stateP (headHoldings stateP) 0 = .ok a := by
  have h1 : sectOf (stateP.container (parsePkt (entryBytes stateP 0)).container) 0x0B = some [1] ∧
      (parsePkt (entryBytes stateP 0)).template = 0 := by decide +kernel
  have h2 : templateOf stateP (parsePkt (entryBytes stateP 0)) = some tb := by
    unfold templateOf; rw [h1.1, h1.2]; exact h
  have h3 : graphOf (stateP.container (parsePkt (entryBytes stateP 0)).container) (parsePkt (entryBytes stateP 0)).graph =
      some ⟨0, 1, [⟨0, 1, 0, 0, 0⟩], [], []⟩ := by decide +kernel
  have h4 : bindRecs stateP (parsePkt (entryBytes stateP 0)) tb = [] := by
    unfold bindRecs
    rw [if_neg (by decide +kernel)]
    have : (parsePkt (entryBytes stateP 0)).bindCount = 0 := by decide +kernel
    rw [this]; rfl
  have h5 : ¬ stateP.regs.stage < 3 ∧ (packetOk stateP 0 (parsePkt (entryBytes stateP 0)) && (requestsOf stateP 0).all (fun m => m.2.ok)) = true := by decide +kernel
  have h7 : entryType stateP 0 = 1 := by decide +kernel
  have h8 : stateP.pkg.round = some ⟨0, [(0, 0, 0)], [], false, 1, []⟩ := rfl
  have h9 : (maskDies 1).all (fun d => [((0 : Nat), ((0 : Nat), (0 : Nat)))].any (fun v => v.1 == d)) = true := by decide +kernel
  suffices hok : ∃ a, validateLaunch stateP (headHoldings stateP) 0 = .ok a by
    refine ⟨?_, h7, hok⟩
    obtain ⟨a, ha⟩ := hok
    have hv : verdictOf stateP (headHoldings stateP) 0 = (0, 0) := by unfold verdictOf; simp only [h7, ha, if_true]
    unfold agreed
    rw [h8]
    simp only [h9, hv, List.all_cons, List.all_nil]
    rfl
  unfold validateLaunch
  rw [if_neg h5.1]
  simp only [h5.2, h3, h2, h4]
  have h6 : graphFieldsOk stateP 0 (parsePkt (entryBytes stateP 0)) ⟨0, 1, [⟨0, 1, 0, 0, 0⟩], [], []⟩ [] = true ∧
      serviceOk stateP (pktLaunch stateP (parsePkt (entryBytes stateP 0)) ⟨0, 1, [⟨0, 1, 0, 0, 0⟩], [], []⟩ []) ⟨0, 1, [⟨0, 1, 0, 0, 0⟩], [], []⟩ = true ∧
      checkBody stateP (pktLaunch stateP (parsePkt (entryBytes stateP 0)) ⟨0, 1, [⟨0, 1, 0, 0, 0⟩], [], []⟩ []) ⟨0, 1, [⟨0, 1, 0, 0, 0⟩], [], []⟩
        (switches (chainOf (requestsOf stateP 0))) = none ∧
      (match placeCheck stateP (headHoldings stateP) (pktLaunch stateP (parsePkt (entryBytes stateP 0)) ⟨0, 1, [⟨0, 1, 0, 0, 0⟩], [], []⟩ []) ⟨0, 1, [⟨0, 1, 0, 0, 0⟩], [], []⟩ with
        | .ok _ => true | .error _ => false) = true := by decide +kernel
  obtain ⟨a, b, c, d⟩ := h6
  simp only [List.map_nil, a, b, c, List.all_nil]
  split at d
  · rename_i p hp
    exact ⟨_, by simp only [hp, Except.map, Bool.and_true, Bool.not_true, Bool.false_eq_true, if_false]; rfl⟩
  · cases d

end Sys2Proof.Tests
end

section
/-! PROOF. Every step keeps memory in its canonical form (R2, R384).

Memory is written in three places of the model: where pending writes retire (`State.settle`), where a context frame or another
area of HBM is written (`State.putArea`), and at a module reset (`hostMemory`); every other operation leaves it alone or goes
through these. There is one lemma for each operation, `MemInv.f : MemInv s → MemInv (f s …)`, so that a proof follows the
operation's own branches and reads as the chain of operations that each branch performs. -/

namespace Sys2Proof.Safety

open Sys2Proof.Machine

variable {s : State}

/-- What `step` answers has its memory in canonical form. -/
def NextMemInv : Host.Outcome State Fault Refusal → Prop
  | .next t => MemInv t
  | _ => True

/-- An operation that is known to leave memory alone. -/
theorem MemInv.of_mem_eq {t : State} (hs : MemInv s) (h : t.mem = s.mem) : MemInv t := by
  unfold MemInv
  rw [h]
  exact hs

/-- An update of fields other than memory. -/
theorem MemInv.frame {poison flips writes tiles msgs dies hbm pkg net regs time stamp draws agenda focus} (hs : MemInv s) :
    MemInv ⟨s.mem, poison, flips, writes, tiles, msgs, dies, hbm, pkg, net, regs, time, stamp, draws, agenda, focus⟩ := hs

theorem MemInv.ite_of {β : Type} (g : β → State) {c : Prop} {_ : Decidable c} {a b : β} (ha : MemInv (g a)) (hb : MemInv (g b)) :
    MemInv (g (if c then a else b)) := by
  split <;> assumption

theorem MemInv.ite {c : Prop} {_ : Decidable c} {t : State} (hs : MemInv s) (ht : MemInv t) : MemInv (if c then s else t) :=
  .ite_of id hs ht

theorem MemInv.foldl_of {α β : Type} (g : β → State) {f : β → α → β} {l : List α} {b : β} (hb : MemInv (g b))
    (hf : ∀ b x, MemInv (g b) → MemInv (g (f b x))) : MemInv (g (l.foldl f b)) :=
  List.foldlRecOn (motive := fun b => MemInv (g b)) l f hb fun b hb x _ => hf b x hb

theorem MemInv.foldl {α : Type} {f : State → α → State} {l : List α} (hs : MemInv s)
    (hf : ∀ s x, MemInv s → MemInv (f s x)) : MemInv (l.foldl f s) := MemInv.foldl_of id hs hf

/-! ## Updates that leave memory alone -/

theorem MemInv.logAt {d array unit ctx a flags} (hs : MemInv s) : MemInv (s.logAt d array unit ctx a flags) := hs.frame
theorem MemInv.markSeen {task cls p} (hs : MemInv s) : MemInv (s.markSeen task cls p) := hs.frame
theorem MemInv.setTile {t v} (hs : MemInv s) : MemInv (s.setTile t v) := hs.frame
theorem MemInv.modTile {t f} (hs : MemInv s) : MemInv (s.modTile t f) := hs.frame
theorem MemInv.modDie {d f} (hs : MemInv s) : MemInv (s.modDie d f) := hs.frame
theorem MemInv.modStack {k f} (hs : MemInv s) : MemInv (s.modStack k f) := hs.frame
theorem MemInv.modPkg {f} (hs : MemInv s) : MemInv (s.modPkg f) := hs.frame
theorem MemInv.modNet {f} (hs : MemInv s) : MemInv (s.modNet f) := hs.frame
theorem MemInv.modRegs {f} (hs : MemInv s) : MemInv (s.modRegs f) := hs.frame
theorem MemInv.modTask {t slot f} (hs : MemInv s) : MemInv (s.modTask t slot f) := hs.frame
theorem MemInv.modExt {t slot f} (hs : MemInv s) : MemInv (s.modExt t slot f) := hs.frame
theorem MemInv.modLaunch {q f} (hs : MemInv s) : MemInv (s.modLaunch q f) := hs.frame
theorem MemInv.modLext {q f} (hs : MemInv s) : MemInv (s.modLext q f) := hs.frame
theorem MemInv.modCur {f} (hs : MemInv s) : MemInv (s.modCur f) := hs.frame
theorem MemInv.wx {r v} (hs : MemInv s) : MemInv (s.wx r v) := hs.frame
theorem MemInv.draw (hs : MemInv s) : MemInv s.draw.2 := hs.frame
theorem MemInv.addDigest {t slot x} (hs : MemInv s) : MemInv (s.addDigest t slot x) := hs.frame
theorem MemInv.pump (hs : MemInv s) : MemInv s.pump := hs.frame
theorem MemInv.modWin {t w f} (hs : MemInv s) : MemInv (s.modWin t w f) := hs.frame
theorem MemInv.modProd {p t w f} (hs : MemInv s) : MemInv (s.modProd p t w f) := hs.frame
theorem MemInv.event {t r} (hs : MemInv s) : MemInv (s.event t r) := hs.frame
theorem MemInv.installOn {t} (hs : MemInv s) : MemInv (installOn s t) := hs.frame
theorem MemInv.startCopy {t c} (hs : MemInv s) : MemInv (startCopy s t c) := hs.frame
theorem MemInv.setNodes {cl n} (hs : MemInv s) : MemInv (s.setNodes cl n) := hs.frame
theorem MemInv.setGroup {i g} (hs : MemInv s) : MemInv (s.setGroup i g) := hs.frame
theorem MemInv.endInGroups {q lidx} (hs : MemInv s) : MemInv (endInGroups s q lidx) := hs.frame
theorem MemInv.takeTicket (hs : MemInv s) : MemInv (takeTicket s).2 := hs.frame
theorem MemInv.closeSection {t slot explicit x} (hs : MemInv s) : MemInv (closeSection s t slot explicit x) := hs.frame
theorem MemInv.readLocal {c t slot n} (hs : MemInv s) : MemInv (readLocal s c t slot n).1 := hs.frame
theorem MemInv.joinSection {explicit c} (hs : MemInv s) : MemInv (joinSection s explicit c) := hs.frame
theorem MemInv.passProxy {t key} (hs : MemInv s) : MemInv (passProxy s t key) := hs.frame
theorem MemInv.setBank {k b x} (hs : MemInv s) : MemInv (setBank s k b x) := hs.frame
theorem MemInv.mxNext {t} (hs : MemInv s) : MemInv (mxNext s t) := hs.frame
theorem MemInv.raiseMsix {v} (hs : MemInv s) : MemInv (raiseMsix s v) := hs.frame
theorem MemInv.modActor {q x f} (hs : MemInv s) : MemInv (s.modActor q x f) := hs.frame
theorem MemInv.addFinal {q lidx x} (hs : MemInv s) : MemInv (s.addFinal q lidx x) := hs.frame
theorem MemInv.dropCmds {t slot} (hs : MemInv s) : MemInv (dropCmds s t slot) := hs.frame
theorem MemInv.recountNodes (hs : MemInv s) : MemInv (recountNodes s) := hs.frame
theorem MemInv.restoreGroups {q gs} (hs : MemInv s) : MemInv (restoreGroups s q gs) := hs.frame
theorem MemInv.sendAck {src cls} (hs : MemInv s) : MemInv (sendAck s src cls) := hs.frame
theorem MemInv.dropStaging {f} (hs : MemInv s) : MemInv (dropStaging s f) := hs.frame
theorem MemInv.setCmd {t slot c} (hs : MemInv s) : MemInv (setCmd s t slot c) := hs.frame
theorem MemInv.returnTiles (hs : MemInv s) : MemInv (returnTiles s) := hs.frame
theorem MemInv.failLaunch {q code} (hs : MemInv s) : MemInv (failLaunch s q code) := hs.frame
theorem MemInv.modPair {src dst f} (hs : MemInv s) : MemInv (s.modPair src dst f) := hs.frame
theorem MemInv.modLink {d f} (hs : MemInv s) : MemInv (modLink s d f) := hs.frame
theorem MemInv.stopBringUp {code} (hs : MemInv s) : MemInv (stopBringUp s code) := hs.frame
theorem MemInv.setStage {n} (hs : MemInv s) : MemInv (setStage s n) := hs.frame
theorem MemInv.unsupported {link} (hs : MemInv s) : MemInv (unsupported s link) := hs.frame
theorem MemInv.done (hs : MemInv s) : MemInv (Act.done s).state := hs.frame
theorem MemInv.wait (hs : MemInv s) : MemInv (Act.wait s).state := hs.frame
theorem MemInv.ret {rd v} (hs : MemInv s) : MemInv (Act.ret s rd v).state := hs.frame
theorem MemInv.retN {rd v} (hs : MemInv s) : MemInv (Act.retN s rd v).state := hs.frame

/-! ## Memory -/

theorem MemInv.addWrite {x p} (hs : MemInv s) : MemInv (s.addWrite x p) := State.wf_addWrite x p hs
theorem MemInv.addData {x bs} (hs : MemInv s) : MemInv (s.addData x bs) := State.wf_addData x bs hs
theorem MemInv.put {a bs p} (hs : MemInv s) : MemInv (s.put a bs p) := State.wf_put a bs p hs
theorem MemInv.perform {p r} (hs : MemInv s) : MemInv (s.perform p r) := State.wf_perform p r hs
theorem MemInv.writeParts {w reach p ps bs} (hs : MemInv s) : MemInv (s.writeParts w reach p ps bs) :=
  State.wf_writeParts w reach p ps bs hs
theorem MemInv.store {w a ps bs p reach} (hs : MemInv s) : MemInv (s.store w a ps bs p reach) :=
  State.wf_store w a ps bs p reach hs
theorem MemInv.putArea {a span ps} (hs : MemInv s) : MemInv (s.putArea a span ps) := State.wf_putArea a span ps hs
theorem MemInv.putFrame {a ps} (hs : MemInv s) : MemInv (s.putFrame a ps) := State.wf_putFrame a ps hs
theorem MemInv.strike {d array unit ctx off n} (hs : MemInv s) : MemInv (strike s d array unit ctx off n).2 :=
  hs.of_mem_eq (strike_mem s d array unit ctx off n)
theorem MemInv.touchUnits {q ctx tensor off n} (hs : MemInv s) : MemInv (s.touchUnits q ctx tensor off n) :=
  hs.of_mem_eq (State.touchUnits_mem s q ctx tensor off n)
theorem MemInv.foldShared {w a bs} (hs : MemInv s) : MemInv (s.foldShared w a bs) := hs.of_mem_eq (State.foldShared_mem s w a bs)

/-! ## Taking a trap (R199 to R201) -/

theorem MemInv.deliverFault {t q r} (hs : MemInv s) : MemInv (deliverFault s t q r) := hs.of_mem_eq (deliverFault_mem s t q r)
theorem MemInv.stopSource {t src st} (hs : MemInv s) : MemInv (stopSource s t src st) := hs.of_mem_eq (stopSource_mem s t src st)
theorem MemInv.enter {t} (hs : MemInv s) : MemInv (enter s t) := hs.of_mem_eq (enter_mem s t)
theorem MemInv.raiseTrap {t slot src w1 tr} (hs : MemInv s) : MemInv (raiseTrap s t slot src w1 tr) :=
  hs.of_mem_eq (raiseTrap_mem s t slot src w1 tr)
theorem MemInv.raiseCore {tr} (hs : MemInv s) : MemInv (raiseCore s tr) := hs.of_mem_eq (raiseCore_mem s tr)
theorem MemInv.holdCore {tr} (hs : MemInv s) : MemInv (holdCore s tr) := hs.of_mem_eq (holdCore_mem s tr)

/-! ## Monitor, fetch traps and the arrays of a tile (R193, R433, R434) -/

theorem MemInv.enterMonitor {t c off} (hs : MemInv s) : MemInv (enterMonitor s t c off) := hs.ite hs.frame
theorem MemInv.raiseFetch {tr} (hs : MemInv s) : MemInv (raiseFetch s tr) := hs.frame.ite hs.raiseCore
theorem MemInv.ctlOnly {a : Act} (hs : MemInv s) (ha : MemInv a.state) : MemInv (ctlOnly s a).state := by
  unfold Machine.ctlOnly
  split
  · exact ha
  · exact hs.raiseCore
theorem MemInv.strikeRows {t ctx plane keys} (hs : MemInv s) : MemInv (strikeRows s t ctx plane keys) := by
  unfold Machine.strikeRows
  dsimp only
  repeat' split
  all_goals exact hs.frame
theorem MemInv.strikeAcc {t ctx row n} (hs : MemInv s) : MemInv (strikeAcc s t ctx row n) := by
  unfold Machine.strikeAcc
  dsimp only
  split
  · exact hs.strike.modTile
  · exact hs.strike
theorem MemInv.drawTables {t} (hs : MemInv s) : MemInv (drawTables s t) := by
  unfold Machine.drawTables
  dsimp only
  split <;> exact hs.frame
theorem MemInv.strikeTables {t} (hs : MemInv s) : MemInv (strikeTables s t) := by
  unfold Machine.strikeTables
  dsimp only
  split <;> exact hs.frame
theorem MemInv.strikeContext {t ctx} (hs : MemInv s) : MemInv (strikeContext s t ctx) := by
  unfold Machine.strikeContext
  dsimp only
  exact (hs.foldl fun _ _ hs => by
    split
    · exact (MemInv.strike (by
        split
        · exact hs.strike.modTile
        · exact hs.strike)).modTile
    · exact MemInv.strike (by
        split
        · exact hs.strike.modTile
        · exact hs.strike)).strikeRows.strikeRows.strikeAcc

/-! ## Control and status registers (R198) -/

theorem MemInv.writeMach {n x} (hs : MemInv s) : MemInv (writeMach s n x) := by
  unfold Machine.writeMach
  dsimp only
  repeat' split
  all_goals exact hs.frame

/-! ## The base profile (R193 to R198) -/

theorem MemInv.execInstructionFetch {t c} (hs : MemInv s) : NextMemInv (execInstructionFetch t c s) := by
  unfold Machine.execInstructionFetch
  dsimp only
  split
  · exact hs.frame
  split
  · exact hs.frame.raiseFetch
  · exact hs.frame
theorem MemInv.nextInstr (hs : MemInv s) : MemInv (nextInstr s).2 := by
  unfold Machine.nextInstr
  split
  · exact hs.frame
  split
  · exact hs.frame
  split
  · exact hs.frame.raiseFetch
  · exact hs.frame
theorem MemInv.execBaseInstruction {op} (hs : MemInv s) : NextMemInv (execBaseInstruction op s) := by
  unfold Machine.execBaseInstruction
  split
  · exact hs.frame
  · exact hs.frame
  · exact hs.frame
  · exact hs.frame
  · exact hs.frame
  · exact hs.frame
  · exact hs.frame
  · exact hs.frame
  · split <;> exact hs.frame
  · exact hs.raiseCore
theorem MemInv.xlateFail {tr} (hs : MemInv s) : MemInv (xlateFail s tr).state := by
  unfold Machine.xlateFail
  split
  · exact hs.holdCore
  · exact hs.raiseCore
theorem MemInv.execScalarLoad {k rd rs1 i} (hs : MemInv s) : NextMemInv (execScalarLoad k rd rs1 i s) := by
  unfold Machine.execScalarLoad
  dsimp only
  split
  · exact hs.raiseCore
  split
  · exact hs.raiseCore
  · split
    · exact hs.raiseCore
    · exact hs.frame
  · split
    · exact hs.raiseCore
    · exact hs.frame
  split
  · exact hs.frame.xlateFail
  split
  · exact hs.frame.raiseCore
  · exact hs.frame
theorem MemInv.storeDmem {off bs} (hs : MemInv s) : MemInv (storeDmem s off bs) :=
  (hs.frame.ite hs).modCur.strike.modCur.ite (hs.frame.ite hs).modCur.strike
theorem MemInv.execScalarStore {k rs1 rs2 i} (hs : MemInv s) : NextMemInv (execScalarStore k rs1 rs2 i s) := by
  unfold Machine.execScalarStore
  dsimp only
  split
  · exact hs.raiseCore
  split
  · exact hs.raiseCore
  · exact hs.raiseCore
  · exact hs.storeDmem.done
  split
  · exact hs.frame.xlateFail
  · exact hs.frame.store.done
theorem MemInv.execCsrAccess {k rd src csr} (hs : MemInv s) : NextMemInv (execCsrAccess k rd src csr s) := by
  unfold Machine.execCsrAccess
  dsimp only
  split
  · split
    · exact hs.raiseCore
    split
    · exact hs.raiseCore
    · exact MemInv.ret (by split <;> exact hs.frame)
  split
  · exact hs.raiseCore
  split
  · exact hs.raiseCore
  · exact MemInv.ret (by
      split
      · exact hs.writeMach
      · exact hs)
theorem MemInv.execFence {k} (hs : MemInv s) : NextMemInv (execFence k s) := hs.frame
theorem MemInv.execEcall {k} (hs : MemInv s) : NextMemInv (execEcall k s) := by
  unfold Machine.execEcall
  split
  · exact hs.raiseCore
  split
  · exact hs.frame
  · exact hs.frame
  · exact hs.frame
  · exact hs.raiseCore
  · exact hs.raiseCore
theorem MemInv.execEbreak (hs : MemInv s) : NextMemInv (execEbreak s) := hs.raiseCore

/-! ## Sending transport frames (R345, R348) -/

theorem MemInv.sendControl {q kind arg} (hs : MemInv s) : MemInv (s.sendControl q kind arg) := hs.foldl fun _ _ hs => hs.frame
theorem MemInv.sendData {dst cls opcode hdr bs launch} (hs : MemInv s) : MemInv (s.sendData dst cls opcode hdr bs launch) :=
  hs.foldl fun _ _ hs => hs.frame
theorem MemInv.sendCommand {dst cls opcode op ctx tensor off key bs sect cmd} (hs : MemInv s) :
    MemInv (s.sendCommand dst cls opcode op ctx tensor off key bs sect cmd) :=
  hs.foldl fun _ _ hs => hs.frame

/-! ## Releases, acquires and fences (R267 to R270, R387 to R392) -/

theorem MemInv.releaseIf {t slot key num p} (hs : MemInv s) : MemInv (releaseIf s t slot key num p) :=
  hs.foldl fun _ _ hs => hs.frame.perform.frame
theorem MemInv.release {t slot key num} (hs : MemInv s) : MemInv (release s t slot key num) := hs.releaseIf
theorem MemInv.acquire {t slot key below} (hs : MemInv s) : MemInv (acquire s t slot key below) :=
  (hs.foldl fun _ _ hs => hs.frame).frame.foldl fun _ _ hs => hs.perform
theorem MemInv.fenceScalar {scope} (hs : MemInv s) : MemInv (fenceScalar s scope) := hs.frame.perform.perform
theorem MemInv.fencePaths {a b} (hs : MemInv s) : MemInv (fencePaths s a b) :=
  ((hs.perform.ite hs.perform.perform).foldl fun _ _ hs => hs.perform).ite hs.perform
theorem MemInv.atomicFind {a} (hs : MemInv s) : MemInv (atomicFind s a).1 := by
  unfold Machine.atomicFind
  dsimp only
  repeat' split
  all_goals exact hs.frame
theorem MemInv.strongStore {pa scope v} (hs : MemInv s) : MemInv (strongStore s pa scope v) := hs.addWrite
theorem MemInv.strongStoreNow {pa scope v} (hs : MemInv s) : MemInv (strongStoreNow s pa scope v) := hs.addWrite
theorem MemInv.foldAtomic {a operand} (hs : MemInv s) : MemInv (foldAtomic s a operand) := hs.ite hs.frame.touchUnits
theorem MemInv.atomicFail {tr} (hs : MemInv s) : MemInv (atomicFail s tr).state := by
  unfold Machine.atomicFail
  split
  · exact hs.holdCore
  · exact hs.raiseCore

/-! ## Moving tokens between the ends of a window (R325 to R333) -/

theorem MemInv.openWindow {t w x} (hs : MemInv s) : MemInv (openWindow s t w x) := by
  unfold Machine.openWindow
  dsimp only
  split <;> exact hs.frame
theorem MemInv.closeWindow {t w} (hs : MemInv s) : MemInv (closeWindow s t w) := by
  unfold Machine.closeWindow
  dsimp only
  repeat' split
  all_goals exact hs.frame
theorem MemInv.announceDue {q n} (hs : MemInv s) : MemInv (announceDue s q n) := hs.frame.sendControl
theorem MemInv.sendMsg {t w m} (hs : MemInv s) : MemInv (sendMsg s t w m) := by
  unfold Machine.sendMsg
  dsimp only
  split <;> exact hs.frame
theorem MemInv.logArrival {t w n} (hs : MemInv s) : MemInv (logArrival s t w n) := by
  unfold Machine.logArrival
  dsimp only
  split
  · exact hs
  split
  · exact hs
  · exact hs.frame.ite hs
theorem MemInv.logMark {x m} (hs : MemInv s) : MemInv (logMark s x m) := by
  unfold Machine.logMark
  dsimp only
  split
  · exact hs
  · exact hs.frame.ite hs
theorem MemInv.applyAdvance {t w n idx} (hs : MemInv s) : MemInv (applyAdvance s t w n idx) := hs.frame.logArrival
theorem MemInv.consume {t w n} (hs : MemInv s) : MemInv (consume s t w n) := by
  unfold Machine.consume
  dsimp only
  split
  · exact hs
  split
  · exact hs
  split
  · split
    · exact ((hs.frame.ite hs.frame.sendMsg).ite hs.frame).announceDue
    · exact (hs.frame.ite hs.frame.sendMsg).ite hs.frame
  · exact (hs.frame.ite hs.frame.sendMsg).ite hs.frame
theorem MemInv.takeSlots {p t w n} (hs : MemInv s) : MemInv (takeSlots s p t w n) := by
  unfold Machine.takeSlots
  split <;> exact hs.frame
theorem MemInv.advance {p t w n ev} (hs : MemInv s) : MemInv (advance s p t w n ev).1 := by
  unfold Machine.advance
  split
  · exact hs
  split
  · exact hs.applyAdvance
  · exact hs.sendMsg

/-! ## Staging a configuration (R237) -/

theorem MemInv.stageOn {t ms conf} (hs : MemInv s) : MemInv (stageOn s t ms conf) := hs.frame.strikeRows

/-! ## The tile-copy unit (R228 to R232) -/

theorem MemInv.writeRuns {w reach mask fuel a ds} (hs : MemInv s) : MemInv (writeRuns s w reach mask fuel a ds) := by
  induction fuel generalizing s a ds with
  | zero => exact hs
  | succ n ih =>
    cases ds with
    | nil => exact hs
    | cons d ds => exact ih (hs.ite hs.addWrite)
theorem MemInv.writeRow {w reach mask ps ds} (hs : MemInv s) : MemInv (writeRow s w reach mask ps ds) := by
  induction ps generalizing s ds with
  | nil => exact hs
  | cons p ps ih => exact ih hs.writeRuns
theorem MemInv.moveRows {w reach mask n rows} (hs : MemInv s) : MemInv (moveRows s w reach mask n rows).s := by
  unfold Machine.moveRows
  dsimp only
  split
  · exact hs.foldl fun _ _ hs => hs.frame
  · exact (hs.foldl fun _ _ hs => hs.frame).foldl fun _ _ hs => hs.writeRow.foldShared
theorem MemInv.drainProxy {t w} (hs : MemInv s) : MemInv (drainProxy s t w) := by
  unfold Machine.drainProxy
  dsimp only
  split
  · exact hs
  · exact hs.ite (hs.foldl fun _ _ hs => hs.sendData).modWin
theorem MemInv.finishPush {t c w n tile} (hs : MemInv s) : MemInv (finishPush s t c w n tile) := by
  unfold Machine.finishPush
  dsimp only
  exact MemInv.drainProxy (by
    split
    · split
      · split
        · exact hs.advance.event
        · exact hs.advance
      · exact hs.advance
    split
    · split
      · exact hs.advance.event
      · exact hs.advance
    · exact hs.advance)
theorem MemInv.rollBack {t slot x code} (hs : MemInv s) : MemInv (rollBack s t slot x code) := by
  unfold Machine.rollBack
  dsimp only
  split <;> exact hs.frame
theorem MemInv.takeRollback {t slot} (hs : MemInv s) : MemInv (takeRollback s t slot) := by
  unfold Machine.takeRollback
  split
  · exact hs.frame.rollBack
  · exact hs
theorem MemInv.finishPop {t c w n} (hs : MemInv s) : MemInv (finishPop s t c w n) := by
  unfold Machine.finishPop
  dsimp only
  split
  · exact (MemInv.modTile (by
      split
      · split
        · exact hs.consume.event
        · exact hs.consume
      · exact hs.consume)).markSeen.takeRollback
  · exact (MemInv.modTile (by
      split
      · split
        · exact hs.consume.event
        · exact hs.consume
      · exact hs.consume)).markSeen
theorem MemInv.consumeAfter {t w c} (hs : MemInv s) : MemInv (consumeAfter s t w c) := hs.ite hs.consume
theorem MemInv.runCopy {t c} (hs : MemInv s) : MemInv (runCopy s t c).s := by
  unfold Machine.runCopy
  dsimp only
  split
  · exact hs.moveRows
  · exact hs.moveRows
  · exact hs.moveRows
  · refine MemInv.foldl_of CopyEnd.s hs fun e _ hs => ?_
    split
    · exact hs
    · exact hs.moveRows
theorem MemInv.finishCopy {t c fault poison moved} (hs : MemInv s) : MemInv (finishCopy s t c fault poison moved) := by
  unfold Machine.finishCopy
  dsimp only
  split
  · split <;> exact hs.frame
  · exact hs.ite hs.finishPush
  · exact (hs.frame.ite hs.finishPop).consumeAfter
  · exact hs
theorem MemInv.copyComplete {t i} (hs : MemInv s) : MemInv (copyComplete s t i) := by
  unfold Machine.copyComplete
  dsimp only
  split
  · exact hs
  split
  · exact hs
  split
  · exact hs.runCopy.modTile.deliverFault
  · exact MemInv.finishCopy (by
      split
      · exact hs.runCopy.modTile.deliverFault
      · exact hs.runCopy.modTile)
theorem MemInv.execTileCopyComplete {t i} (hs : MemInv s) : NextMemInv (execTileCopyComplete t i s) := hs.copyComplete
theorem MemInv.finishReads {t fuel} (hs : MemInv s) : MemInv (finishReads t fuel s) := by
  induction fuel generalizing s with
  | zero => exact hs
  | succ n ih =>
    unfold Machine.finishReads
    split
    · exact ih hs.copyComplete
    · exact hs

/-! ## Ring windows and tile copies (R220 to R232) -/

theorem MemInv.execRwOpen {d a b} (hs : MemInv s) : NextMemInv (execRwOpen d a b s) := by
  unfold Machine.execRwOpen
  dsimp only
  split
  · exact hs.raiseCore
  split
  · exact hs.raiseCore
  split
  · exact hs.frame
  split
  · exact hs.raiseCore
  split
  · exact hs.raiseCore
  · exact hs.openWindow.ret
theorem MemInv.execRwPush {a b} (hs : MemInv s) : NextMemInv (execRwPush a b s) := by
  unfold Machine.execRwPush
  dsimp only
  split
  · exact hs.raiseCore
  split
  · exact hs.raiseCore
  split
  · exact hs.raiseCore
  split
  · exact hs.raiseCore
  split
  · exact hs.frame
  split
  · exact hs.frame
  · exact hs.release.startCopy.takeSlots.done
theorem MemInv.execRwPop {a b} (hs : MemInv s) : NextMemInv (execRwPop a b s) := by
  unfold Machine.execRwPop
  dsimp only
  split
  · exact hs.raiseCore
  split
  · exact hs.frame
  split
  · exact hs.raiseCore
  split
  · exact hs.raiseCore
  split
  · exact hs.raiseCore
  split
  · exact hs.frame
  split
  · split
    · exact hs.acquire.consume.event.done
    · exact hs.acquire.consume.done
  split
  · exact hs.frame
  · exact hs.acquire.startCopy.wait
theorem MemInv.execRwWait {d a b} (hs : MemInv s) : NextMemInv (execRwWait d a b s) := by
  unfold Machine.execRwWait
  dsimp only
  split
  · exact hs.raiseCore
  split
  · exact hs.raiseCore
  split
  · exact (hs.ite hs.acquire).retN
  · exact hs.frame
theorem MemInv.execRwStat {d a} (hs : MemInv s) : NextMemInv (execRwStat d a s) := by
  unfold Machine.execRwStat
  dsimp only
  split
  · exact hs.raiseCore
  · exact hs.frame
theorem MemInv.execRwLap {d a} (hs : MemInv s) : NextMemInv (execRwLap d a s) := by
  unfold Machine.execRwLap
  dsimp only
  split
  · exact hs.raiseCore
  · exact hs.frame
theorem MemInv.execAdvanceMessage {t w} (hs : MemInv s) : NextMemInv (execAdvanceMessage t w s) := by
  unfold Machine.execAdvanceMessage
  dsimp only
  split
  · split
    · exact hs.frame.applyAdvance.event
    · exact hs.frame.applyAdvance
  · exact hs.frame
theorem MemInv.execReleaseMessage {t w} (hs : MemInv s) : NextMemInv (execReleaseMessage t w s) := by
  unfold Machine.execReleaseMessage
  dsimp only
  repeat' split
  all_goals exact hs.frame
theorem MemInv.onCore {t c} {f : State → State} (hs : MemInv s) (hf : ∀ s, MemInv s → MemInv (f s)) :
    MemInv (onCore s t c f) := (hf _ hs.frame).frame
theorem MemInv.execRwWaitExpiry {t c} (hs : MemInv s) : NextMemInv (execRwWaitExpiry t c s) := by
  unfold Machine.execRwWaitExpiry
  dsimp only
  split
  · exact hs.onCore fun _ hs => by
      split
      · exact hs
      · exact hs.frame.raiseCore.ite hs
  · exact hs
theorem MemInv.issueCopy {c} (hs : MemInv s) : MemInv (issueCopy s c).1 := by
  unfold Machine.issueCopy
  dsimp only
  repeat' split
  all_goals exact hs.frame
theorem MemInv.execTcCopy {d a b} (hs : MemInv s) : NextMemInv (execTcCopy d a b s) := by
  unfold Machine.execTcCopy
  dsimp only
  split
  · exact hs.raiseCore
  split
  · exact hs.frame
  · exact hs.issueCopy.retN
theorem MemInv.execTcCopy2 {d a b} (hs : MemInv s) : NextMemInv (execTcCopy2 d a b s) := by
  unfold Machine.execTcCopy2
  dsimp only
  split
  · exact hs.raiseCore
  split
  · exact hs.raiseCore
  split
  · exact hs.raiseCore
  split
  · exact hs.frame
  · exact hs.issueCopy.retN
theorem MemInv.execTcWait {d a} (hs : MemInv s) : NextMemInv (execTcWait d a s) := by
  unfold Machine.execTcWait
  dsimp only
  split
  · split <;> exact hs.frame
  split
  · exact hs.raiseCore
  split <;> exact hs.frame
theorem MemInv.execTcStat {d a} (hs : MemInv s) : NextMemInv (execTcStat d a s) := by
  unfold Machine.execTcStat
  dsimp only
  split
  · exact hs.raiseCore
  split <;> exact hs.frame

/-! ## Futures (R253 to R258) -/

theorem MemInv.setFut {k f} (hs : MemInv s) : MemInv (s.setFut k f) := hs.frame.strike.modPkg.ite hs.frame.strike
theorem MemInv.noteFuture {who k} (hs : MemInv s) : MemInv (noteFuture s who k) := hs.ite hs.frame
theorem MemInv.runRecord {c h v poisoned} (hs : MemInv s) :
    MemInv (runRecord s c h v poisoned) := hs.ite (hs.deliverFault.ite hs.frame)
theorem MemInv.releaseTarget {c watched target} (hs : MemInv s) : MemInv (releaseTarget s c watched target) :=
  hs.ite hs.acquire.releaseIf
theorem MemInv.seeFuture {t slot word} (hs : MemInv s) :
    MemInv (seeFuture s t slot word) := hs.acquire.foldl fun _ _ hs => hs.perform
theorem MemInv.seeReady {h} (hs : MemInv s) : MemInv (seeReady s h) := hs.seeFuture.markSeen
theorem MemInv.waitAct {d h} (hs : MemInv s) : MemInv (waitAct d h s).state := by
  unfold Machine.waitAct
  split
  · exact hs.seeReady.ret
  · exact hs.raiseCore
  · exact hs.frame
theorem MemInv.completeWaits {h} (hs : MemInv s) : MemInv (completeWaits s h) := by
  refine hs.foldl fun _ _ hs => ?_
  extract_lets t s1
  have h1 : MemInv s1 := hs.foldl fun _ _ hs => by
    split
    · exact hs.onCore fun _ hs => hs.waitAct
    · exact hs
  split
  · exact h1
  · exact h1.foldl fun _ _ hs => by
      split
      · exact hs.seeFuture.modTask.ite hs
      · exact hs
theorem MemInv.setFuture {who v poisoned fuel h} (hs : MemInv s) : MemInv (setFuture who v poisoned fuel s h) := by
  induction fuel generalizing s h with
  | zero => exact hs
  | succ n ih =>
    exact hs.ite (hs.noteFuture.setFut.setNodes.foldl fun _ _ hs => hs.runRecord.ite (ih hs.releaseTarget)).completeWaits
theorem MemInv.resolveFuture {who h v poisoned} (hs : MemInv s) : MemInv (resolveFuture s who h v poisoned) := hs.setFuture
theorem MemInv.dropFuture {h} (hs : MemInv s) : MemInv (dropFuture s h) := hs.setFut.setNodes
theorem MemInv.faultSaved {t slot c k tr} (hs : MemInv s) : MemInv (faultSaved s t slot c k tr) := hs.frame.deliverFault
theorem MemInv.dropWaits {h} (hs : MemInv s) : MemInv (dropWaits s h) := by
  unfold Machine.dropWaits
  dsimp only
  exact hs.foldl fun _ _ hs => (hs.foldl fun _ _ hs => (hs.onCore fun _ hs => hs.raiseCore).ite hs).foldl fun _ _ hs => by
    split
    · exact hs.foldl fun _ _ hs => hs.faultSaved.ite hs
    · exact hs
theorem MemInv.takeFuture {h} (hs : MemInv s) : MemInv (takeFuture s h) := hs.noteFuture.setFut
theorem MemInv.execFuNew {d} (hs : MemInv s) : NextMemInv (execFuNew d s) := by
  unfold Machine.execFuNew
  split
  · exact hs.takeFuture.retN
  · exact hs.frame
theorem MemInv.execFuSet {a b} (hs : MemInv s) : NextMemInv (execFuSet a b s) := by
  unfold Machine.execFuSet
  split
  · exact hs.raiseCore
  split
  · exact hs.raiseCore
  · exact hs.release.resolveFuture.done
theorem MemInv.execFuGet {d a} (hs : MemInv s) : NextMemInv (execFuGet d a s) := by
  unfold Machine.execFuGet
  split
  · exact hs.raiseCore
  · exact (hs.seeReady.ite hs).retN
theorem MemInv.execFuWait {d a b} (hs : MemInv s) : NextMemInv (execFuWait d a b s) := by
  unfold Machine.execFuWait
  split
  · exact hs.raiseCore
  split
  · exact hs.raiseCore
  · exact hs.waitAct
theorem MemInv.execFuThen {a b} (hs : MemInv s) : NextMemInv (execFuThen a b s) := by
  unfold Machine.execFuThen
  dsimp only
  split
  · exact hs.raiseCore
  split
  · exact hs.raiseCore
  split
  · split
    · exact hs.raiseCore
    · exact hs.noteFuture.setFut.setNodes.done
  split
  · exact hs.runRecord.done
  · exact hs.releaseTarget.resolveFuture.done
theorem MemInv.execFuDrop {a} (hs : MemInv s) : NextMemInv (execFuDrop a s) := by
  unfold Machine.execFuDrop
  split
  · exact hs.raiseCore
  · exact hs.noteFuture.dropFuture.dropWaits.done
theorem MemInv.execFuWaitExpiry {t c} (hs : MemInv s) : NextMemInv (execFuWaitExpiry t c s) := by
  unfold Machine.execFuWaitExpiry
  dsimp only
  split
  · exact hs.onCore fun _ hs => hs.raiseCore.ite hs
  · exact hs

/-! ## Group barriers and casts (R259 to R262) -/

theorem MemInv.arrive {i g} (hs : MemInv s) : MemInv (arrive s i g) := hs.release.frame.modExt.setGroup
theorem MemInv.seeCasts {g} (hs : MemInv s) : MemInv (seeCasts s g) := hs.foldl fun _ _ hs => hs.perform
theorem MemInv.groupWait {d g cur at'} (hs : MemInv s) : MemInv (groupWait s d g cur at').state := by
  unfold Machine.groupWait
  split
  · exact hs.seeCasts.acquire.modExt.retN
  split <;> exact hs.frame
theorem MemInv.execGrArrive {a} (hs : MemInv s) : NextMemInv (execGrArrive a s) := by
  unfold Machine.execGrArrive
  dsimp only
  exact hs.ctlOnly <| by
    split
    · exact hs.raiseCore
    split
    · exact hs.raiseCore
    split
    · exact hs.raiseCore
    split
    · exact hs.frame
    · exact hs.arrive.done
theorem MemInv.execGrWait {d a b} (hs : MemInv s) : NextMemInv (execGrWait d a b s) := by
  unfold Machine.execGrWait
  dsimp only
  exact hs.ctlOnly <| by
    split
    · exact hs.raiseCore
    split
    · exact hs.raiseCore
    split
    · exact hs.raiseCore
    · exact hs.groupWait
theorem MemInv.execGrBar {d a b} (hs : MemInv s) : NextMemInv (execGrBar d a b s) := by
  unfold Machine.execGrBar
  dsimp only
  exact hs.ctlOnly <| by
    split
    · exact hs.raiseCore
    split
    · exact hs.raiseCore
    split
    · exact hs.groupWait
    split
    · exact hs.frame
    · exact hs.arrive.groupWait
theorem MemInv.execGrCast {a b} (hs : MemInv s) : NextMemInv (execGrCast a b s) := by
  unfold Machine.execGrCast
  dsimp only
  exact hs.ctlOnly <| by
    split
    · exact hs.raiseCore
    split
    · exact hs.raiseCore
    split
    · exact hs.raiseCore
    split
    · exact hs.raiseCore
    split <;> exact hs.frame
theorem MemInv.execGrWaitExpiry {t} (hs : MemInv s) : NextMemInv (execGrWaitExpiry t s) := by
  unfold Machine.execGrWaitExpiry
  dsimp only
  split
  · exact hs.onCore fun _ hs => by
      split
      · exact hs.raiseCore.ite hs
      · exact hs
  · exact hs.onCore fun _ hs => by
      split
      · exact hs.raiseCore.ite hs
      · exact hs
  · exact hs

/-! ## Events and trap entry (R200, R246 to R250) -/

theorem MemInv.seeRecord {r popped} (hs : MemInv s) : MemInv (seeRecord s r popped) := by
  unfold Machine.seeRecord
  dsimp only
  split
  · exact hs.frame
  split
  · exact hs.frame
  · exact hs.frame.ite ((hs.frame.seeFuture.ite hs.frame).ite (hs.frame.ite (hs.frame.ite hs)))
theorem MemInv.execEvPop {d a} (hs : MemInv s) : NextMemInv (execEvPop d a s) := by
  unfold Machine.execEvPop
  dsimp only
  exact hs.ctlOnly <| by
    split
    · exact hs.raiseCore
    split
    · exact hs.raiseCore
    split
    · exact hs.frame
    · exact hs.frame.seeRecord.store.retN
theorem MemInv.execEvPeek {d a} (hs : MemInv s) : NextMemInv (execEvPeek d a s) := by
  unfold Machine.execEvPeek
  dsimp only
  exact hs.ctlOnly <| by
    split
    · exact hs.raiseCore
    split
    · exact hs.frame
    · exact hs.seeRecord.retN
theorem MemInv.execEvWait {d a b} (hs : MemInv s) : NextMemInv (execEvWait d a b s) :=
  hs.ctlOnly <| by
    split
    · exact hs.raiseCore
    split
    · exact hs.seeRecord.retN
    split <;> exact hs.frame
theorem MemInv.execEvWaitExpiry {t} (hs : MemInv s) : NextMemInv (execEvWaitExpiry t s) := by
  unfold Machine.execEvWaitExpiry
  split
  · exact hs.onCore fun _ hs => hs.frame.raiseCore.ite hs
  · exact hs
theorem MemInv.execEventRecordWrite {t i} (hs : MemInv s) : NextMemInv (execEventRecordWrite t i s) := by
  unfold Machine.execEventRecordWrite
  dsimp only
  split
  · exact hs
  · exact hs.ite hs.frame
theorem MemInv.execTrapEntry {t} (hs : MemInv s) : NextMemInv (execTrapEntry t s) := hs.enter

/-! ## Remote commands and sections (R271 to R279) -/

theorem MemInv.completeCmd {t slot c status moved} (hs : MemInv s) : MemInv (completeCmd s t slot c status moved) := by
  unfold Machine.completeCmd
  dsimp only
  split <;> exact hs.frame
theorem MemInv.sendCommits {t slot x} (hs : MemInv s) : MemInv (sendCommits s t slot x) := hs.foldl fun _ _ hs => hs.frame
theorem MemInv.sendDiscards {t slot x} (hs : MemInv s) : MemInv (sendDiscards s t slot x) := hs.foldl fun _ _ hs => hs.frame
theorem MemInv.discardSection {t slot explicit} (hs : MemInv s) : MemInv (discardSection s t slot explicit) := by
  unfold Machine.discardSection
  dsimp only
  split
  · exact hs
  · exact (hs.sendDiscards.foldl fun _ _ hs => hs.completeCmd).modExt
theorem MemInv.failExplicit {t slot code} (hs : MemInv s) : MemInv (failExplicit s t slot code) := by
  unfold Machine.failExplicit
  dsimp only
  split
  · exact hs
  · exact hs.ite (hs.discardSection.modExt.ite hs.discardSection.rollBack)
theorem MemInv.failImplicit {t slot code ticket} (hs : MemInv s) : MemInv (failImplicit s t slot code ticket) := by
  unfold Machine.failImplicit
  dsimp only
  split
  · exact hs
  · exact hs.ite hs.discardSection.deliverFault
theorem MemInv.failCommand {t slot code c} (hs : MemInv s) : MemInv (failCommand s t slot code c) := by
  unfold Machine.failCommand
  split
  · exact hs.failExplicit.ite hs.failImplicit
  · exact hs.completeCmd.deliverFault
theorem MemInv.execSectionRollback {t slot code} (hs : MemInv s) : NextMemInv (execSectionRollback t slot code s) :=
  hs.ite (hs.failExplicit.ite hs.failImplicit)
theorem MemInv.commitStep {t slot explicit} (hs : MemInv s) : MemInv (commitStep s t slot explicit).1 := by
  unfold Machine.commitStep
  dsimp only
  split
  · exact hs
  split
  · exact hs
  split
  · split
    · exact hs.sendCommits.addDigest.closeSection
    · exact hs.sendCommits.addDigest.modExt
  split <;> exact hs.frame
theorem MemInv.execXcBegin {d} (hs : MemInv s) : NextMemInv (execXcBegin d s) := by
  unfold Machine.execXcBegin
  dsimp only
  exact hs.ctlOnly <| by
    split
    · exact hs.raiseCore
    · exact hs.frame
theorem MemInv.execXcCommit {d} (hs : MemInv s) : NextMemInv (execXcCommit d s) := by
  unfold Machine.execXcCommit
  dsimp only
  exact hs.ctlOnly <| by
    split
    · exact hs.raiseCore
    split
    · exact hs.commitStep.ret
    · exact hs.commitStep.wait
theorem MemInv.sendXc {c key} (hs : MemInv s) : MemInv (sendXc s c key) := hs.frame.ite hs.sendCommand
theorem MemInv.acceptXc {d c} (hs : MemInv s) : MemInv (acceptXc s d c).state := by
  unfold Machine.acceptXc
  extract_lets e explicit tk c1 s1 ret failed skipped stage
  have h1 : MemInv s1 := hs.frame
  have hskipped {u} (hu : MemInv u) : MemInv (skipped u) := hu.frame.ite hu
  have hfailed {u code} (hu : MemInv u) : MemInv (failed u code).state := by
    unfold failed
    split
    · exact hu.failExplicit
    · exact hu.failExplicit.retN
  split
  · exact (h1.event.ite h1).retN
  split
  · exact (hskipped h1).retN
  split
  · exact hs.wait
  split
  · exact h1.modExt.sendXc.retN
  split
  · split
    · exact hfailed (hskipped h1)
    · exact hs.raiseCore
  split
  · exact h1.joinSection.sendXc.retN
  have hstage {u c} (hu : MemInv u) : MemInv (stage u c).state := hu.joinSection.sendXc.retN
  have hread := h1.readLocal (c := c1) (t := s.ft) (slot := s.fslot) (n := c1.len)
  split
  · exact hstage h1
  split
  next s2 _ h =>
    rw [h] at hread
    split
    · exact hs.holdCore
    · exact (hread.event.ite hread).deliverFault.retN
  next s2 _ _ h =>
    rw [h] at hread
    split
    · split
      · exact hfailed (hskipped hread)
      · exact hread.joinSection.failImplicit.retN
    · exact hstage hread
theorem MemInv.xcForm {d a op ev len redOp z data} (hs : MemInv s) : MemInv (xcForm s d a op ev len redOp z data).state := by
  unfold Machine.xcForm
  dsimp only
  split
  · exact hs.raiseCore
  split
  · exact hs.raiseCore
  split
  · exact hs.raiseCore
  split
  · exact hs.raiseCore
  split
  · exact hs.raiseCore
  · exact hs.acceptXc
theorem MemInv.xcControl {d a b op} (hs : MemInv s) : MemInv (xcControl s d a b op).state := by
  unfold Machine.xcControl
  dsimp only
  split
  · exact hs.raiseCore
  split
  · exact hs.raiseCore
  split
  · exact hs.raiseCore
  split
  · exact hs.raiseCore
  · exact hs.xcForm
theorem MemInv.execXcGet {d a b} (hs : MemInv s) : NextMemInv (execXcGet d a b s) := hs.xcControl
theorem MemInv.execXcPut {d a b} (hs : MemInv s) : NextMemInv (execXcPut d a b s) := hs.xcControl
theorem MemInv.execXcRed {d a b} (hs : MemInv s) : NextMemInv (execXcRed d a b s) := hs.xcControl
theorem MemInv.execXcSig {d a b} (hs : MemInv s) : NextMemInv (execXcSig d a b s) := hs.xcForm
theorem MemInv.pushRow {e tile key bs} (hs : MemInv s) : MemInv (pushRow s e tile key bs) := by
  unfold Machine.pushRow
  dsimp only
  split
  · exact hs.frame
  · exact hs.frame.ite hs.addData.applyAdvance
theorem MemInv.closeFill {i} (hs : MemInv s) : MemInv (closeFill s i) := by
  unfold Machine.closeFill
  dsimp only
  split
  · exact hs
  · exact hs.frame.foldl fun _ _ hs => hs.frame
theorem MemInv.fillRow {c t slot d rw bs} (hs : MemInv s) : MemInv (fillRow s c t slot d rw bs) := by
  unfold Machine.fillRow
  dsimp only
  split
  · exact MemInv.modNet (by
      split
      · exact hs.ite hs.closeFill
      · exact hs)
  · exact MemInv.modNet (by
      split
      · exact hs.ite hs.closeFill
      · exact hs)
theorem MemInv.closeFillFor {cls d} (hs : MemInv s) : MemInv (closeFillFor s cls d) := by
  unfold Machine.closeFillFor
  split
  · exact hs.closeFill
  · exact hs
theorem MemInv.sendCells {c t slot d rw bs} (hs : MemInv s) : MemInv (sendCells s c t slot d rw bs) :=
  hs.frame.foldl fun _ _ hs => hs.frame
theorem MemInv.sendRow {c t slot cells d rw bs} (hs : MemInv s) : MemInv (sendRow s c t slot cells d rw bs) := by
  unfold Machine.sendRow
  dsimp only
  split
  · exact MemInv.pushRow (by
      split
      · exact hs.takeSlots.passProxy.ite hs
      · exact hs)
  split
  · exact (MemInv.closeFillFor (by
      split
      · exact hs.takeSlots.passProxy.ite hs
      · exact hs)).sendCells
  · exact MemInv.fillRow (by
      split
      · exact hs.takeSlots.passProxy.ite hs
      · exact hs)
theorem MemInv.routeStep {d x ev rws ref} (hs : MemInv s) : MemInv (routeStep s d x ev rws ref).state := by
  unfold Machine.routeStep
  dsimp only
  split
  · exact hs.raiseCore
  split
  · exact hs.raiseCore
  split
  · exact hs.frame
  · exact MemInv.retN (by
      split
      · split
        · exact hs.frame.foldl fun _ _ hs => hs.sendRow
        · exact (hs.frame.foldl fun _ _ hs => hs.sendRow).completeCmd
      split
      · exact hs.frame.foldl fun _ _ hs => hs.sendRow
      · exact (hs.frame.foldl fun _ _ hs => hs.sendRow).completeCmd)
theorem MemInv.execXcFrame {d a b} (hs : MemInv s) : NextMemInv (execXcFrame d a b s) := by
  unfold Machine.execXcFrame
  dsimp only
  split
  · exact hs.raiseCore
  split
  · exact hs.raiseCore
  split
  · exact hs.raiseCore
  split
  · exact hs.raiseCore
  split
  · exact hs.raiseCore
  split
  · exact hs.raiseCore
  · exact hs.routeStep
theorem MemInv.execRowFrameFillTimeout {i} (hs : MemInv s) : NextMemInv (execRowFrameFillTimeout i s) := hs.closeFill

/-! ## Infusers (R360 to R379) -/

theorem MemInv.nbReach {query x} (hs : MemInv s) : MemInv (nbReach s query x).1 := by
  unfold Machine.nbReach
  extract_lets
  split
  · exact hs
  · exact hs
  refine .ite_of Prod.fst hs <| .ite_of Prod.fst hs <| .ite_of Prod.fst hs <| .ite_of Prod.fst hs ?_
  extract_lets r
  split <;> exact hs.frame
theorem MemInv.logCorrected {k ctx beats} (hs : MemInv s) : MemInv (logCorrected s k ctx beats) := by
  unfold Machine.logCorrected
  dsimp only
  split
  · exact (hs.foldl fun _ _ hs => hs.frame).draw.logAt.ite (hs.foldl fun _ _ hs => hs.frame).draw
  · exact (hs.foldl fun _ _ hs => hs.frame).draw
theorem MemInv.writeAppend {k c frame tensor bs} (hs : MemInv s) : MemInv (writeAppend s k c frame tensor bs).1 :=
  (hs.addWrite.addDigest.ite hs.addWrite).touchUnits
theorem MemInv.nbRecord {c payload} (hs : MemInv s) : MemInv (nbRecord s c payload) := hs.frame.ite hs
theorem MemInv.endAppend {k i p always} (hs : MemInv s) : MemInv (endAppend s k i p always) := hs.frame.nbRecord.ite hs.frame
theorem MemInv.slice {k i bank p} (hs : MemInv s) : MemInv (slice s k i bank p) := by
  unfold Machine.slice
  dsimp only
  split
  · exact hs.frame.ite hs.endAppend
  split
  · split <;> exact hs.frame
  · exact hs.frame.ite hs.writeAppend.writeAppend.endAppend
theorem MemInv.execBankSlice {k b} (hs : MemInv s) : NextMemInv (execBankSlice k b s) := by
  unfold Machine.execBankSlice
  dsimp only
  split
  · exact hs
  split
  · exact hs
  · exact hs.ite hs.logCorrected.slice.draw.draw.setBank
theorem MemInv.execBankRefresh {k b} (hs : MemInv s) : NextMemInv (execBankRefresh k b s) := hs.frame
theorem MemInv.execOrdinaryBankAccess {k b} (hs : MemInv s) : NextMemInv (execOrdinaryBankAccess k b s) := hs.ite hs.frame
theorem MemInv.queryDone {p} (hs : MemInv s) : MemInv (queryDone s p) := by
  unfold Machine.queryDone
  dsimp only
  split
  · exact hs.nbRecord.ite hs
  · exact hs.deliverFault.ite (hs.deliverFault.ite (hs.deliverFault.ite hs.resolveFuture))
theorem MemInv.execQueryResult {k i} (hs : MemInv s) : NextMemInv (execQueryResult k i s) := by
  unfold Machine.execQueryResult
  dsimp only
  split
  · exact hs
  split
  · exact hs
  split
  · split <;> exact hs.frame.deliverFault
  · exact (MemInv.modStack (by
      split
      · exact (hs.frame.writeParts.addDigest.ite hs.frame.writeParts).touchUnits
      · exact hs.frame.writeParts.addDigest.ite hs.frame.writeParts)).queryDone
theorem MemInv.execInfuserParityFault {k b} (hs : MemInv s) : NextMemInv (execInfuserParityFault k b s) := by
  unfold Machine.execInfuserParityFault
  dsimp only
  split
  · exact hs.frame
  split
  · exact hs.frame
  · exact hs.frame.slice
theorem MemInv.failAppend {p} (hs : MemInv s) : MemInv (failAppend s p) := hs.nbRecord.deliverFault
theorem MemInv.resetController {k} (hs : MemInv s) : MemInv (resetController s k) := hs.frame.foldl fun _ _ hs => hs.failAppend
theorem MemInv.execStackControllerReset {k} (hs : MemInv s) : NextMemInv (execStackControllerReset k s) := hs.resetController
theorem MemInv.nbPost {d a b query} (hs : MemInv s) : MemInv (nbPost s d a b query).state := by
  unfold Machine.nbPost
  extract_lets at' y
  split
  · exact hs.raiseCore
  split
  · exact hs.raiseCore
  split
  · exact hs.raiseCore
  extract_lets x
  have hreach := hs.nbReach (query := query) (x := x)
  split
  · exact hs.raiseCore
  split
  next s1 tr h =>
    rw [h] at hreach
    split
    · exact hreach.holdCore
    · exact hreach.raiseCore
  next s1 h =>
    rw [h] at hreach
    split
    · split
      · exact hreach.raiseCore
      dsimp only
      split
      · exact hreach.raiseCore
      split
      · exact hreach.wait
      · exact hreach.takeTicket.modStack.retN
    · exact hreach.raiseCore
theorem MemInv.execNbQuery {d a b} (hs : MemInv s) : NextMemInv (execNbQuery d a b s) := hs.nbPost
theorem MemInv.execNbAppend {d a b} (hs : MemInv s) : NextMemInv (execNbAppend d a b s) := hs.nbPost
theorem MemInv.execNbFence {a} (hs : MemInv s) : NextMemInv (execNbFence a s) := by
  unfold Machine.execNbFence
  dsimp only
  split
  · exact hs.raiseCore
  split
  · split <;> exact hs.frame
  split
  · exact hs.raiseCore
  split <;> exact hs.frame

/-! ## Stream ports (R213 to R219) -/

theorem MemInv.portFault {t p tr} (hs : MemInv s) : MemInv (portFault s t p tr) := hs.frame.raiseTrap
theorem MemInv.portDone {t p} (hs : MemInv s) : MemInv (portDone s t p) := by
  unfold Machine.portDone
  dsimp only
  split <;> exact hs.frame
theorem MemInv.portRate {t p tr} (hs : MemInv s) : MemInv (portRate s t p tr) := hs.frame.raiseTrap
theorem MemInv.fetchTensor {t p port} (hs : MemInv s) : MemInv (fetchTensor s t p port) := by
  unfold Machine.fetchTensor
  dsimp only
  split
  · exact hs.portFault
  split
  · exact hs.frame.portFault
  · exact hs.frame
theorem MemInv.fetchWindow {t p port x} (hs : MemInv s) : MemInv (fetchWindow s t p port x) := hs.ite hs.acquire.modTile
theorem MemInv.execPortTokenFetch {t p} (hs : MemInv s) : NextMemInv (execPortTokenFetch t p s) := by
  unfold Machine.execPortTokenFetch
  dsimp only
  split
  · exact hs
  split
  · split
    · exact hs.fetchWindow
    · exact hs
  · exact hs.fetchTensor.ite hs
theorem MemInv.takeOne {t w} (hs : MemInv s) : MemInv (takeOne s t w) := by
  unfold Machine.takeOne
  split
  · exact hs.frame
  · exact hs.consume
theorem MemInv.deliverToken {t p} (hs : MemInv s) : MemInv (deliverToken s t p) := by
  unfold Machine.deliverToken
  dsimp only
  split
  · exact hs
  split
  · split
    · exact hs.frame
    split
    · split
      · exact hs.frame.portRate
      · exact hs.frame.takeOne
    · exact hs.frame
  · exact hs.frame.portDone.ite hs.frame
theorem MemInv.writeTensor {t p port k rest} (hs : MemInv s) : MemInv (writeTensor s t p port k rest) := by
  unfold Machine.writeTensor
  dsimp only
  split
  · exact hs.portFault
  split
  · exact hs.frame.portFault
  · exact hs.frame.store.modTile.portDone.ite hs.frame.store.modTile
theorem MemInv.writeWindow {t p port x k rest} (hs : MemInv s) : MemInv (writeWindow s t p port x k rest) := by
  unfold Machine.writeWindow
  dsimp only
  split
  · exact hs
  split
  · exact hs
  split
  · exact hs.portRate
  · exact hs.store.modTile.modWin.release.takeSlots.advance.drainProxy.ite hs.store.modTile.modWin
theorem MemInv.writeToken {t p} (hs : MemInv s) : MemInv (writeToken s t p) := by
  unfold Machine.writeToken
  dsimp only
  split
  · exact hs
  split
  · split
    · exact hs.writeWindow
    · exact hs
  · exact hs.writeTensor
theorem MemInv.execPortTokenWrite {t p} (hs : MemInv s) : NextMemInv (execPortTokenWrite t p s) := hs.ite hs.writeToken
theorem MemInv.execIoCfg {a b} (hs : MemInv s) : NextMemInv (execIoCfg a b s) := by
  unfold Machine.execIoCfg
  dsimp only
  split
  · exact hs.raiseCore
  split
  · exact hs.raiseCore
  split
  · split
    · exact hs.raiseCore
    split
    · exact hs.raiseCore
    split
    · exact hs.raiseCore
    split
    · exact hs.raiseCore
    · exact hs.frame
  split
  · exact hs.raiseCore
  split
  · exact hs.raiseCore
  split
  · exact hs.raiseCore
  split
  · exact hs.raiseCore
  · exact hs.frame
theorem MemInv.execIoArm {a} (hs : MemInv s) : NextMemInv (execIoArm a s) := by
  unfold Machine.execIoArm
  dsimp only
  split
  · exact hs.raiseCore
  split
  · exact hs.raiseCore
  · exact hs.frame
  · exact MemInv.done (by split <;> exact hs.frame)
theorem MemInv.flushPort {t p fuel} (hs : MemInv s) : MemInv (flushPort t p fuel s) := by
  induction fuel generalizing s with
  | zero => exact hs
  | succ n ih => exact hs.ite ((ih hs.writeToken).ite hs.writeToken)
theorem MemInv.execIoHalt {a} (hs : MemInv s) : NextMemInv (execIoHalt a s) := by
  unfold Machine.execIoHalt
  dsimp only
  split
  · exact hs.raiseCore
  split
  · exact hs.frame
  split
  · split
    · exact hs.flushPort.wait
    · exact hs.flushPort.modTile.markSeen.done
  split <;> exact hs.frame
theorem MemInv.execIoStat {d a} (hs : MemInv s) : NextMemInv (execIoStat d a s) := by
  unfold Machine.execIoStat
  dsimp only
  split
  · exact hs.raiseCore
  · exact (hs.frame.ite hs).retN

/-! ## The fabric (R237 to R243, R292 to R304) -/

theorem MemInv.raiseRow {t row os} (hs : MemInv s) : MemInv (raiseRow s t row os) := by
  unfold Machine.raiseRow
  dsimp only
  split
  · exact (hs.foldl fun _ _ hs => by
      split
      · exact hs.raiseTrap
      · exact hs).modTile
  · exact hs.foldl fun _ _ hs => by
      split
      · exact hs.raiseTrap
      · exact hs
theorem MemInv.issueRow {t r bs h g e os} (hs : MemInv s) : MemInv (issueRow s t r bs h g e os) :=
  (hs.frame.foldl fun _ _ hs => hs.deliverToken).raiseRow
theorem MemInv.joinCycle {v r} (hs : MemInv s) : MemInv (joinCycle s v r).2 := by
  unfold Machine.joinCycle
  split <;> exact hs.frame
theorem MemInv.execRowIssue {t r} (hs : MemInv s) : NextMemInv (execRowIssue t r s) := by
  unfold Machine.execRowIssue
  dsimp only
  split
  · split
    · exact hs
    split
    · exact hs.frame
    split
    · exact hs.frame
    split
    · exact hs.joinCycle.setTile.issueRow.ite (hs.frame.ite hs.joinCycle.setTile.drawTables.issueRow)
    · exact hs.frame
  · exact hs
theorem MemInv.execRouteLanding {t r} (hs : MemInv s) : NextMemInv (execRouteLanding t r s) := by
  unfold Machine.execRouteLanding
  dsimp only
  split
  · exact hs.ite hs.frame
  · exact hs
theorem MemInv.execDrainLimitExit {t r c} (hs : MemInv s) : NextMemInv (execDrainLimitExit t r c s) := by
  unfold Machine.execDrainLimitExit
  dsimp only
  split
  · exact hs
  split
  · exact hs
  · exact hs.ite hs.frame
theorem MemInv.execExpansionComplete {t} (hs : MemInv s) : NextMemInv (execExpansionComplete t s) := hs.frame
theorem MemInv.stageAct {d v ms conf} (hs : MemInv s) : MemInv (stageAct s d v ms conf).state := by
  unfold Machine.stageAct
  split
  · exact hs.frame
  · exact hs.stageOn.ret
theorem MemInv.execFbLoad {d a} (hs : MemInv s) : NextMemInv (execFbLoad d a s) := by
  unfold Machine.execFbLoad
  dsimp only
  exact hs.ctlOnly <| by
    split
    · split
      · exact hs.raiseCore
      split
      · exact hs.raiseCore
      · exact hs.stageAct
    split
    · exact hs.raiseCore
    split
    · exact hs.raiseCore
    · exact hs.stageAct
theorem MemInv.swapAct {d} (hs : MemInv s) : MemInv (swapAct d s).state := by
  unfold Machine.swapAct
  dsimp only
  split
  · exact hs.frame
  split
  · exact hs.frame
  split
  · exact hs.raiseCore
  · exact hs.frame
theorem MemInv.execFbSwap {d} (hs : MemInv s) : NextMemInv (execFbSwap d s) := hs.ctlOnly hs.swapAct
theorem MemInv.execPlaneSwapInstall {t} (hs : MemInv s) : NextMemInv (execPlaneSwapInstall t s) := by
  unfold Machine.execPlaneSwapInstall
  dsimp only
  split
  · exact (hs.onCore fun _ hs => hs.swapAct).ite hs
  · exact hs
theorem MemInv.execFbRun {a} (hs : MemInv s) : NextMemInv (execFbRun a s) := by
  unfold Machine.execFbRun
  dsimp only
  exact hs.ctlOnly <| by
    split
    · exact hs.raiseCore
    split
    · exact hs.raiseCore
    split
    · exact hs.raiseCore
    · exact hs.frame
theorem MemInv.execFbStop (hs : MemInv s) : NextMemInv (execFbStop s) := hs.ctlOnly hs.frame
theorem MemInv.execFbTok {a k} (hs : MemInv s) : NextMemInv (execFbTok a k s) := by
  unfold Machine.execFbTok
  dsimp only
  exact hs.ctlOnly <| by
    split
    · exact hs.raiseCore
    split <;> exact hs.frame
theorem MemInv.execFbSink {d k} (hs : MemInv s) : NextMemInv (execFbSink d k s) := by
  unfold Machine.execFbSink
  dsimp only
  exact hs.ctlOnly <| by split <;> exact hs.frame

/-! ## Matrix mode (R168 to R188, R244, R245) -/

theorem MemInv.mxTrap {t sub tr} (hs : MemInv s) : MemInv (mxTrap s t sub tr) := by
  unfold Machine.mxTrap
  dsimp only
  split <;> exact hs.frame.raiseTrap
theorem MemInv.putAcc {t i r} (hs : MemInv s) : MemInv (s.putAcc t i r) := hs.frame.strikeAcc
theorem MemInv.stepIntervals {t wrow acc u m0 k0 abase n i} (hs : MemInv s) :
    MemInv (stepIntervals t wrow acc u m0 k0 abase n i s) := by
  induction n generalizing s i with
  | zero => exact hs.frame
  | succ n ih =>
    unfold Machine.stepIntervals
    split
    · exact hs.mxTrap
    · exact ih hs.putAcc
theorem MemInv.execMsStep {t} (hs : MemInv s) : NextMemInv (execMsStep t s) := by
  unfold Machine.execMsStep
  dsimp only
  split
  · split
    · exact hs.frame.mxTrap
    · exact hs.frame.mxTrap
    split
    · exact hs.frame.mxTrap
    · exact hs.frame.stepIntervals
  · exact hs
theorem MemInv.loadRows {t wrow f scaled base len mk n c} (hs : MemInv s) :
    MemInv (loadRows t wrow f scaled base len mk n c s) := by
  induction n generalizing s c with
  | zero => exact hs.frame
  | succ n ih =>
    unfold Machine.loadRows
    dsimp only
    split
    · exact hs.mxTrap
    split
    · exact hs.frame.mxTrap
    · exact ih hs.frame
theorem MemInv.execMsLoad {t} (hs : MemInv s) : NextMemInv (execMsLoad t s) := by
  unfold Machine.execMsLoad
  dsimp only
  split
  · split
    · exact hs.frame.mxTrap
    · exact hs.frame.mxTrap
    · exact hs.frame.loadRows
  · exact hs
theorem MemInv.execMsSteep {t} (hs : MemInv s) : NextMemInv (execMsSteep t s) := by
  unfold Machine.execMsSteep
  dsimp only
  split
  · split
    · exact hs.frame.drawTables.mxTrap
    · exact hs.frame.drawTables.mxTrap
    · exact hs.frame.ite hs.frame.drawTables.loadRows
  · exact hs
theorem MemInv.execMsZero {t} (hs : MemInv s) : NextMemInv (execMsZero t s) := by
  unfold Machine.execMsZero
  dsimp only
  split
  · split
    · exact hs.frame.mxTrap
    · exact (hs.frame.foldl fun _ _ hs => hs.putAcc).mxNext
  · exact hs
theorem MemInv.clearAcc {t i r clr} (hs : MemInv s) : MemInv (clearAcc s t i r clr) := hs.putAcc.ite hs
theorem MemInv.drainRows {t a d dfmt rnd sat clr n i} (hs : MemInv s) : MemInv (drainRows t a d dfmt rnd sat clr n i s) := by
  induction n generalizing s i with
  | zero => exact hs.frame
  | succ n ih =>
    unfold Machine.drainRows
    extract_lets r
    split
    · exact hs.mxTrap
    split
    · exact hs.mxTrap
    split
    · exact hs.mxTrap
    · exact ih hs.store.clearAcc
theorem MemInv.drainPeer {t pidx} (hs : MemInv s) : MemInv (drainPeer s t pidx) := by
  unfold Machine.drainPeer
  dsimp only
  split
  · exact hs.mxTrap
  · exact hs.frame.mxTrap.ite hs.frame
theorem MemInv.execMsDrain {t} (hs : MemInv s) : NextMemInv (execMsDrain t s) := by
  unfold Machine.execMsDrain
  dsimp only
  split
  · split
    · exact hs.frame.mxTrap
    · exact hs.frame.drainPeer.ite hs.frame.drainRows
  · exact hs
theorem MemInv.execMsWait {t} (hs : MemInv s) : NextMemInv (execMsWait t s) := by
  unfold Machine.execMsWait
  dsimp only
  split
  · split
    · exact hs.frame
    split
    · exact hs.frame.mxTrap
    split
    · exact hs.frame.mxTrap
    · exact hs.frame
  · exact hs
theorem MemInv.mxCount {t cnt resetWait} (hs : MemInv s) : MemInv (mxCount s t cnt resetWait) := by
  unfold Machine.mxCount
  dsimp only
  split <;> exact hs.frame
theorem MemInv.execDrainedRowAccept {t} (hs : MemInv s) : NextMemInv (execDrainedRowAccept t s) := by
  unfold Machine.execDrainedRowAccept
  dsimp only
  split
  · split
    · split
      · exact hs.mxTrap
      split
      · exact hs.clearAcc.mxCount.mxTrap
      · exact hs.clearAcc.mxCount.mxTrap.ite hs.clearAcc.mxCount.putAcc.mxCount
    · exact hs
  · exact hs
theorem MemInv.execDrainStallExpiry {t} (hs : MemInv s) : NextMemInv (execDrainStallExpiry t s) := by
  unfold Machine.execDrainStallExpiry
  dsimp only
  split
  · exact hs.mxTrap.ite hs
  · exact hs
theorem MemInv.execMsWaitExpiry {t} (hs : MemInv s) : NextMemInv (execMsWaitExpiry t s) := by
  unfold Machine.execMsWaitExpiry
  dsimp only
  split
  · exact hs.mxTrap.ite hs
  · exact hs
theorem MemInv.execMsLoop {t} (hs : MemInv s) : NextMemInv (execMsLoop t s) := by
  unfold Machine.execMsLoop
  split <;> exact hs.frame
theorem MemInv.execMsEnd {t} (hs : MemInv s) : NextMemInv (execMsEnd t s) := by
  unfold Machine.execMsEnd
  dsimp only
  repeat' split
  all_goals exact hs.frame
theorem MemInv.execMxIssue {a} (hs : MemInv s) : NextMemInv (execMxIssue a s) := by
  unfold Machine.execMxIssue
  dsimp only
  exact hs.ctlOnly <| by
    split
    · exact hs.raiseCore
    split
    · exact hs.raiseCore
    split
    · exact hs.raiseCore
    split
    · exact hs.raiseCore
    split <;> exact hs.frame
theorem MemInv.execMxWait {d a} (hs : MemInv s) : NextMemInv (execMxWait d a s) := by
  unfold Machine.execMxWait
  dsimp only
  exact hs.ctlOnly <| by
    split
    · exact hs.raiseCore
    repeat' split
    all_goals exact hs.frame

/-! ## Completion records (R401) -/

theorem MemInv.complete {addr c} (hs : MemInv s) : MemInv (complete s addr c) := by
  unfold Machine.complete
  dsimp only
  split
  · exact hs
  split
  · exact hs.frame.put.raiseMsix
  · exact hs.frame

/-! ## Tasks and firings (R283 to R289, R312, R406 to R411) -/

theorem MemInv.markReady {t} (hs : MemInv s) : MemInv (markReady s t) := by
  unfold Machine.markReady
  dsimp only
  exact hs.foldl fun _ _ hs => by
    split
    · exact hs.frame.ite hs
    · exact hs
theorem MemInv.saveTask {t slot st} (hs : MemInv s) : MemInv (saveTask s t slot st) := by
  unfold Machine.saveTask
  dsimp only
  split
  · split
    · exact hs.frame.putFrame
    · exact hs.frame
  · exact hs.frame
theorem MemInv.poisonTask {t slot w} (hs : MemInv s) : MemInv (poisonTask s t slot w) := hs.frame.deliverFault
theorem MemInv.loadTask {t slot} (hs : MemInv s) : MemInv (loadTask s t slot) := by
  unfold Machine.loadTask
  dsimp only
  split
  · exact hs
  split
  · exact hs.frame.strikeContext.modTask.modExt.poisonTask
  · exact hs.frame.strikeContext.modTask.modExt
theorem MemInv.giveFrame {t slot lent} (hs : MemInv s) : MemInv (giveFrame s t slot lent) := by
  unfold Machine.giveFrame
  split <;> exact hs.frame
theorem MemInv.mayRun {q} (hs : MemInv s) : MemInv (mayRun s q).1 := by
  unfold Machine.mayRun
  dsimp only
  split <;> exact hs.frame
theorem MemInv.execTaskSwitch {t} (hs : MemInv s) : NextMemInv (execTaskSwitch t s) := by
  unfold Machine.execTaskSwitch
  extract_lets s1 v last
  have h1 : MemInv s1 := hs.markReady
  refine hs.ite ?_
  split
  · exact h1
  next sl _ =>
    extract_lets go s2
    have hgo : MemInv go.1 := h1.mayRun
    have h2 : MemInv s2 := by
      unfold s2
      split
      · exact hgo.modTile.ite hgo.saveTask
      · exact hgo
    exact hgo.ite (hgo.modTask.ite h2.loadTask)
theorem MemInv.execTaskPromotion {t slot} (hs : MemInv s) : NextMemInv (execTaskPromotion t slot s) := by
  unfold Machine.execTaskPromotion
  dsimp only
  split
  · exact hs.frame.ite hs
  · exact hs
theorem MemInv.execSwapOut {t} (hs : MemInv s) : NextMemInv (execSwapOut t s) := by
  unfold Machine.execSwapOut
  dsimp only
  split
  · exact hs
  split
  · exact hs
  · exact ((hs.ite hs.giveFrame).modTile.saveTask.modExt.ite (hs.ite hs.giveFrame).saveTask.modExt).ite hs
theorem MemInv.wholeRegion {t c n} (hs : MemInv s) : MemInv (wholeRegion s t c n) := (hs.ite hs.stageOn).modTile
theorem MemInv.residentRegion {t c region} (hs : MemInv s) : MemInv (residentRegion s t c region) := by
  unfold Machine.residentRegion
  split
  · exact hs
  · exact hs.wholeRegion.installOn
theorem MemInv.stageRegion {t c region} (hs : MemInv s) : MemInv (stageRegion s t c region) := by
  unfold Machine.stageRegion
  split
  · exact hs
  · exact hs.stageOn
theorem MemInv.zeroCounts {q l g t x} (hs : MemInv s) : MemInv (zeroCounts s q l g t x) := by
  unfold Machine.zeroCounts
  dsimp only
  exact (hs.foldl fun _ _ hs => hs.frame).foldl fun _ _ hs => by split <;> exact hs.frame
theorem MemInv.startFiring {t slot k i e} (hs : MemInv s) : MemInv (startFiring s t slot k i e) := by
  unfold Machine.startFiring
  dsimp only
  split
  · split
    · split
      · exact (hs.foldl fun _ _ hs => hs.frame).modTask.raiseTrap
      · exact (hs.residentRegion.stageRegion.foldl fun _ _ hs => hs.frame).modTask
    split
    · exact (hs.zeroCounts.foldl fun _ _ hs => hs.frame).modTask.raiseTrap
    · exact (hs.zeroCounts.residentRegion.stageRegion.foldl fun _ _ hs => hs.frame).modTask
  split
  · exact (hs.foldl fun _ _ hs => hs.frame).modTask.raiseTrap
  · exact (hs.residentRegion.stageRegion.foldl fun _ _ hs => hs.frame).modTask
theorem MemInv.execFiringStart {t slot} (hs : MemInv s) : NextMemInv (execFiringStart t slot s) := by
  unfold Machine.execFiringStart
  split
  · exact hs
  split
  · exact hs
  split
  · exact hs
  split
  · exact hs.startFiring
  · exact hs
theorem MemInv.closeOwn {t slot} (hs : MemInv s) : MemInv (closeOwn s t slot) :=
  hs.foldl fun _ _ hs => by
    split
    · exact hs.closeWindow.ite hs
    · exact hs
theorem MemInv.closeArc {q t a} (hs : MemInv s) : MemInv (closeArc s q t a) := by
  unfold Machine.closeArc
  split
  · exact hs.closeWindow.modLext
  · exact hs
theorem MemInv.closeBound {q l g x} (hs : MemInv s) : MemInv (closeBound s q l g x) := by
  unfold Machine.closeBound
  dsimp only
  exact (hs.foldl fun _ _ hs => by
    split
    · exact hs.closeArc.ite hs
    · exact hs).foldl fun _ _ hs => by
    split
    · split
      · exact hs.closeArc.ite hs
      · exact hs
    · exact hs
theorem MemInv.endTask {t slot} (hs : MemInv s) : MemInv (endTask s t slot) := by
  unfold Machine.endTask
  dsimp only
  split
  · exact hs
  split
  · split
    · split
      · exact hs.closeOwn.modLext.modTask.endInGroups.modTile.modTile
      · exact hs.closeOwn.modLext.modTask.endInGroups.modTile
    split
    · exact hs.closeOwn.modLext.modTask.closeBound.endInGroups.modTile.modTile
    · exact hs.closeOwn.modLext.modTask.closeBound.endInGroups.modTile
  split
  · exact hs.closeOwn.modLext.modTask.endInGroups.modTile.modTile
  · exact hs.closeOwn.modLext.modTask.endInGroups.modTile
theorem MemInv.finishFiring {t slot k} (hs : MemInv s) : MemInv (finishFiring s t slot k) :=
  hs.frame.resolveFuture.endTask.ite (hs.frame.endTask.ite hs.frame.markReady)
theorem MemInv.closeDecided {t slot} (hs : MemInv s) : MemInv (closeDecided s t slot) := by
  unfold Machine.closeDecided
  split
  · exact hs.frame.ite hs
  · exact hs
theorem MemInv.execFiringEnd {s0 : State} {t slot} (hs : MemInv s0) : NextMemInv (execFiringEnd t slot s0) := by
  unfold Machine.execFiringEnd
  dsimp only
  split
  · exact hs.closeDecided.ite hs
  split
  · exact hs.closeDecided.ite hs
  split
  · split
    · exact hs.closeDecided
    split
    · exact hs.closeDecided.raiseTrap.ite hs.closeDecided.stopSource.deliverFault
    split
    · exact hs.closeDecided.commitStep.finishFiring.ite hs.closeDecided.commitStep
    · exact hs.closeDecided.finishFiring
  split
  · exact hs
  split
  · exact hs.raiseTrap.ite hs.stopSource.deliverFault
  · exact (hs.commitStep.finishFiring.ite hs.commitStep).ite hs.finishFiring
theorem MemInv.endSection {t slot} (hs : MemInv s) : MemInv (endSection s t slot) := hs.ite hs.discardSection.modExt
theorem MemInv.execSysEnd (hs : MemInv s) : NextMemInv (execSysEnd s) := by
  unfold Machine.execSysEnd
  dsimp only
  split
  · exact (hs.endSection.ite hs).modCur.modTask.modTile
  split
  · exact (hs.endSection.ite hs).modCur.modTask.modTile
  split
  · split
    · split
      · exact hs.endSection.raiseTrap
      · exact hs.endSection.modCur.modTask.modTile
    · exact hs.endSection.modCur.modTask.modTile
  split
  · split
    · exact hs.stopSource.deliverFault
    · exact hs.frame
  · exact hs.frame
theorem MemInv.execSysYield (hs : MemInv s) : NextMemInv (execSysYield s) := by
  unfold Machine.execSysYield
  dsimp only
  split
  · exact hs.frame
  split
  · exact hs.frame
  split
  · exact hs.frame
  split
  · exact hs.frame
  · exact hs.markReady.modCur.saveTask.modTask.frame
theorem MemInv.execSysSpawn {d a b} (hs : MemInv s) : NextMemInv (execSysSpawn d a b s) := by
  unfold Machine.execSysSpawn
  dsimp only
  exact hs.ctlOnly <| by
    split
    · exact hs.raiseCore
    split
    · exact hs.raiseCore
    split
    · exact hs.raiseCore
    split
    · exact hs.raiseCore
    split
    · exact hs.raiseCore
    · exact hs.takeFuture.modLext.modExt.retN
theorem MemInv.takeFrames {t} (hs : MemInv s) : MemInv (takeFrames s t) := hs.ite (hs.foldl fun _ _ hs => hs.giveFrame.modTask)
theorem MemInv.bindTask {t slot k e} (hs : MemInv s) : MemInv (bindTask s t slot k e) := hs.frame.takeFrames
theorem MemInv.restoreOwn {q t slot e} (hs : MemInv s) :
    MemInv (restoreOwn s q t slot e) := hs.frame.foldl fun _ _ hs => hs.writeRow
theorem MemInv.restoreHeld {q t slot p} (hs : MemInv s) : MemInv (restoreHeld s q t slot p) :=
  hs.frame.foldl fun _ _ hs => hs.restoreOwn
theorem MemInv.clearSlot {t slot} (hs : MemInv s) : MemInv (clearSlot s t slot) := by
  unfold Machine.clearSlot
  split
  · exact hs.ite hs.frame
  · exact hs
theorem MemInv.digestTask {t slot m} (hs : MemInv s) : MemInv (digestTask s t slot m) := by
  unfold Machine.digestTask
  dsimp only
  split
  · exact hs
  · exact hs.ite (hs.frame.deliverFault.ite hs.frame)
theorem MemInv.execSpawnedTaskBind {i} (hs : MemInv s) : NextMemInv (execSpawnedTaskBind i s) := by
  unfold Machine.execSpawnedTaskBind
  dsimp only
  split
  · exact hs
  split
  · exact hs
  split
  · exact hs
  split
  · exact hs.frame
  split
  · exact hs
  split
  · exact hs
  split
  · exact hs
  split
  · exact MemInv.digestTask (by
      split
      · exact hs.clearSlot.bindTask.modLext.restoreHeld
      · exact hs.clearSlot.bindTask.modLext)
  split
  · exact hs.clearSlot.bindTask.modLext.restoreHeld
  · exact hs.clearSlot.bindTask.modLext
theorem MemInv.execSysBrk (hs : MemInv s) : NextMemInv (execSysBrk s) := hs.raiseCore
theorem MemInv.execSysTrap {a} (hs : MemInv s) : NextMemInv (execSysTrap a s) := by
  unfold Machine.execSysTrap
  split <;> exact hs.raiseCore
theorem MemInv.execSysEret (hs : MemInv s) : NextMemInv (execSysEret s) := by
  unfold Machine.execSysEret
  dsimp only
  split
  · exact hs.raiseCore
  · exact hs.frame.takeRollback
theorem MemInv.execBkSel {d a b} (hs : MemInv s) : NextMemInv (execBkSel d a b s) := by
  unfold Machine.execBkSel
  dsimp only
  exact hs.ctlOnly <| by
    split
    · exact hs.raiseCore
    split
    · exact hs.raiseCore
    split
    · exact hs.frame
    split
    · exact hs.frame
    · exact hs.stageAct

/-! ## Memory actors and rate sets (R12 to R19, R316 to R318) -/

theorem MemInv.memStop {q x u a g tr} (hs : MemInv s) : MemInv (memStop s q x u a g tr) := by
  unfold Machine.memStop
  dsimp only
  exact MemInv.modDie (by split <;> exact hs.frame)
theorem MemInv.placeMark {q l a} (hs : MemInv s) : MemInv (placeMark s q l a) := by
  unfold Machine.placeMark
  dsimp only
  split
  · split <;> exact hs.frame
  split
  · split
    · exact hs.logMark.modWin
    · exact hs
  · exact hs
theorem MemInv.settleOnce {q l g} (hs : MemInv s) :
    MemInv (settleOnce s q l g) := hs.foldl fun _ _ hs => by split <;> exact hs.frame
theorem MemInv.settleMarks {q} (hs : MemInv s) : MemInv (settleMarks s q) := by
  unfold Machine.settleMarks
  dsimp only
  split
  · exact (hs.foldl fun _ _ hs => hs.settleOnce).modLext
  · exact hs
theorem MemInv.sourceToken {q x u a l w rows fmt ds} (hs : MemInv s) : MemInv (sourceToken s q x u a l w rows fmt ds) := by
  unfold Machine.sourceToken
  dsimp only
  split
  · exact hs.writeRow.takeSlots.applyAdvance.modWin.modActor.modActor.placeMark
  · exact hs.writeRow.takeSlots.applyAdvance.modWin.modActor
theorem MemInv.execHbmsrcFiring {q x} (hs : MemInv s) : NextMemInv (execHbmsrcFiring q x s) := by
  unfold Machine.execHbmsrcFiring
  dsimp only
  split
  · exact hs
  split
  · exact hs.frame.memStop
  split
  · exact hs
  split
  · exact (hs.frame.foldl fun _ _ hs => hs.frame).memStop
  · exact (hs.frame.foldl fun _ _ hs => hs.frame).sourceToken
theorem MemInv.foldRow {q a l g id off bs} (hs : MemInv s) : MemInv (foldRow s q a l g id off bs) := by
  unfold Machine.foldRow
  dsimp only
  split
  · exact hs.touchUnits.addFinal
  split
  · exact hs.touchUnits.addFinal.ite hs.touchUnits.addDigest
  · exact hs.touchUnits
theorem MemInv.writeSink {q u a ctx l g id xs ds} (hs : MemInv s) : MemInv (writeSink q u a ctx l g id s xs ds) := by
  induction xs generalizing s ds with
  | nil => exact hs
  | cons x xs ih => exact ih hs.writeRow.frame.foldRow
theorem MemInv.execHbmsinkFiring {q x} (hs : MemInv s) : NextMemInv (execHbmsinkFiring q x s) := by
  unfold Machine.execHbmsinkFiring
  dsimp only
  split
  · exact hs
  split
  · exact hs.frame.memStop
  split
  · exact hs
  split
  · exact hs.frame.memStop.ite hs.frame.writeSink.memStop
  · exact hs.frame.writeSink.consume.modActor
theorem MemInv.execEclipseReceipt {q x} (hs : MemInv s) : NextMemInv (execEclipseReceipt q x s) := by
  unfold Machine.execEclipseReceipt
  dsimp only
  split
  · split
    · exact hs
    split
    · exact (hs.commitStep.modActor.foldl fun _ _ hs => hs.placeMark).endTask.ite hs.commitStep
    · exact (hs.frame.foldl fun _ _ hs => hs.placeMark).closeBound
    · exact hs.frame.foldl fun _ _ hs => hs.placeMark
  · exact hs
theorem MemInv.clearMarks {q l} (hs : MemInv s) : MemInv (clearMarks s q l) := hs.foldl fun _ _ hs => hs.frame
theorem MemInv.resumeActor {q l g x} (hs : MemInv s) : MemInv (resumeActor s q l g x) := by
  unfold Machine.resumeActor
  dsimp only
  split
  · exact hs
  split
  · split <;> exact hs.frame
  split
  · split
    · exact hs.placeMark
    · exact hs
  · exact hs.frame
theorem MemInv.execRateSetSwitch {q} (hs : MemInv s) : NextMemInv (execRateSetSwitch q s) := by
  unfold Machine.execRateSetSwitch
  dsimp only
  split
  · split
    · exact hs
    split
    · exact hs.frame.sendControl.ite hs
    split
    · exact hs
    split
    · exact hs
    · exact (hs.clearMarks.modLext.modLaunch.foldl fun _ _ hs => hs.resumeActor).complete.settleMarks.foldl fun _ _ hs => hs.markReady
  · exact hs

/-! ## Parts of a checkpoint (R334, R417, R438) -/

theorem MemInv.writePart {t slot k p} (hs : MemInv s) : MemInv (writePart s t slot k p) := by
  unfold Machine.writePart
  split
  · exact hs
  · exact hs.putArea.foldl fun _ _ hs => hs.putArea
theorem MemInv.recordPart {s0 : State} {t slot} (hs : MemInv s0) : MemInv (recordPart s0 t slot) := by
  unfold Machine.recordPart
  dsimp only
  split
  · exact hs
  · exact hs.writePart.modLext.modExt

/-! ## Restoring, aborting and completing a launch (R414, R419, R430, R439, R443) -/

theorem MemInv.discardBoth {t slot} (hs : MemInv s) : MemInv (discardBoth s t slot) := by
  unfold Machine.discardBoth
  dsimp only
  split
  · split
    · split
      · exact hs.ite hs.discardSection
      · exact hs
    · exact MemInv.discardSection (by
        split
        · exact hs.ite hs.discardSection
        · exact hs)
  split
  · exact hs.ite hs.discardSection
  · exact hs
theorem MemInv.stopTask {t slot} (hs : MemInv s) : MemInv (stopTask s t slot) := by
  unfold Machine.stopTask
  dsimp only
  split
  · exact hs.discardBoth.dropCmds.closeOwn.modTile.modExt.modTask.modTile
  · exact hs.discardBoth.dropCmds.closeOwn.modTile.modExt.modTask
theorem MemInv.stopLaunch {q} (hs : MemInv s) : MemInv (stopLaunch s q) := (hs.foldl fun _ _ hs => hs.stopTask).frame
theorem MemInv.openArc {q c g u a x} (hs : MemInv s) : MemInv (openArc s q c g u a x) := by
  unfold Machine.openArc
  dsimp only
  split
  · exact hs.frame.openWindow.ite hs.frame.openWindow.put
  · exact hs.frame.openWindow
theorem MemInv.reopenArcs {q l g} (hs : MemInv s) : MemInv (reopenArcs s q l g) :=
  hs.foldl fun _ _ hs => by
    split
    · exact hs.openArc
    · exact hs
theorem MemInv.restoreWindow {q l prods e} (hs : MemInv s) : MemInv (restoreWindow s q l prods e) := by
  unfold Machine.restoreWindow
  dsimp only
  split
  · exact hs
  split
  · exact hs
  split
  · exact (hs.frame.foldl fun _ _ hs => hs.writeRow).modProd.drainProxy
  split
  · exact (hs.frame.foldl fun _ _ hs => hs.writeRow).modProd
  · exact hs.frame.foldl fun _ _ hs => hs.writeRow
theorem MemInv.restoreTask {q n l t slot k} (hs : MemInv s) : MemInv (restoreTask s q n l t slot k) := by
  unfold Machine.restoreTask
  dsimp only
  exact MemInv.takeFrames (by
    split
    · exact hs.frame
    split
    · exact hs.frame.restoreHeld.deliverFault
    · exact hs.frame.restoreHeld)
theorem MemInv.restoreActors {q as} (hs : MemInv s) : MemInv (restoreActors s q as) := hs.foldl fun _ _ hs => hs.frame
theorem MemInv.rebindCleared {q n t} (hs : MemInv s) (h : rebindCleared s q n = some t) : MemInv t := by
  suffices bound : ∀ u ∈ Machine.rebindCleared s q n, MemInv u from bound t h
  refine List.foldlRecOn (motive := fun o => ∀ u ∈ o, MemInv u) _ _ ?_ fun o ho x _ u hu => ?_
  · rintro u ⟨⟩
    exact hs.frame
  · obtain ⟨v, hv, hu⟩ := Option.bind_eq_some_iff.mp hu
    obtain ⟨i, _, rfl⟩ := Option.map_eq_some_iff.mp hu
    exact (ho v hv).clearSlot.modTile
theorem MemInv.restoreFutures {q fs} (hs : MemInv s) : MemInv (restoreFutures s q fs) :=
  ((hs.foldl fun _ _ hs => hs.dropFuture.ite hs).foldl fun _ _ hs => hs.setFut.ite hs).recountNodes
theorem MemInv.freeDigests {is} (hs : MemInv s) : MemInv (freeDigests s is).1 :=
  MemInv.foldl_of Prod.fst hs fun _ _ hs => hs.frame
theorem MemInv.freeIndices {n} (hs : MemInv s) : MemInv (freeIndices s n).1 :=
  MemInv.foldl_of Prod.fst hs fun _ _ hs => hs.frame
theorem MemInv.remoteDigests {q} (hs : MemInv s) : MemInv (remoteDigests s q).1 := by
  unfold Machine.remoteDigests
  dsimp only
  split
  · split
    · exact hs
    · exact hs.frame.freeIndices.freeDigests
  · exact hs
theorem MemInv.formDigest {q ds} (hs : MemInv s) : MemInv (formDigest s q ds).1 := hs.remoteDigests
theorem MemInv.restorePkg {q n l} (hs : MemInv s) : MemInv (restorePkg s q n l) := by
  unfold Machine.restorePkg
  dsimp only
  split
  · exact hs.restoreFutures.restoreGroups.modLext.modLaunch
  · exact (hs.frame.restoreActors.foldl fun _ _ hs => hs.restoreWindow).restoreFutures.restoreGroups.modLext.modLaunch
theorem MemInv.digestTraps {q} (hs : MemInv s) : MemInv (digestTraps s q) := by
  unfold Machine.digestTraps
  split
  · exact hs
  · exact (hs.foldl fun _ _ hs => hs.digestTask).modLext
theorem MemInv.restoreDone {q} (hs : MemInv s) : MemInv (restoreDone s q) := by
  unfold Machine.restoreDone
  split <;> exact hs.frame
theorem MemInv.endPreempts {q status cause} (hs : MemInv s) : MemInv (endPreempts s q status cause) :=
  hs.frame.foldl fun _ _ hs => hs.complete
theorem MemInv.preemptStep {q} (hs : MemInv s) : MemInv (preemptStep s q) := hs.frame.endPreempts.ite hs
theorem MemInv.remarkProxies {q l g} (hs : MemInv s) : MemInv (remarkProxies s q l g) :=
  hs.foldl fun _ _ hs => by
    split
    · exact hs.placeMark.ite hs
    · exact hs
theorem MemInv.finishRestore {q} (hs : MemInv s) : MemInv (finishRestore s q) := by
  unfold Machine.finishRestore
  split
  · refine hs.ite ?_
    extract_lets n s1
    have h1 : MemInv s1 := hs.foldl fun _ _ hs => hs.frame
    split
    · exact hs
    next u hu =>
      have hbound := h1.rebindCleared hu
      exact ((hbound.reopenArcs.modLaunch.restoreActors.foldl fun _ _ hs => hs.restoreTask).foldl fun _ _ hs =>
        hs.restoreWindow.ite hs).restorePkg.modLext.modLaunch.remarkProxies.digestTraps.restoreDone.preemptStep
  · exact hs
theorem MemInv.beginRestore {q n report} (hs : MemInv s) :
    MemInv (beginRestore s q n report) := hs.ite hs.stopLaunch.modLext.modLaunch
theorem MemInv.recoverLaunch {q n} (hs : MemInv s) :
    MemInv (recoverLaunch s q n) := hs.ite hs.beginRestore.sendControl.finishRestore
theorem MemInv.freeShare {q} (hs : MemInv s) : MemInv (freeShare s q) :=
  ((hs.foldl fun _ _ hs => hs.closeWindow).foldl fun _ _ hs => hs.dropFuture.ite hs).modPkg.modLext
theorem MemInv.endRequests {q status cause} (hs : MemInv s) : MemInv (endRequests s q status cause) :=
  (hs.frame.foldl fun _ _ hs => hs.complete).endPreempts
theorem MemInv.completeShare {q status cause idx val d} (hs : MemInv s) :
    MemInv (completeShare s q status cause idx val d) := by
  unfold Machine.completeShare
  split
  · exact hs
  · exact hs.freeShare.modLaunch.complete.endRequests
theorem MemInv.abortLaunch {q cause actor val} (hs : MemInv s) : MemInv (abortLaunch s q cause actor val) := by
  unfold Machine.abortLaunch
  dsimp only
  split
  · exact hs
  · exact hs.ite hs.stopLaunch.modLext.formDigest.completeShare
theorem MemInv.writeHashTree {q n} (hs : MemInv s) : MemInv (writeHashTree s q n) := hs.ite hs.put.put
theorem MemInv.checkDigest {q n back d} (hs : MemInv s) : MemInv (checkDigest s q n back d).1 := by
  unfold Machine.checkDigest
  dsimp only
  split
  · exact hs.frame
  split
  · exact hs.frame
  split
  · exact hs.abortLaunch
  · exact hs.frame.recoverLaunch
theorem MemInv.completeCheckpoint {q n} (hs : MemInv s) : MemInv (completeCheckpoint s q n) := by
  unfold Machine.completeCheckpoint
  dsimp only
  split
  · exact hs
  · exact hs.ite hs.formDigest.modLext.writeHashTree.modLext.modNet.checkDigest
theorem MemInv.announceComplete {q n} (hs : MemInv s) :
    MemInv (announceComplete s q n) := hs.sendControl.completeCheckpoint.ite hs
theorem MemInv.checkpointStep {q} (hs : MemInv s) : MemInv (checkpointStep s q) := by
  unfold Machine.checkpointStep
  dsimp only
  split
  · exact hs.ite (hs.frame.announceComplete.ite hs.frame)
  · exact hs
theorem MemInv.launchSteps (hs : MemInv s) : MemInv (launchSteps s) := hs.foldl fun _ _ hs => hs.finishRestore.checkpointStep
theorem MemInv.execCkTake {d} (hs : MemInv s) : NextMemInv (execCkTake d s) := by
  unfold Machine.execCkTake
  dsimp only
  exact hs.ctlOnly <| by
    split
    · exact hs.raiseCore
    split
    · exact hs.frame
    split
    · exact hs.frame
    split
    · exact hs.frame
    split
    · exact hs.frame
    split
    · exact hs.commitStep.wx.modCur.recordPart.checkpointStep
    · exact hs.commitStep.wait
theorem MemInv.execCkDigest {d a} (hs : MemInv s) : NextMemInv (execCkDigest d a s) := by
  unfold Machine.execCkDigest
  dsimp only
  exact hs.ctlOnly <| by
    split
    · exact hs.raiseCore
    · exact hs.frame

/-! ## Accepting a launch (R402 to R405, R410) -/

theorem MemInv.tagBases {used ns} (hs : MemInv s) : MemInv (tagBases s used ns).1 := by
  induction ns generalizing s used with
  | nil => exact hs
  | cons n ns ih =>
    unfold Machine.tagBases
    dsimp only
    split
    · exact ih hs
    · exact ih hs.frame
theorem MemInv.bindOnTile {h q l g p entries t} (hs : MemInv s) : MemInv (bindOnTile s h q l g p entries t) :=
  hs.tagBases.foldl fun _ _ hs => hs.bindTask
theorem MemInv.openOnTile {h q l g p t} (hs : MemInv s) : MemInv (openOnTile s h q l g p t) := by
  unfold Machine.openOnTile
  dsimp only
  exact hs.foldl fun _ _ hs => MemInv.openArc (by split <;> exact hs.frame)
theorem MemInv.takeGroups {q l g} (hs : MemInv s) : MemInv (takeGroups s q l g).1 := by
  refine MemInv.foldl_of Prod.fst hs fun _ _ hs => ?_
  split
  · exact hs
  · exact hs.frame
theorem MemInv.bindPlaced {h q a} (hs : MemInv s) : MemInv (bindPlaced s h q a) :=
  (hs.frame.takeGroups.foldl fun _ _ hs => hs.bindOnTile.openOnTile).modLext
theorem MemInv.acceptLaunch {h q a rs} (hs : MemInv s) : MemInv (acceptLaunch s h q a rs) :=
  hs.bindPlaced.modLext.foldl fun _ _ hs => hs.markReady

/-! ## Containers (R36 to R46) -/

theorem MemInv.execContainerLoad {bs} (hs : MemInv s) : NextMemInv (execContainerLoad bs s) := by
  unfold Machine.execContainerLoad
  dsimp only
  repeat' split
  all_goals exact hs.frame
theorem MemInv.execContainerUnload {h} (hs : MemInv s) : NextMemInv (execContainerUnload h s) := by
  unfold Machine.execContainerUnload
  split <;> exact hs.frame

/-! ## Received transport frames (R344 to R348, R355) -/

theorem MemInv.execOtherFrameType {f} (hs : MemInv s) : NextMemInv (execOtherFrameType f s) := hs.ite hs.frame
theorem MemInv.cmdAcked {cmd} (hs : MemInv s) : MemInv (cmdAcked s cmd) := by
  unfold Machine.cmdAcked
  split
  · exact hs.ite hs.completeCmd
  · exact hs
theorem MemInv.retireCmd {dst cmd} (hs : MemInv s) : MemInv (retireCmd dst s cmd) := hs.frame.ite hs.cmdAcked
theorem MemInv.retireFrame {src x} (hs : MemInv s) : MemInv (retireFrame src s x) := hs.frame.ite hs
theorem MemInv.ackArrived {f} (hs : MemInv s) : MemInv (ackArrived s f) :=
  ((hs.frame.foldl fun _ _ hs => hs.retireCmd).foldl fun _ _ hs => hs.retireFrame).pump
theorem MemInv.refuseSection {f} (hs : MemInv s) : MemInv (refuseSection s f) := by
  unfold Machine.refuseSection
  dsimp only
  split <;> exact hs.frame
theorem MemInv.stageOp {f kind} (hs : MemInv s) : MemInv (stageOp s f kind) := by
  unfold Machine.stageOp
  dsimp only
  split
  · exact hs
  split
  · exact hs.frame.refuseSection
  · exact hs.frame
theorem MemInv.writePieces {o poison ps bs} (hs : MemInv s) : MemInv (writePieces o poison s ps bs) := by
  induction ps generalizing s bs with
  | nil => exact hs
  | cons p ps ih => exact ih hs.addWrite
theorem MemInv.applyOp {o x} (hs : MemInv s) : MemInv (applyOp o s x) := hs.writePieces.foldl fun _ _ hs => hs.touchUnits
theorem MemInv.discardArrived {f} (hs : MemInv s) : MemInv (discardArrived s f) := by
  unfold Machine.discardArrived
  split
  · exact hs.frame
  split
  · exact hs.failExplicit.ite hs.failImplicit
  · exact hs
theorem MemInv.commitStaging {f} (hs : MemInv s) : MemInv (commitStaging s f) := by
  unfold Machine.commitStaging
  dsimp only
  split
  · exact hs
  · exact hs.frame.ite (hs.foldl fun _ _ hs => hs.applyOp).dropStaging.modNet
theorem MemInv.answerGet {f} (hs : MemInv s) : MemInv (answerGet s f) := by
  unfold Machine.answerGet
  dsimp only
  split <;> exact hs.frame.sendData
theorem MemInv.getProgress {t slot c} (hs : MemInv s) : MemInv (getProgress s t slot c) := by
  unfold Machine.getProgress
  dsimp only
  split
  · exact hs.frame.deliverFault.ite hs.frame.deliverFault.completeCmd
  split
  · exact hs.frame.writeRow.foldShared.setCmd.perform.completeCmd
  · exact hs.frame.writeRow.foldShared.setCmd
theorem MemInv.getArrived {f} (hs : MemInv s) : MemInv (getArrived s f) := by
  unfold Machine.getArrived
  dsimp only
  split
  · exact hs
  · exact hs.failCommand.ite (hs.frame.ite hs.getProgress)
theorem MemInv.rowKey {src tile w} (hs : MemInv s) : MemInv (rowKey s src tile w).1 := by
  unfold Machine.rowKey
  dsimp only
  split <;> exact hs.frame
theorem MemInv.landRow {src e rw bs} (hs : MemInv s) : MemInv (landRow s src e rw bs) := by
  unfold Machine.landRow
  dsimp only
  split
  · exact hs.rowKey.pushRow
  · exact hs.frame
theorem MemInv.unpackRows {src e data} (hs : MemInv s) : MemInv (unpackRows s src e data) := hs.foldl fun _ _ hs => hs.landRow
theorem MemInv.rowPart {f} (hs : MemInv s) :
    MemInv (rowPart s f) := (hs.frame.unpackRows.ite hs.frame).ite (hs.frame.ite hs).modNet
theorem MemInv.cellArrived {f} (hs : MemInv s) : MemInv (cellArrived s f) := hs.ite (hs.frame.landRow.ite hs.frame)
theorem MemInv.withLaunch {f always} {act : Nat → State} (hs : MemInv s) (ha : ∀ q, MemInv (act q)) :
    MemInv (withLaunch s f always act) := by
  unfold Machine.withLaunch
  split
  · exact hs.ite ((ha _).ite hs.frame)
  · exact hs.frame
theorem MemInv.landArcToken {q a src serial bs} (hs : MemInv s) : MemInv (landArcToken s q a src serial bs) := by
  unfold Machine.landArcToken
  dsimp only
  split
  · exact hs
  split
  · exact hs
  · exact hs.ite (hs.frame.ite hs.addData.applyAdvance.modWin.settleMarks)
theorem MemInv.landWaiting {q a} (hs : MemInv s) : MemInv (landWaiting s q a) :=
  hs.foldl fun _ _ hs => hs.frame.foldl fun _ _ hs => hs.landArcToken
theorem MemInv.tokenArrived {f} (hs : MemInv s) : MemInv (tokenArrived s f) :=
  hs.withLaunch fun _ => hs.frame.landArcToken.landWaiting.ite hs.frame
theorem MemInv.markArrived {q src} (hs : MemInv s) : MemInv (markArrived s q src) := hs.frame.settleMarks
theorem MemInv.announcedRestore {q src} (hs : MemInv s) : MemInv (announcedRestore s q src) :=
  hs.frame.beginRestore.finishRestore.ite hs.frame.beginRestore.modLext.finishRestore
theorem MemInv.controlArrived {f} (hs : MemInv s) : MemInv (controlArrived s f) := by
  unfold Machine.controlArrived
  dsimp only
  exact hs.withLaunch fun _ => by
    split
    · exact hs.markArrived
    split
    · exact hs.frame
    split
    · exact hs.frame.launchSteps
    split
    · exact hs.frame.announcedRestore
    · exact hs.frame.announceComplete.ite (hs.completeCheckpoint.launchSteps.ite hs.frame.preemptStep)
theorem MemInv.deliver {f} (hs : MemInv s) : MemInv (deliver s f) :=
  hs.stageOp.ite <| hs.stageOp.ite <| hs.stageOp.ite <| hs.answerGet.ite <| hs.getArrived.ite <| hs.commitStaging.ite <|
    hs.discardArrived.ite <| hs.rowPart.ite <| hs.cellArrived.ite <| hs.tokenArrived.ite <| hs.controlArrived.ite hs
theorem MemInv.replayEarly (hs : MemInv s) : MemInv (replayEarly s) := hs.frame.foldl fun _ _ hs => hs.deliver
theorem MemInv.execCheckpointPart {t slot} (hs : MemInv s) : NextMemInv (execCheckpointPart t slot s) := by
  unfold Machine.execCheckpointPart
  dsimp only
  exact (MemInv.launchSteps (by
    split
    · exact hs
    · exact hs.ite (hs.commitStep.recordPart.ite hs.commitStep))).replayEarly
theorem MemInv.drainRun {k n} (hs : MemInv s) : MemInv (drainRun k n s) := by
  induction n generalizing s with
  | zero => exact hs
  | succ n ih =>
    unfold Machine.drainRun
    dsimp only
    split
    · exact hs
    · exact ih hs.frame.deliver
theorem MemInv.windowFrame {f} (hs : MemInv s) : MemInv (windowFrame s f) :=
  hs.frame.drainRun.sendAck.ite (hs.frame.ite (hs.frame.ite hs))
theorem MemInv.receive {f} (hs : MemInv s) : MemInv (receive s f) := hs.ackArrived.ite hs.windowFrame
theorem MemInv.holdRelayed {f} (hs : MemInv s) : MemInv (holdRelayed s f) := hs.ite hs.frame
theorem MemInv.takeWhole {f} (hs : MemInv s) :
    MemInv (takeWhole s f) := hs.frame.ite (hs.ite (hs.receive.ite (hs.holdRelayed.ite hs)))
theorem MemInv.takeFrame {f p} (hs : MemInv s) : NextMemInv (takeFrame f p s) := hs.takeWhole.ite hs
theorem MemInv.execStagedPut {f} (hs : MemInv s) : NextMemInv (execStagedPut f s) := hs.takeFrame
theorem MemInv.execStagedReduction {f} (hs : MemInv s) : NextMemInv (execStagedReduction f s) := hs.takeFrame
theorem MemInv.execStagedSignal {f} (hs : MemInv s) : NextMemInv (execStagedSignal f s) := hs.takeFrame
theorem MemInv.execGetRequest {f} (hs : MemInv s) : NextMemInv (execGetRequest f s) := hs.takeFrame
theorem MemInv.execGetData {f} (hs : MemInv s) : NextMemInv (execGetData f s) := hs.takeFrame
theorem MemInv.execCommit {f} (hs : MemInv s) : NextMemInv (execCommit f s) := hs.takeFrame
theorem MemInv.execDiscard {f} (hs : MemInv s) : NextMemInv (execDiscard f s) := hs.takeFrame
theorem MemInv.execAcknowledgement {f} (hs : MemInv s) : NextMemInv (execAcknowledgement f s) := hs.takeFrame
theorem MemInv.execRowFramePart {f} (hs : MemInv s) : NextMemInv (execRowFramePart f s) := hs.takeFrame
theorem MemInv.execCell {f} (hs : MemInv s) : NextMemInv (execCell f s) := hs.takeFrame
theorem MemInv.execArcToken {f} (hs : MemInv s) : NextMemInv (execArcToken f s) := hs.takeFrame
theorem MemInv.execEclipseMarker {f} (hs : MemInv s) : NextMemInv (execEclipseMarker f s) := hs.takeFrame
theorem MemInv.execQuiescenceReport {f} (hs : MemInv s) : NextMemInv (execQuiescenceReport f s) := hs.takeFrame
theorem MemInv.execCheckpointAnnouncement {f} (hs : MemInv s) : NextMemInv (execCheckpointAnnouncement f s) := hs.takeFrame
theorem MemInv.execPreemptionAnnouncement {f} (hs : MemInv s) : NextMemInv (execPreemptionAnnouncement f s) := hs.takeFrame
theorem MemInv.execCheckpointPartsWritten {f} (hs : MemInv s) : NextMemInv (execCheckpointPartsWritten f s) := hs.takeFrame
theorem MemInv.execCheckpointComplete {f} (hs : MemInv s) : NextMemInv (execCheckpointComplete f s) := hs.takeFrame
theorem MemInv.execRestoreDone {f} (hs : MemInv s) : NextMemInv (execRestoreDone f s) := hs.takeFrame
theorem MemInv.execRelayFrame {f} (hs : MemInv s) : NextMemInv (execRelayFrame f s) := hs.takeFrame
theorem MemInv.peerReset {p} (hs : MemInv s) : MemInv (peerReset s p) :=
  (hs.frame.foldl fun _ _ hs => hs.failExplicit.ite hs.failImplicit).pump

/-! ## Journal entries and rounds of agreement (R395 to R400, R414, R415) -/

theorem MemInv.releaseLaunch {q} (hs : MemInv s) : MemInv (releaseLaunch s q) := (hs.foldl fun _ _ hs => hs.frame).modPkg
theorem MemInv.sendRound {seq released replacement} (hs : MemInv s) : MemInv (sendRound s seq released replacement) :=
  hs.frame.foldl fun _ _ hs => hs.frame
theorem MemInv.openRound {seq replacement} (hs : MemInv s) : MemInv (openRound s seq replacement) :=
  (hs.foldl fun _ _ hs => hs.releaseLaunch).returnTiles.modPkg.sendRound
theorem MemInv.repeatRound (hs : MemInv s) : MemInv (repeatRound s) := by
  unfold Machine.repeatRound
  split
  · exact hs.sendRound
  · exact hs
theorem MemInv.execValidationRound (hs : MemInv s) : NextMemInv (execValidationRound s) := hs.openRound.ite hs
theorem MemInv.unplaceLaunch {q} (hs : MemInv s) : MemInv (unplaceLaunch s q) := by
  unfold Machine.unplaceLaunch
  dsimp only
  split
  · exact hs
  · exact hs.ite hs.beginRestore.sendControl.modLaunch.modPkg
theorem MemInv.loseTiles {p} (hs : MemInv s) : MemInv (loseTiles s p) := hs.foldl fun _ _ hs => hs.unplaceLaunch
theorem MemInv.quarantineTile {s0 : State} {t} (hs : MemInv s0) :
    MemInv (quarantineTile s0 t) := hs.finishReads.modPkg.loseTiles
theorem MemInv.resetDie {d} (hs : MemInv s) : MemInv (resetDie s d) :=
  hs.resetController.resetController.modDie.loseTiles.frame.modPkg.repeatRound
theorem MemInv.execDieVerdict {d status field} (hs : MemInv s) : NextMemInv (execDieVerdict d status field s) := by
  unfold Machine.execDieVerdict
  split
  · exact hs
  · exact hs.ite (hs.frame.ite hs.resetDie)
theorem MemInv.closeRound {q} (hs : MemInv s) : MemInv (closeRound s q) := hs.frame.foldl fun _ _ hs => hs.frame
theorem MemInv.rejectEntry {q typ addr f} (hs : MemInv s) : MemInv (rejectEntry s q typ addr f) := hs.complete
theorem MemInv.dropLost {q} (hs : MemInv s) : MemInv (dropLost s q) := hs.unplaceLaunch.ite hs
theorem MemInv.execLaunchPacket {q} (hs : MemInv s) : NextMemInv (execLaunchPacket q s) := by
  unfold Machine.execLaunchPacket
  dsimp only
  split
  · exact hs
  split
  · exact hs.acceptLaunch.replayEarly.dropLost.closeRound
  · exact (hs.rejectEntry.foldl fun _ _ hs => hs.rejectEntry).closeRound
theorem MemInv.markReached {q} (hs : MemInv s) : MemInv (markReached s q) := by
  unfold Machine.markReached
  split
  · exact hs.foldl fun _ _ hs => by
      split
      · split
        · exact hs.frame.placeMark
        · exact hs
      · exact hs
  · exact hs
theorem MemInv.acceptMode {q m} (hs : MemInv s) : MemInv (acceptMode s q m) := hs.frame.markReached.settleMarks.closeRound
theorem MemInv.execModeRequest {q} (hs : MemInv s) : NextMemInv (execModeRequest q s) := by
  unfold Machine.execModeRequest
  refine hs.ite ?_
  extract_lets m
  split
  · exact hs.rejectEntry.closeRound
  refine hs.closeRound.ite ?_
  split
  · exact hs.draw.rejectEntry.closeRound.ite hs.draw.acceptMode
  · exact hs.acceptMode
theorem MemInv.execPreemptionRequest {q} (hs : MemInv s) : NextMemInv (execPreemptionRequest q s) := by
  unfold Machine.execPreemptionRequest
  refine hs.ite ?_
  extract_lets p
  split
  · exact hs.rejectEntry.closeRound
  · exact hs.modLext.recoverLaunch.closeRound
theorem MemInv.execReservedJournalEntry {q} (hs : MemInv s) : NextMemInv (execReservedJournalEntry q s) :=
  hs.ite hs.rejectEntry.closeRound
theorem MemInv.showWrites {q} (hs : MemInv s) : MemInv (showWrites s q) := hs.perform
theorem MemInv.execShareCompletion {q} (hs : MemInv s) : NextMemInv (execShareCompletion q s) := by
  unfold Machine.execShareCompletion
  dsimp only
  split
  · exact hs
  split
  · exact hs
  · exact hs.showWrites.formDigest.checkDigest.completeShare.ite hs.showWrites.formDigest.checkDigest
theorem MemInv.execShareCompleteReport {d q} (hs : MemInv s) : NextMemInv (execShareCompleteReport d q s) := by
  unfold Machine.execShareCompleteReport
  dsimp only
  repeat' split
  all_goals exact hs.frame
theorem MemInv.unbindLaunch {q} (hs : MemInv s) : MemInv (unbindLaunch s q) := by
  unfold Machine.unbindLaunch
  dsimp only
  split
  · exact hs
  · exact ((hs.foldl fun _ _ hs => hs.closeWindow).foldl fun _ _ hs => hs.frame).modPkg.modLext
theorem MemInv.execReplacementRound {q} (hs : MemInv s) : NextMemInv (execReplacementRound q s) := by
  unfold Machine.execReplacementRound
  dsimp only
  split
  · split
    · exact hs
    split
    · exact hs.openRound.modPkg
    · exact hs.openRound.modPkg.unbindLaunch.bindPlaced.modPkg.finishRestore.replayEarly
  · exact hs

/-! ## Links (R336 to R354) -/

theorem MemInv.execFrameResend {dst cls} (hs : MemInv s) : NextMemInv (execFrameResend dst cls s) := hs.frame
theorem MemInv.failCmd {code cmd} (hs : MemInv s) : MemInv (failCmd code s cmd) := by
  unfold Machine.failCmd
  split
  · exact hs.ite hs.failCommand
  · exact hs
theorem MemInv.execDeliveryLimitExpiry {dst cls} (hs : MemInv s) : NextMemInv (execDeliveryLimitExpiry dst cls s) := by
  unfold Machine.execDeliveryLimitExpiry
  dsimp only
  split
  · exact hs
  split
  · exact hs
  split
  · exact (hs.frame.foldl fun _ _ hs => hs.failCmd).failLaunch
  · exact hs.frame.foldl fun _ _ hs => hs.failCmd
theorem MemInv.execCopyEngineReset {e} (hs : MemInv s) : NextMemInv (execCopyEngineReset e s) :=
  ((hs.foldl fun _ _ hs => hs.frame.ite hs).foldl fun _ _ hs => hs.failExplicit.ite hs.failImplicit).pump
theorem MemInv.serveFlits {peer} (hs : MemInv s) : MemInv (serveFlits s peer) := hs.ite hs.frame
theorem MemInv.takeFlits {src} (hs : MemInv s) : MemInv (takeFlits s src) := by
  unfold Machine.takeFlits
  dsimp only
  split
  · exact hs.frame.takeWhole
  · exact hs.frame.ite hs
theorem MemInv.execOpticalFlit {f} (hs : MemInv s) : NextMemInv (execOpticalFlit f s) := by
  unfold Machine.execOpticalFlit
  dsimp only
  split
  · exact hs
  split
  · exact hs.frame
  split
  · exact hs.frame
  split
  · exact hs.frame
  · exact hs.frame.takeFlits
theorem MemInv.execKeyInstall {src dst key} (hs : MemInv s) : NextMemInv (execKeyInstall src dst key s) := by
  unfold Machine.execKeyInstall
  dsimp only
  split
  · exact hs
  split
  · exact (hs.peerReset.ite hs).modPair
  · exact hs.ite hs.frame
theorem MemInv.execKeyRetirementReport {src dst} (hs : MemInv s) : NextMemInv (execKeyRetirementReport src dst s) :=
  hs.frame.ite (hs.frame.ite hs)
theorem MemInv.launchFrame {peer f relay} (hs : MemInv s) : MemInv (launchFrame s peer f relay) := by
  unfold Machine.launchFrame
  dsimp only
  split <;> exact hs.frame
theorem MemInv.slotFrame {k peer c} {st : State × Nat} (hs : MemInv st.1) : MemInv (slotFrame k peer st c).1 := by
  unfold Machine.slotFrame
  split
  · exact hs
  split
  · exact hs
  split
  · exact hs.frame.launchFrame
  · exact hs
theorem MemInv.slotAck {k peer f} {st : State × Nat} (hs : MemInv st.1) : MemInv (slotAck k peer st f).1 := by
  unfold Machine.slotAck
  split
  · exact hs.frame.launchFrame
  · exact hs
theorem MemInv.slotRelayed {peer f} {st : State × Nat} (hs : MemInv st.1) : MemInv (slotRelayed peer st f).1 := by
  unfold Machine.slotRelayed
  split <;> exact hs.frame
theorem MemInv.servePort {k} (hs : MemInv s) : MemInv (servePort s k) := by
  have hrelayed (peer : Nat) := MemInv.foldl_of Prod.fst (f := Machine.slotRelayed peer) (l := s.net.relayed) (b := (s, 1444000)) hs
    fun _ _ hs => hs.slotRelayed
  exact MemInv.foldl_of Prod.fst (MemInv.foldl_of Prod.fst (hrelayed _) fun _ _ hs => hs.slotAck) fun _ _ hs => hs.slotFrame
theorem MemInv.execOrrerySlot (hs : MemInv s) : NextMemInv (execOrrerySlot s) :=
  hs.ite (hs.frame.foldl fun _ _ hs => hs.serveFlits.servePort.ite hs).pump
theorem MemInv.execOrreryLockLoss (hs : MemInv s) : NextMemInv (execOrreryLockLoss s) := hs.frame
theorem MemInv.execOpticalPortLoss {k} (hs : MemInv s) : NextMemInv (execOpticalPortLoss k s) := hs.ite hs.frame
theorem MemInv.execOpticalPortReturn {k} (hs : MemInv s) : NextMemInv (execOpticalPortReturn k s) := hs.ite hs.frame
theorem MemInv.execPauseFrame {port cls on} (hs : MemInv s) : NextMemInv (execPauseFrame port cls on s) := hs.ite hs.frame
theorem MemInv.execElectricalPortLoss {k} (hs : MemInv s) : NextMemInv (execElectricalPortLoss k s) :=
  hs.ite (hs.frame.foldl fun _ _ hs => hs.frame).pump
theorem MemInv.execElectricalPortReturn {k} (hs : MemInv s) : NextMemInv (execElectricalPortReturn k s) := hs.ite hs.frame
theorem MemInv.execD2dFlit {d f} (hs : MemInv s) : NextMemInv (execD2dFlit d f s) := by
  unfold Machine.execD2dFlit
  dsimp only
  repeat' split
  all_goals exact hs.frame
theorem MemInv.execD2dNack {d n} (hs : MemInv s) : NextMemInv (execD2dNack d n s) := hs.frame
theorem MemInv.execLinkRetrain {d} (hs : MemInv s) : NextMemInv (execLinkRetrain d s) := hs.frame
theorem MemInv.execLaneGroupFailure {d g} (hs : MemInv s) : NextMemInv (execLaneGroupFailure d g s) :=
  hs.ite (hs.resetDie.modLink.ite hs.frame)

/-! ## Faults, resets and clocks (R430 to R436, R455) -/

theorem MemInv.handleFault {d q r mem} (hs : MemInv s) : MemInv (handleFault s d q r mem) :=
  hs.frame.ite ((hs.frame.recoverLaunch.ite hs).ite hs.abortLaunch)
theorem MemInv.abortFromElsewhere (hs : MemInv s) : MemInv (abortFromElsewhere s) := by
  unfold Machine.abortFromElsewhere
  dsimp only
  split
  · exact hs
  split
  · exact hs.frame
  · exact hs.frame.abortLaunch
theorem MemInv.remoteMember {i m ends} (hs : MemInv s) : MemInv (remoteMember s i m ends) := by
  unfold Machine.remoteMember
  dsimp only
  split <;> exact hs.frame
theorem MemInv.newsFromElsewhere (hs : MemInv s) : MemInv (newsFromElsewhere s) := by
  unfold Machine.newsFromElsewhere
  dsimp only
  split
  · exact hs.abortFromElsewhere
  split
  · exact hs.frame.abortFromElsewhere
  · exact hs.frame.remoteMember
  · exact hs.frame.remoteMember
theorem MemInv.execFaultRecord {d} (hs : MemInv s) : NextMemInv (execFaultRecord d s) := by
  unfold Machine.execFaultRecord
  split
  · exact hs
  split
  · exact hs.frame.quarantineTile
  · exact hs.newsFromElsewhere
  · exact hs.frame.handleFault
theorem MemInv.execFaultRingWrite (hs : MemInv s) : NextMemInv (execFaultRingWrite s) := by
  unfold Machine.execFaultRingWrite
  dsimp only
  split
  · exact hs
  · exact hs.put.modRegs.raiseMsix.ite hs.frame
theorem MemInv.execTileQuarantine {t} (hs : MemInv s) : NextMemInv (execTileQuarantine t s) := hs.quarantineTile
theorem MemInv.execTileReturn {t} (hs : MemInv s) : NextMemInv (execTileReturn t s) := hs.ite hs.frame.strikeTables.modPkg
theorem MemInv.execDieReset {d} (hs : MemInv s) : NextMemInv (execDieReset d s) := hs.ite hs.resetDie
theorem MemInv.execThermalTrip {d} (hs : MemInv s) : NextMemInv (execThermalTrip d s) := hs.ite hs.resetDie
theorem MemInv.execStackFault {k} (hs : MemInv s) : NextMemInv (execStackFault k s) := hs.ite hs.resetController.modStack
theorem MemInv.execWatchdogExpiry {d} (hs : MemInv s) : NextMemInv (execWatchdogExpiry d s) := hs.ite hs.frame
theorem MemInv.resumeAccepted {d} (hs : MemInv s) : MemInv (resumeAccepted s d) :=
  (hs.foldl fun _ _ hs => hs.recoverLaunch).modPkg.ite (hs.foldl fun _ _ hs => hs.recoverLaunch)
theorem MemInv.execDieRejoin {d} (hs : MemInv s) : NextMemInv (execDieRejoin d s) :=
  hs.ite (hs.frame.resumeAccepted.repeatRound.ite hs.frame.resumeAccepted)
theorem MemInv.execDieWdog {d v} (hs : MemInv s) : NextMemInv (execDieWdog d v s) := hs.ite hs.frame
theorem MemInv.execDieErrinj {d v} (hs : MemInv s) : NextMemInv (execDieErrinj d v s) := hs.ite hs.frame
theorem MemInv.execClockControlTick {d limit} (hs : MemInv s) : NextMemInv (execClockControlTick d limit s) := hs.ite hs.frame
theorem Memory.wf_putWrites {m : List (Nat × Byte)} (ws : List PWrite) (hm : Memory.wf m = true) :
    Memory.wf (ws.foldl (fun m w => putBytes m w.addr w.bytes) m) = true :=
  List.foldlRecOn (motive := fun m => Memory.wf m = true) ws _ hm fun _ hm _ _ => Memory.wf_putBytes _ _ hm

/-! ## Bring-up, host registers and windows (R446 to R457) -/

theorem MemInv.execModuleReset (hs : MemInv s) : NextMemInv (execModuleReset s) :=
  mapWf_filter _ (Memory.wf_putWrites s.writes hs)
theorem MemInv.execRootOfTrustCheck {flash version minVersion pkg ceiling badTiles} (hs : MemInv s) :
    NextMemInv (execRootOfTrustCheck flash version minVersion pkg ceiling badTiles s) := by
  unfold Machine.execRootOfTrustCheck
  repeat' split
  all_goals exact hs.frame
theorem MemInv.execDieManagerStart {ok} (hs : MemInv s) : NextMemInv (execDieManagerStart ok s) :=
  hs.ite (hs.frame.ite (hs.foldl fun _ _ hs => hs.frame).modPkg.setStage)
theorem MemInv.selfTestTables (hs : MemInv s) : MemInv (selfTestTables s) := hs.frame.foldl fun _ _ hs => hs.strikeTables.ite hs
theorem MemInv.execTileSelfTest {news failed} (hs : MemInv s) : NextMemInv (execTileSelfTest news failed s) := by
  unfold Machine.execTileSelfTest
  dsimp only
  split
  · exact hs.enterMonitor.ite hs
  split
  · exact hs
  split
  · exact (hs.foldl fun _ _ hs => hs.frame).selfTestTables.stopBringUp
  · exact ((hs.foldl fun _ _ hs => hs.frame).selfTestTables.foldl fun _ _ hs => hs.quarantineTile).setStage
theorem MemInv.execHbmTraining {k ok} (hs : MemInv s) : NextMemInv (execHbmTraining k ok s) := by
  unfold Machine.execHbmTraining
  dsimp only
  repeat' split
  all_goals exact hs.frame
theorem MemInv.execSubstrateLinkTraining {ok} (hs : MemInv s) : NextMemInv (execSubstrateLinkTraining ok s) := by
  unfold Machine.execSubstrateLinkTraining
  repeat' split
  all_goals exact hs.frame
theorem MemInv.execOrreryLock {slot ports} (hs : MemInv s) : NextMemInv (execOrreryLock slot ports s) := by
  unfold Machine.execOrreryLock
  repeat' split
  all_goals exact hs.frame
theorem MemInv.requestReport {v} (hs : MemInv s) : MemInv (requestReport s v) := by
  unfold Machine.requestReport
  split <;> exact hs.frame
theorem MemInv.offered {t : State} (hs : MemInv s) (ht : MemInv t) : MemInv (offered s t) := hs.ite ht
theorem MemInv.execAttestationRequest {v} (hs : MemInv s) :
    NextMemInv (execAttestationRequest v s) := hs.offered hs.requestReport
theorem MemInv.execAttestationReport {report} (hs : MemInv s) : NextMemInv (execAttestationReport report s) := hs.frame.ite hs
theorem MemInv.showHost {link} (hs : MemInv s) : MemInv (showHost s link) := hs.perform
theorem MemInv.ringDoorbell {link v} (hs : MemInv s) : MemInv (ringDoorbell s link v) :=
  hs.showHost.modRegs.ite (hs.showHost.ite hs.showHost.modRegs.modPkg)
theorem MemInv.execHostJdb {v} (hs : MemInv s) : NextMemInv (execHostJdb v s) := hs.offered hs.frame.ringDoorbell
theorem MemInv.execHostJbase {v} (hs : MemInv s) : NextMemInv (execHostJbase v s) := hs.offered hs.frame
theorem MemInv.execHostFbase {v} (hs : MemInv s) : NextMemInv (execHostFbase v s) := hs.offered hs.frame
theorem MemInv.execHostWindowAccess {link off data len} (hs : MemInv s) :
    NextMemInv (execHostWindowAccess link off data len s) := by
  unfold Machine.execHostWindowAccess
  dsimp only
  split
  · split
    · exact hs.addWrite
    · exact hs.frame
  · exact (hs.showHost.unsupported.ite hs.showHost).modRegs
theorem MemInv.writeDieReg {fw d off v} (hs : MemInv s) : MemInv (writeDieReg s fw d off v) := by
  unfold Machine.writeDieReg
  repeat' apply MemInv.ite
  all_goals exact hs.frame
theorem MemInv.writePkgReg {off v} (hs : MemInv s) : MemInv (writePkgReg s off v) := by
  unfold Machine.writePkgReg
  repeat' apply MemInv.ite
  all_goals exact hs.frame
theorem MemInv.writeHostReg {link off v} (hs : MemInv s) : MemInv (writeHostReg s link off v) := by
  unfold Machine.writeHostReg
  split
  · exact hs.frame
  split
  · exact hs.frame
  split
  · exact hs.ringDoorbell
  · exact hs.frame.ite (hs.frame.ite (hs.frame.ite (hs.frame.ite (hs.requestReport.ite hs))))
theorem MemInv.storeReg {who r x} (hs : MemInv s) : MemInv (storeReg s who r x) := by
  unfold Machine.storeReg
  split
  · exact hs.ite (hs.writeHostReg.ite (hs.writePkgReg.ite (hs.writeDieReg.ite hs)))
  · exact hs.ite (hs.writePkgReg.ite (hs.writeDieReg.ite hs))
  · exact hs
theorem MemInv.loadReg {who off size} (hs : MemInv s) : MemInv (loadReg s who off size) := by
  unfold Machine.loadReg
  dsimp only
  split
  · exact hs.ite hs.showHost.modRegs
  · exact hs.ite hs.frame
  · exact hs
theorem MemInv.execRegisterWrite {who off size v} (hs : MemInv s) : NextMemInv (execRegisterWrite who off size v s) := by
  unfold Machine.execRegisterWrite
  dsimp only
  split
  · exact hs.ite hs.frame
  · exact hs.ite hs.frame
  split
  · exact hs
  split
  · exact hs.loadReg
  · exact hs.loadReg
  · exact hs.ite hs.storeReg

/-! ## The invalidate queue (R66 to R68) -/

theorem MemInv.invDone {status} (hs : MemInv s) : MemInv (invDone s status) := by
  unfold Machine.invDone
  split
  · exact hs
  · exact hs.put.modRegs
theorem MemInv.dropCopies {c} (hs : MemInv s) : MemInv (dropCopies s c) := hs.perform.modPkg
theorem MemInv.execInvalidate (hs : MemInv s) : NextMemInv (execInvalidate s) := by
  unfold Machine.execInvalidate
  split
  · exact hs
  · exact hs.ite (hs.invDone.ite (hs.ite hs.dropCopies.invDone))
theorem MemInv.execReady (hs : MemInv s) : NextMemInv (execReady s) := by
  unfold Machine.execReady
  split
  · exact hs
  · exact hs.ite (hs.frame.foldl fun _ _ hs => hs.getProgress).invDone
theorem MemInv.execInvqMalformedCommand (hs : MemInv s) : NextMemInv (execInvqMalformedCommand s) := by
  unfold Machine.execInvqMalformedCommand
  split
  · exact hs
  · exact hs.invDone.ite hs

/-! ## Atomics, locks, fences, tags and apertures (R233 to R236, R263 to R270) -/

theorem MemInv.atomicAct {op rd ra rb scope} (hs : MemInv s) : MemInv (atomicAct op rd ra rb scope s).state := by
  unfold Machine.atomicAct
  dsimp only
  split
  · exact hs.raiseCore
  split
  · exact hs.atomicFind.atomicFail
  · exact hs.atomicFind.strongStore.foldAtomic.retN
theorem MemInv.execAmAdd {d a b sc} (hs : MemInv s) : NextMemInv (execAmAdd d a b sc s) := hs.atomicAct
theorem MemInv.execAmMin {d a b sc} (hs : MemInv s) : NextMemInv (execAmMin d a b sc s) := hs.atomicAct
theorem MemInv.execAmMax {d a b sc} (hs : MemInv s) : NextMemInv (execAmMax d a b sc s) := hs.atomicAct
theorem MemInv.execAmAnd {d a b sc} (hs : MemInv s) : NextMemInv (execAmAnd d a b sc s) := hs.atomicAct
theorem MemInv.execAmOr {d a b sc} (hs : MemInv s) : NextMemInv (execAmOr d a b sc s) := hs.atomicAct
theorem MemInv.execAmXchg {d a b sc} (hs : MemInv s) : NextMemInv (execAmXchg d a b sc s) := hs.atomicAct
theorem MemInv.execAmCas {d a b sc} (hs : MemInv s) : NextMemInv (execAmCas d a b sc s) := hs.atomicAct
theorem MemInv.execSyBind {a b} (hs : MemInv s) : NextMemInv (execSyBind a b s) := by
  unfold Machine.execSyBind
  dsimp only
  split
  · exact hs.raiseCore
  split
  · exact hs.raiseCore
  split
  · exact hs.raiseCore
  split
  · exact hs.raiseCore
  split
  · exact hs.raiseCore
  · exact hs.frame
theorem MemInv.homeSeen {a n} (hs : MemInv s) : MemInv (homeSeen s a n) := hs.perform
theorem MemInv.execSyAcq {d a} (hs : MemInv s) : NextMemInv (execSyAcq d a s) := by
  unfold Machine.execSyAcq
  dsimp only
  split
  · exact hs.raiseCore
  split
  · exact hs.raiseCore
  split
  · exact hs.atomicFind.atomicFail
  split
  · exact hs.atomicFind.strongStoreNow.foldAtomic.acquire.ret
  · exact hs.atomicFind.homeSeen.retN
theorem MemInv.execSyRel {a} (hs : MemInv s) : NextMemInv (execSyRel a s) := by
  unfold Machine.execSyRel
  dsimp only
  split
  · exact hs.raiseCore
  split
  · exact hs.raiseCore
  split
  · exact hs.atomicFind.atomicFail
  split
  · exact hs.atomicFind.raiseCore
  · exact hs.atomicFind.release.strongStoreNow.foldShared.done
theorem MemInv.execSyFence {sc} (hs : MemInv s) : NextMemInv (execSyFence sc s) := by
  unfold Machine.execSyFence
  split
  · exact hs.raiseCore
  · exact hs.fenceScalar.done
theorem MemInv.execPfFence {x y} (hs : MemInv s) : NextMemInv (execPfFence x y s) := by
  unfold Machine.execPfFence
  split
  · exact hs.raiseCore
  · exact hs.fencePaths.done
theorem MemInv.execWritePerformed {i o} (hs : MemInv s) : NextMemInv (execWritePerformed i o s) := by
  unfold Machine.execWritePerformed
  dsimp only
  split
  · exact hs
  · exact hs.perform.ite hs.frame.perform
theorem MemInv.execStKey {a b} (hs : MemInv s) : NextMemInv (execStKey a b s) := by
  unfold Machine.execStKey
  dsimp only
  exact hs.ctlOnly <| by
    split
    · exact hs.raiseCore
    · exact hs.frame
theorem MemInv.execStMember {a b} (hs : MemInv s) : NextMemInv (execStMember a b s) := by
  unfold Machine.execStMember
  dsimp only
  exact hs.ctlOnly <| by
    split
    · exact hs.raiseCore
    · exact hs.frame
theorem MemInv.execTgLook {d a} (hs : MemInv s) : NextMemInv (execTgLook d a s) := by
  unfold Machine.execTgLook
  dsimp only
  split <;> exact hs.frame
theorem MemInv.execTgIns {d a b} (hs : MemInv s) : NextMemInv (execTgIns d a b s) := by
  unfold Machine.execTgIns
  dsimp only
  split
  · exact hs.raiseCore
  split
  · exact hs.raiseCore
  split
  · exact hs.raiseCore
  repeat' split
  all_goals exact hs.frame
theorem MemInv.execTgInv {a} (hs : MemInv s) : NextMemInv (execTgInv a s) := by
  unfold Machine.execTgInv
  dsimp only
  split <;> exact hs.frame
theorem MemInv.execTgSlot {d a} (hs : MemInv s) : NextMemInv (execTgSlot d a s) := by
  unfold Machine.execTgSlot
  dsimp only
  split
  · exact hs.raiseCore
  split
  · exact hs.raiseCore
  split <;> exact hs.frame
theorem MemInv.execGaCvt {d a} (hs : MemInv s) : NextMemInv (execGaCvt d a s) := by
  unfold Machine.execGaCvt
  repeat' split
  all_goals exact hs.frame
theorem MemInv.execGaTest {d a b} (hs : MemInv s) : NextMemInv (execGaTest d a b s) := by
  unfold Machine.execGaTest
  split
  · exact hs.raiseCore
  · exact hs.frame

/-! ## Every step -/

/-- Whatever instruction or unit step is executed, what it answers keeps the form. -/
theorem MemInv.exec {i} (hs : MemInv s) : NextMemInv (exec i s) := by
  unfold Machine.exec
  cases i with
  | ioCfg => exact hs.execIoCfg
  | ioArm => exact hs.execIoArm
  | ioHalt => exact hs.execIoHalt
  | ioStat => exact hs.execIoStat
  | rwOpen => exact hs.execRwOpen
  | rwPush => exact hs.execRwPush
  | rwPop => exact hs.execRwPop
  | rwWait => exact hs.execRwWait
  | rwStat => exact hs.execRwStat
  | rwLap => exact hs.execRwLap
  | tcCopy => exact hs.execTcCopy
  | tcCopy2 => exact hs.execTcCopy2
  | tcWait => exact hs.execTcWait
  | tcStat => exact hs.execTcStat
  | tgLook => exact hs.execTgLook
  | tgIns => exact hs.execTgIns
  | tgInv => exact hs.execTgInv
  | tgSlot => exact hs.execTgSlot
  | gaCvt => exact hs.execGaCvt
  | gaTest => exact hs.execGaTest
  | fuNew => exact hs.execFuNew
  | fuSet => exact hs.execFuSet
  | fuGet => exact hs.execFuGet
  | fuWait => exact hs.execFuWait
  | fuThen => exact hs.execFuThen
  | fuDrop => exact hs.execFuDrop
  | grArrive => exact hs.execGrArrive
  | grWait => exact hs.execGrWait
  | grBar => exact hs.execGrBar
  | grCast => exact hs.execGrCast
  | evPop => exact hs.execEvPop
  | evPeek => exact hs.execEvPeek
  | evWait => exact hs.execEvWait
  | syAcq => exact hs.execSyAcq
  | syRel => exact hs.execSyRel
  | syBind => exact hs.execSyBind
  | syFence => exact hs.execSyFence
  | pfFence => exact hs.execPfFence
  | amAdd => exact hs.execAmAdd
  | amMin => exact hs.execAmMin
  | amMax => exact hs.execAmMax
  | amAnd => exact hs.execAmAnd
  | amOr => exact hs.execAmOr
  | amXchg => exact hs.execAmXchg
  | amCas => exact hs.execAmCas
  | xcGet => exact hs.execXcGet
  | xcPut => exact hs.execXcPut
  | xcRed => exact hs.execXcRed
  | xcSig => exact hs.execXcSig
  | xcBegin => exact hs.execXcBegin
  | xcCommit => exact hs.execXcCommit
  | xcFrame => exact hs.execXcFrame
  | nbQuery => exact hs.execNbQuery
  | nbAppend => exact hs.execNbAppend
  | nbFence => exact hs.execNbFence
  | stKey => exact hs.execStKey
  | stMember => exact hs.execStMember
  | fbLoad => exact hs.execFbLoad
  | fbSwap => exact hs.execFbSwap
  | fbRun => exact hs.execFbRun
  | fbStop => exact hs.execFbStop
  | fbTok => exact hs.execFbTok
  | fbSink => exact hs.execFbSink
  | mxIssue => exact hs.execMxIssue
  | mxWait => exact hs.execMxWait
  | ckTake => exact hs.execCkTake
  | ckDigest => exact hs.execCkDigest
  | bkSel => exact hs.execBkSel
  | sysYield => exact hs.execSysYield
  | sysEnd => exact hs.execSysEnd
  | sysSpawn => exact hs.execSysSpawn
  | sysBrk => exact hs.execSysBrk
  | sysTrap => exact hs.execSysTrap
  | sysEret => exact hs.execSysEret
  | ebreak => exact hs.execEbreak
  | ecall => exact hs.execEcall
  | fence => exact hs.execFence
  | csrAccess => exact hs.execCsrAccess
  | scalarLoad => exact hs.execScalarLoad
  | scalarStore => exact hs.execScalarStore
  | instructionFetch => exact hs.execInstructionFetch
  | msStep => exact hs.execMsStep
  | msLoad => exact hs.execMsLoad
  | msSteep => exact hs.execMsSteep
  | msDrain => exact hs.execMsDrain
  | msZero => exact hs.execMsZero
  | msWait => exact hs.execMsWait
  | msLoop => exact hs.execMsLoop
  | msEnd => exact hs.execMsEnd
  | drainedRowAccept => exact hs.execDrainedRowAccept
  | drainStallExpiry => exact hs.execDrainStallExpiry
  | msWaitExpiry => exact hs.execMsWaitExpiry
  | rowIssue => exact hs.execRowIssue
  | routeLanding => exact hs.execRouteLanding
  | drainLimitExit => exact hs.execDrainLimitExit
  | expansionComplete => exact hs.execExpansionComplete
  | planeSwapInstall => exact hs.execPlaneSwapInstall
  | portTokenFetch => exact hs.execPortTokenFetch
  | portTokenWrite => exact hs.execPortTokenWrite
  | tileCopyComplete => exact hs.execTileCopyComplete
  | eventRecordWrite => exact hs.execEventRecordWrite
  | advanceMessage => exact hs.execAdvanceMessage
  | releaseMessage => exact hs.execReleaseMessage
  | rwWaitExpiry => exact hs.execRwWaitExpiry
  | evWaitExpiry => exact hs.execEvWaitExpiry
  | fuWaitExpiry => exact hs.execFuWaitExpiry
  | grWaitExpiry => exact hs.execGrWaitExpiry
  | trapEntry => exact hs.execTrapEntry
  | sectionRollback => exact hs.execSectionRollback
  | firingStart => exact hs.execFiringStart
  | firingEnd => exact hs.execFiringEnd
  | hbmsrcFiring => exact hs.execHbmsrcFiring
  | hbmsinkFiring => exact hs.execHbmsinkFiring
  | eclipseReceipt => exact hs.execEclipseReceipt
  | rateSetSwitch => exact hs.execRateSetSwitch
  | checkpointPart => exact hs.execCheckpointPart
  | swapOut => exact hs.execSwapOut
  | taskSwitch => exact hs.execTaskSwitch
  | taskPromotion => exact hs.execTaskPromotion
  | spawnedTaskBind => exact hs.execSpawnedTaskBind
  | launchPacket => exact hs.execLaunchPacket
  | modeRequest => exact hs.execModeRequest
  | preemptionRequest => exact hs.execPreemptionRequest
  | reservedJournalEntry => exact hs.execReservedJournalEntry
  | validationRound => exact hs.execValidationRound
  | dieVerdict => exact hs.execDieVerdict
  | shareCompleteReport => exact hs.execShareCompleteReport
  | replacementRound => exact hs.execReplacementRound
  | shareCompletion => exact hs.execShareCompletion
  | containerLoad => exact hs.execContainerLoad
  | containerUnload => exact hs.execContainerUnload
  | invalidate => exact hs.execInvalidate
  | ready => exact hs.execReady
  | invqMalformedCommand => exact hs.execInvqMalformedCommand
  | bankSlice => exact hs.execBankSlice
  | bankRefresh => exact hs.execBankRefresh
  | ordinaryBankAccess => exact hs.execOrdinaryBankAccess
  | queryResult => exact hs.execQueryResult
  | infuserParityFault => exact hs.execInfuserParityFault
  | stackControllerReset => exact hs.execStackControllerReset
  | stagedPut => exact hs.execStagedPut
  | stagedReduction => exact hs.execStagedReduction
  | stagedSignal => exact hs.execStagedSignal
  | getRequest => exact hs.execGetRequest
  | getData => exact hs.execGetData
  | commit => exact hs.execCommit
  | discard => exact hs.execDiscard
  | acknowledgement => exact hs.execAcknowledgement
  | rowFramePart => exact hs.execRowFramePart
  | cell => exact hs.execCell
  | arcToken => exact hs.execArcToken
  | eclipseMarker => exact hs.execEclipseMarker
  | quiescenceReport => exact hs.execQuiescenceReport
  | checkpointAnnouncement => exact hs.execCheckpointAnnouncement
  | preemptionAnnouncement => exact hs.execPreemptionAnnouncement
  | checkpointPartsWritten => exact hs.execCheckpointPartsWritten
  | checkpointComplete => exact hs.execCheckpointComplete
  | restoreDone => exact hs.execRestoreDone
  | relayFrame => exact hs.execRelayFrame
  | frameResend => exact hs.execFrameResend
  | deliveryLimitExpiry => exact hs.execDeliveryLimitExpiry
  | rowFrameFillTimeout => exact hs.execRowFrameFillTimeout
  | copyEngineReset => exact hs.execCopyEngineReset
  | orrerySlot => exact hs.execOrrerySlot
  | orreryLock => exact hs.execOrreryLock
  | orreryLockLoss => exact hs.execOrreryLockLoss
  | opticalPortLoss => exact hs.execOpticalPortLoss
  | opticalPortReturn => exact hs.execOpticalPortReturn
  | opticalFlit => exact hs.execOpticalFlit
  | keyInstall => exact hs.execKeyInstall
  | keyRetirementReport => exact hs.execKeyRetirementReport
  | d2dFlit => exact hs.execD2dFlit
  | d2dNack => exact hs.execD2dNack
  | linkRetrain => exact hs.execLinkRetrain
  | laneGroupFailure => exact hs.execLaneGroupFailure
  | pauseFrame => exact hs.execPauseFrame
  | faultRecord => exact hs.execFaultRecord
  | faultRingWrite => exact hs.execFaultRingWrite
  | tileQuarantine => exact hs.execTileQuarantine
  | dieReset => exact hs.execDieReset
  | stackFault => exact hs.execStackFault
  | watchdogExpiry => exact hs.execWatchdogExpiry
  | dieWdog => exact hs.execDieWdog
  | dieErrinj => exact hs.execDieErrinj
  | clockControlTick => exact hs.execClockControlTick
  | thermalTrip => exact hs.execThermalTrip
  | moduleReset => exact hs.execModuleReset
  | rootOfTrustCheck => exact hs.execRootOfTrustCheck
  | dieManagerStart => exact hs.execDieManagerStart
  | tileSelfTest => exact hs.execTileSelfTest
  | hbmTraining => exact hs.execHbmTraining
  | substrateLinkTraining => exact hs.execSubstrateLinkTraining
  | attestationRequest => exact hs.execAttestationRequest
  | attestationReport => exact hs.execAttestationReport
  | hostJdb => exact hs.execHostJdb
  | hostJbase => exact hs.execHostJbase
  | hostFbase => exact hs.execHostFbase
  | hostWindowAccess => exact hs.execHostWindowAccess
  | registerWrite => exact hs.execRegisterWrite
  | baseInstruction => exact hs.execBaseInstruction
  | writePerformed => exact hs.execWritePerformed
  | electricalPortLoss => exact hs.execElectricalPortLoss
  | electricalPortReturn => exact hs.execElectricalPortReturn
  | otherFrameType => exact hs.execOtherFrameType
  | tileReturn => exact hs.execTileReturn
  | dieRejoin => exact hs.execDieRejoin

/-- Whatever a step executes, or with nothing to execute, the state it answers keeps the form. -/
theorem MemInv.step (hs : MemInv s) : NextMemInv (step s) := by
  unfold Machine.step
  split
  next i t h => exact MemInv.exec (h ▸ hs.nextInstr : MemInv (some i, t).2)
  next t h => exact (h ▸ hs.nextInstr : MemInv (none, t).2)

/-- Settles O8: every way in which a step changes memory goes through operations that keep its form. -/
theorem stepKeepsMemoryCanonical : Obligations.StepKeepsMemoryCanonical := by
  intro s t hs h
  have ht := hs.step
  rw [h] at ht
  exact ht

end Sys2Proof.Safety
end

section
/-! SUPPORT. What the shared operations leave alone, as readings of the state: writes of bytes, frames, messages, what a launch records, windows.

A reading is a function `p` of the state. A lemma `f_keeps` says once, for every reading that does not look at what the operation `f`
changes, that `p (f s …) = p s`; memory, a byte at its home, a task, the indices of a window or the run state of an actor are readings, and
a proof takes the ones it needs. -/

namespace Sys2Proof.Machine

variable {β : Type} {p : State → β}

/-! ## Readings -/

/-- A reading that looks neither at frames, messages, dies nor at what a launch records beside the count of its completed requests. -/
structure OffRecords (p : State → β) : Prop where
  net : ∀ s f, p (s.modNet f) = p s
  msgs : ∀ (s : State) m, p { s with msgs := m } = p s
  die : ∀ s d f, p (s.modDie d f) = p s
  lext : ∀ s q f, (∀ e, (f e).reqsDone = e.reqsDone) → p (s.modLext q f) = p s

/-- Such a reading that looks at no tile but for its tasks. -/
structure OffWindows (p : State → β) : Prop extends OffRecords p where
  tile : ∀ s t f, (∀ v, (f v).tasks = v.tasks) → p (s.modTile t f) = p s

/-- A reading that does not look at what a write of bytes changes. -/
def OffMemory (p : State → β) : Prop :=
  ∀ (s : State) mem poison flips writes dies hbm stamp draws,
    p { s with mem := mem, poison := poison, flips := flips, writes := writes, dies := dies, hbm := hbm, stamp := stamp, draws := draws } = p s

/-- Write, read and occupancy of a window: what of it the marks, tags and laps leave alone (R327). -/
def windowIndices (t k : Nat) (s : State) : Option (Nat × Nat × Nat) := (s.win t k).map (fun w => (w.wr, w.rd, w.occ))

/-- What a launch runs by, and how many of its requests are complete (R317). -/
def runState (q : Nat) (s : State) : Option (Nat × LaunchStat) × Nat := ((s.launch q).map (fun l => (l.mode, l.stat)), (s.lext q).reqsDone)

theorem foldl_keeps {α : Type} {f : State → α → State} (hf : ∀ s x, p (f s x) = p s) (l : List α) (s : State) : p (l.foldl f s) = p s :=
  List.foldlRecOn (motive := fun t => p t = p s) l f rfl (fun t ht x _ => (hf t x).trans ht)

theorem ite_keeps {c : Prop} {_ : Decidable c} {s t : State} {b : β} (hs : p s = b) (ht : p t = b) : p (if c then s else t) = b := by
  split <;> assumption

theorem OffRecords.lext_of (hp : OffRecords p) {s : State} {b : β} (h : p s = b) {q : Nat} {f : LaunchExt → LaunchExt}
    (hf : ∀ e, (f e).reqsDone = e.reqsDone) : p (s.modLext q f) = b := (hp.lext s q f hf).trans h

/-! ## Tables of the state -/

theorem State.win_modTile (s : State) (t u k : Nat) (f : Tile → Tile) (hf : ∀ v, (f v).wins = v.wins) :
    (s.modTile t f).win u k = s.win u k := by
  by_cases h : u = t
  · subst h; simp [State.win, Tile.win, hf]
  · simp [State.win, State.tile_modTile_ne _ _ h]

theorem State.task_modTile (s : State) (t u k : Nat) (f : Tile → Tile) (hf : ∀ v, (f v).tasks = v.tasks) :
    (s.modTile t f).task u k = s.task u k := by
  by_cases h : u = t
  · subst h; simp [State.task, Tile.task, hf]
  · simp [State.task, State.tile_modTile_ne _ _ h]

@[simp] theorem State.win_modWin_same (s : State) (t k : Nat) (f : Window → Window) : (s.modWin t k f).win t k = (s.win t k).map f := by
  simp [State.win, State.modWin, Tile.win, Tile.setWin]

theorem State.win_modWin_ne (s : State) {t k u j : Nat} (f : Window → Window) (h : ¬(u = t ∧ j = k)) :
    (s.modWin t k f).win u j = s.win u j := by
  by_cases hu : u = t
  · subst hu
    have hj : j ≠ k := fun e => h ⟨rfl, e⟩
    simp [State.win, State.modWin, Tile.win, Tile.setWin, mapGet_mapSet_ne _ _ _ hj]
  · simp [State.win, State.modWin, State.tile_modTile_ne _ _ hu]

@[simp] theorem State.task_modTask_same (s : State) (t k : Nat) (f : Task → Task) : (s.modTask t k f).task t k = (s.task t k).map f := by
  simp [State.task, State.modTask, Tile.task]

@[simp] theorem State.launch_modLaunch_same (s : State) (q : Nat) (f : Launch → Launch) : (s.modLaunch q f).launch q = (s.launch q).map f := by
  simp [State.launch, State.modLaunch]

theorem State.launch_modLaunch_ne (s : State) {q r : Nat} (f : Launch → Launch) (h : r ≠ q) : (s.modLaunch q f).launch r = s.launch r := by
  simp [State.launch, State.modLaunch, mapGet_mapSet_ne _ _ _ h]

@[simp] theorem State.lext_modLext_same (s : State) (q : Nat) (f : LaunchExt → LaunchExt) : (s.modLext q f).lext q = f (s.lext q) := by
  simp [State.lext, State.modLext]

theorem State.reqsDone_modLext (s : State) (q r : Nat) (f : LaunchExt → LaunchExt) (hf : ∀ e, (f e).reqsDone = e.reqsDone) :
    ((s.modLext q f).lext r).reqsDone = (s.lext r).reqsDone := by
  by_cases h : r = q
  · subst h; rw [State.lext_modLext_same, hf]
  · simp [State.lext, State.modLext, mapGet_mapSet_ne _ _ _ h]

/-- The run state of an actor of a launch that stands in the table. -/
theorem State.actorSt_modActor (s : State) (q x : Nat) (f : ActorSt → ActorSt) (h : (s.launch q).isSome) :
    (s.modActor q x f).actorSt q x = f (s.actorSt q x) := by
  obtain ⟨l, hl⟩ := Option.isSome_iff_exists.mp h
  simp [State.actorSt, State.modActor, State.launch_modLaunch_same, hl]

theorem State.launch_modActor_isSome {s : State} {q : Nat} (h : (s.launch q).isSome) (x : Nat) (f : ActorSt → ActorSt) :
    ((s.modActor q x f).launch q).isSome := by
  simpa [State.modActor, State.launch_modLaunch_same] using h

theorem State.prod_modTile (s : State) (t u v k : Nat) (f : Tile → Tile) (hf : ∀ v, (f v).prods = v.prods) :
    (s.modTile t f).prod u v k = s.prod u v k := by
  by_cases h : u = t
  · subst h; simp [State.prod, hf]
  · simp [State.prod, State.tile_modTile_ne _ _ h]

/-! ## The readings of the statement -/

theorem offWindows_mem : OffWindows State.mem := ⟨⟨fun _ _ => rfl, fun _ _ => rfl, fun _ _ _ => rfl, fun _ _ _ _ => rfl⟩, fun _ _ _ _ => rfl⟩

theorem offWindows_homeByte (x : Nat) : OffWindows (fun s => s.homeByte x) :=
  ⟨⟨fun _ _ => rfl, fun _ _ => rfl, fun _ _ _ => rfl, fun _ _ _ _ => rfl⟩, fun _ _ _ _ => rfl⟩

theorem offWindows_launch (q : Nat) : OffWindows (fun s => s.launch q) :=
  ⟨⟨fun _ _ => rfl, fun _ _ => rfl, fun _ _ _ => rfl, fun _ _ _ _ => rfl⟩, fun _ _ _ _ => rfl⟩

theorem offWindows_actorSt (q x : Nat) : OffWindows (fun s => s.actorSt q x) :=
  ⟨⟨fun _ _ => rfl, fun _ _ => rfl, fun _ _ _ => rfl, fun _ _ _ _ => rfl⟩, fun _ _ _ _ => rfl⟩

theorem offWindows_isComplete (n : Nat) : OffWindows (fun s => s.isComplete n) :=
  ⟨⟨fun _ _ => rfl, fun _ _ => rfl, fun _ _ _ => rfl, fun _ _ _ _ => rfl⟩, fun _ _ _ _ => rfl⟩

theorem offWindows_task (t k : Nat) : OffWindows (fun s => s.task t k) :=
  ⟨⟨fun _ _ => rfl, fun _ _ => rfl, fun _ _ _ => rfl, fun _ _ _ _ => rfl⟩, fun s u f hf => State.task_modTile s u t k f hf⟩

theorem offWindows_runState (q : Nat) : OffWindows (runState q) :=
  ⟨⟨fun _ _ => rfl, fun _ _ => rfl, fun _ _ _ => rfl,
    fun s r f hf => congrArg (Prod.mk _) (State.reqsDone_modLext s r q f hf)⟩, fun _ _ _ _ => rfl⟩

theorem offRecords_win (t k : Nat) : OffRecords (fun s => s.win t k) := ⟨fun _ _ => rfl, fun _ _ => rfl, fun _ _ _ => rfl, fun _ _ _ _ => rfl⟩

theorem offRecords_windowIndices (t k : Nat) : OffRecords (windowIndices t k) :=
  ⟨fun _ _ => rfl, fun _ _ => rfl, fun _ _ _ => rfl, fun _ _ _ _ => rfl⟩

/-! ## Writes of bytes (R384, R432, R434) -/

section Writes

variable (hp : OffMemory p)
include hp

theorem setPoison_keeps (s : State) (w : Nat) (v : Bool) : p (s.setPoison w v) = p s := by
  unfold State.setPoison
  dsimp only
  split
  · split <;> exact hp s _ _ _ _ _ _ _ _
  · exact hp s _ _ _ _ _ _ _ _

theorem logMerge_keeps (s : State) (a n ctx : Nat) : p (s.logMerge a n ctx) = p s := by
  unfold State.logMerge
  refine foldl_keeps (fun s w => ?_) _ s
  split
  · rfl
  · split
    · rfl
    · exact hp s _ _ _ _ _ _ _ _

theorem inject_keeps (s : State) (a n ctx : Nat) : p (s.inject a n ctx) = p s := by
  have used (s : State) (d array flips a unit ctx : Nat) : p (useInj s d array flips a unit ctx) = p s := hp s _ _ _ _ _ _ _ _
  unfold State.inject
  split
  · rfl
  · split
    · rfl
    · dsimp only
      split
      · rw [setPoison_keeps hp, used]
      · exact hp s _ _ _ _ _ _ _ _

theorem placeWrite_keeps (s : State) (w : PWrite) : p (placeWrite s w) = p s := by
  unfold placeWrite
  dsimp only
  split <;> exact hp s _ _ _ _ _ _ _ _

theorem addWrite_keeps (s : State) (w : PWrite) (v : Bool) : p (s.addWrite w v) = p s := by
  have settled (s : State) (n : Nat) : p ({ s with stamp := n } : State).settle = p s := hp s _ _ _ _ _ _ _ _
  have cleared (s : State) (a n : Nat) : p (s.clearFlips a n) = p s := hp s _ _ _ _ _ _ _ _
  unfold State.addWrite
  split
  · rfl
  · dsimp only
    rw [inject_keeps hp, settled, placeWrite_keeps hp, State.mergePoison_keeps p (setPoison_keeps hp), cleared, logMerge_keeps hp]

theorem writeRuns_keeps (w : Who) (reach : List Reach) (mask : List (Nat × Nat)) (fuel a : Nat) (ds : List (Byte × Bool)) (s : State) :
    p (writeRuns s w reach mask fuel a ds) = p s := by
  induction fuel generalizing s a ds with
  | zero => rfl
  | succ fuel ih =>
    cases ds with
    | nil => rfl
    | cons d rest =>
      simp only [writeRuns]
      rw [ih]
      split
      · rfl
      · exact addWrite_keeps hp _ _ _

theorem writeRow_keeps (w : Who) (reach : List Reach) (mask : List (Nat × Nat)) (ps : List Part) (ds : List (Byte × Bool)) (s : State) :
    p (writeRow s w reach mask ps ds) = p s := by
  induction ps generalizing s ds with
  | nil => rfl
  | cons x ps ih => simp only [writeRow]; rw [ih, writeRuns_keeps hp]

end Writes

theorem offMemory_win (t k : Nat) : OffMemory (fun s => s.win t k) := fun _ _ _ _ _ _ _ _ _ => rfl
theorem offMemory_launch (q : Nat) : OffMemory (fun s => s.launch q) := fun _ _ _ _ _ _ _ _ _ => rfl
theorem offMemory_actorSt (q x : Nat) : OffMemory (fun s => s.actorSt q x) := fun _ _ _ _ _ _ _ _ _ => rfl
theorem offMemory_isComplete (n : Nat) : OffMemory (fun s => s.isComplete n) := fun _ _ _ _ _ _ _ _ _ => rfl
theorem offMemory_runState (q : Nat) : OffMemory (runState q) := fun _ _ _ _ _ _ _ _ _ => rfl

/-- A run of equal poison is the beginning of the bytes that are left to write. -/
theorem exists_run (rest : List (Byte × Bool)) (f : (Byte × Bool) × Nat → Bool) :
    ∃ n ≤ rest.length, (rest.zipIdx.takeWhile f).map (·.1) = rest.take n := by
  have h := (List.takeWhile_prefix f (l := rest.zipIdx)).map Prod.fst
  rw [List.zipIdx_map_fst] at h
  exact ⟨_, h.length_le, List.prefix_iff_eq_take.mp h⟩

/-- A byte of a list that is written in two pieces, over what stood there before. -/
theorem getD_two_pieces (ds : List (Byte × Bool)) {n : Nat} (hn : n ≤ ds.length) (a x : Nat) (b : Byte) :
    (if a + n ≤ x ∧ x < a + n + (ds.drop n).length then ((ds.drop n).getD (x - (a + n)) (0, false)).1
      else if a ≤ x ∧ x < a + n then ((ds.take n).map (·.1)).getD (x - a) 0 else b) =
      if a ≤ x ∧ x < a + ds.length then (ds.getD (x - a) (0, false)).1 else b := by
  rw [List.length_drop]
  by_cases hx : a ≤ x ∧ x < a + ds.length
  · rw [if_pos hx]
    obtain ⟨i, rfl⟩ := Nat.exists_eq_add_of_le hx.1
    by_cases hi : i < n
    · rw [if_neg (by omega), if_pos (by omega)]
      simp [List.getD_eq_getElem?_getD, List.getElem?_take_of_lt hi, List.getElem?_eq_getElem (show i < ds.length by omega)]
    · rw [if_pos (by omega)]
      simp [List.getD_eq_getElem?_getD, List.getElem?_drop, show n + (a + i - (a + n)) = i by omega]
  · rw [if_neg hx, if_neg (by omega), if_neg (by omega)]

/-- Where no pending store can come after it, a part is written at its home in full, and nothing else is (R229, R384). -/
theorem homeByte_writeRuns (w : Who) (reach : List Reach) (hw : w.cls ≠ 0) (fuel a : Nat) (ds : List (Byte × Bool)) (hf : ds.length ≤ fuel)
    (s : State) (x : Nat) : (writeRuns s w reach [] fuel a ds).homeByte x =
      if a ≤ x ∧ x < a + ds.length then (ds.getD (x - a) (0, false)).1 else s.homeByte x := by
  have unseen (y v : PWrite) (hv : v.cls = w.cls) : y.unseen v = false := by simp [PWrite.unseen, hv, hw]
  induction fuel generalizing s a ds with
  | zero =>
    obtain rfl : ds = [] := List.length_eq_zero_iff.mp (Nat.le_zero.mp hf)
    rw [if_neg (by rw [List.length_nil]; omega)]
    rfl
  | succ fuel ih =>
    cases ds with
    | nil =>
      rw [if_neg (by rw [List.length_nil]; omega)]
      rfl
    | cons d rest =>
      obtain ⟨b, v⟩ := d
      obtain ⟨n, hn, hrun⟩ := exists_run rest (fun y => y.1.2 == v && maskedAt [] (a + 1 + y.2) == maskedAt [] a)
      have hlen : (((b, v) :: rest).take (n + 1)).length = n + 1 := by
        rw [List.length_take, List.length_cons]
        omega
      simp only [writeRuns, hrun]
      rw [← List.take_succ_cons, hlen, ih _ _ (by simp only [List.length_drop, List.length_cons] at hf ⊢; omega), if_neg (show ¬maskedAt [] a = true from Bool.false_ne_true),
        State.homeByte_addWrite _ _ _ (fun y => unseen y _ rfl), ← getD_two_pieces ((b, v) :: rest) (Nat.succ_le_succ hn)]
      simp only [PWrite.covers, List.length_map, hlen, Bool.and_eq_true, decide_eq_true_eq]

/-! ## Frames, messages and records (R311, R328, R333 to R335, R348) -/

theorem pump_keeps (hp : ∀ s f, p (s.modNet f) = p s) (s : State) : p s.pump = p s := by
  unfold State.pump
  exact hp s _

theorem sendControlTo_keeps (hp : ∀ s f, p (s.modNet f) = p s) (s : State) (q kind arg dst : Nat) :
    p (s.sendControlTo q kind arg dst) = p s :=
  (pump_keeps hp _).trans (hp s _)

theorem sendControl_keeps (hp : ∀ s f, p (s.modNet f) = p s) (s : State) (q kind arg : Nat) : p (s.sendControl q kind arg) = p s :=
  foldl_keeps (fun s d => sendControlTo_keeps hp s q kind arg d) _ s

section Records

variable (hp : OffRecords p)
include hp

theorem editRecord_keeps (s : State) (q c arc : Nat) (f : Window × List (Byte × Bool) → Window × List (Byte × Bool)) :
    p (editRecord s q c arc f) = p s := hp.lext s q _ fun _ => rfl

theorem logArrival_keeps (s : State) (t k n : Nat) : p (logArrival s t k n) = p s := by
  unfold logArrival
  dsimp only
  split
  · rfl
  split
  · rfl
  · exact ite_keeps (editRecord_keeps hp _ _ _ _ _) rfl

theorem logMark_keeps (s : State) (w : Window) (m : Nat) : p (logMark s w m) = p s := by
  unfold logMark
  split
  · rfl
  · exact ite_keeps (editRecord_keeps hp _ _ _ _ _) rfl

theorem announceDue_keeps (s : State) (q n : Nat) : p (announceDue s q n) = p s :=
  (sendControl_keeps hp.net _ _ _ _).trans (hp.lext_of rfl fun _ => rfl)

theorem sendMsg_keeps (s : State) (t k : Nat) (m : WinMsg) : p (sendMsg s t k m) = p s := by
  unfold sendMsg
  dsimp only
  exact ite_keeps (hp.msgs s _) ((hp.die _ _ _).trans (hp.msgs s _))

/-- A marker goes out as a frame, or behind the tokens of its arc's window, whose marks alone it changes (R316). -/
theorem placeMark_keeps (hm : ∀ s t k m, p (s.modWin t k (fun w => { w with marks := w.marks ++ [m] })) = p s)
    (s : State) (q : Nat) (l : Launch) (a : Nat) : p (placeMark s q l a) = p s := by
  unfold placeMark
  dsimp only
  split
  · split
    · exact sendControlTo_keeps hp.net _ _ _ _ _
    · rfl
  split
  · split
    · exact (hm _ _ _ _).trans (logMark_keeps hp _ _ _)
    · rfl
  · rfl

theorem touchUnits_keeps (s : State) (q ctx tensor off n : Nat) : p (s.touchUnits q ctx tensor off n) = p s := by
  unfold State.touchUnits
  dsimp only
  exact ite_keeps rfl (hp.lext_of rfl fun _ => rfl)

/-- A sink's write is counted in a digest: of a logical index with no task, of an ended task, or of one that runs (R440, R443). -/
theorem foldRow_keeps (hd : ∀ s t k x, p (s.addDigest t k x) = p s) (s : State) (q a : Nat) (l : Launch) (g : Graph) (id off : Nat)
    (bs : List Byte) : p (foldRow s q a l g id off bs) = p s := by
  have final (s : State) (n x : Nat) : p (s.addFinal q n x) = p s := hp.lext s q _ fun _ => rfl
  have touched := touchUnits_keeps hp s q l.ctx id off bs.length
  unfold foldRow
  dsimp only
  split
  · exact (final _ _ _).trans touched
  split
  · exact ite_keeps ((final _ _ _).trans touched) ((hd _ _ _ _).trans touched)
  · exact touched

end Records

/-! ## Windows (R221, R222, R327, R328) -/

section Windows

variable (hp : OffWindows p)
include hp

theorem modWin_keeps (s : State) (t k : Nat) (f : Window → Window) : p (s.modWin t k f) = p s := hp.tile s t _ fun _ => rfl
theorem modProd_keeps (s : State) (t u k : Nat) (f : ProdCopy → ProdCopy) : p (s.modProd t u k f) = p s := hp.tile s t _ fun _ => rfl
theorem mark_keeps (s : State) (q : Nat) (l : Launch) (a : Nat) : p (placeMark s q l a) = p s :=
  placeMark_keeps hp.toOffRecords (fun s t k _ => modWin_keeps hp s t k _) s q l a

theorem takeSlots_keeps (s : State) (t u k n : Nat) : p (takeSlots s t u k n) = p s := by
  unfold takeSlots
  split
  · rfl
  · exact modProd_keeps hp _ _ _ _ _

theorem applyAdvance_keeps (s : State) (t k n i : Nat) : p (applyAdvance s t k n i) = p s :=
  (logArrival_keeps hp.toOffRecords _ _ _ _).trans (modWin_keeps hp s t k _)

theorem closeWindow_keeps (s : State) (t k : Nat) : p (closeWindow s t k) = p s := by
  have closed : p (s.modTile t (fun v => v.setWin k none)) = p s := hp.tile s t _ fun _ => rfl
  unfold closeWindow
  dsimp only
  split
  · rfl
  · exact (hp.msgs _ _).trans (ite_keeps ((modProd_keeps hp _ _ _ _ _).trans closed) closed)

theorem closeArc_keeps (s : State) (q t a : Nat) : p (closeArc s q t a) = p s := by
  unfold closeArc
  split
  · exact hp.lext_of (closeWindow_keeps hp _ _ _) fun _ => rfl
  · rfl

theorem closeBound_keeps (s : State) (q : Nat) (l : Launch) (g : Graph) (x : Nat) : p (closeBound s q l g x) = p s := by
  refine (foldl_keeps (fun s a => ?_) _ _).trans (foldl_keeps (fun s a => ?_) _ _)
  · split
    · split
      · exact ite_keeps (closeArc_keeps hp _ _ _ _) rfl
      · rfl
    · rfl
  · split
    · exact ite_keeps (closeArc_keeps hp _ _ _ _) rfl
    · rfl

theorem closeOwn_keeps (s : State) (t k : Nat) : p (closeOwn s t k) = p s := by
  refine foldl_keeps (fun s w => ?_) _ s
  split
  · exact ite_keeps (closeWindow_keeps hp _ _ _) rfl
  · rfl

theorem clearMarks_keeps (s : State) (q : Nat) (l : Launch) : p (clearMarks s q l) = p s :=
  foldl_keeps (fun s _ => modWin_keeps hp s _ _ _) _ s

theorem settleMarks_keeps (s : State) (q : Nat) : p (settleMarks s q) = p s := by
  have once (s : State) (l : Launch) (g : Graph) : p (settleOnce s q l g) = p s := by
    refine foldl_keeps (fun s src => ?_) _ s
    split
    · exact hp.lext_of (modWin_keeps hp _ _ _ _) fun _ => rfl
    · rfl
  unfold settleMarks
  split
  · exact hp.lext_of (foldl_keeps (fun s _ => once s _ _) _ s) fun _ => rfl
  · rfl

end Windows

/-- What a consumption of `n` tokens makes of a window that stood at `x` (R223, R332). -/
def consumption (x : Window) (n : Nat) (y : Window) : Window :=
  { y with rd := (x.rd + n) % x.cap, occ := y.occ - n, lap := (x.lap + (x.rd + n) / x.cap) % 2 ^ 16, laps := x.laps + (x.rd + n) / x.cap
           cCount := y.cCount + n, marks := y.marks.map (fun m => m - n) }

/-- Beside the window, a consumption changes the producer's copy, messages and what is announced (R223, R328, R333). -/
theorem consume_keeps (hp : OffRecords p) (hr : ∀ s t u k f, p (s.modProd t u k f) = p s) {s : State} {t k n : Nat} {x : Window}
    (hx : s.win t k = some x) (hn : n ≠ 0) : p (consume s t k n) = p (s.modWin t k (consumption x n)) := by
  have told (s : State) (m : WinMsg) (i j : Nat) {c d : Prop} {_ : Decidable c} {_ : Decidable d} :
      p (if c then (if d then applyRelease s t t k n i j else sendMsg s t k m) else s) = p s :=
    ite_keeps (ite_keeps (hr _ _ _ _ _) (sendMsg_keeps hp _ _ _ _)) rfl
  unfold consume
  rw [hx]
  dsimp only
  rw [if_neg hn]
  split
  · exact ite_keeps ((announceDue_keeps hp _ _ _).trans (told _ _ _ _)) (told _ _ _ _)
  · exact told _ _ _ _

/-! ## The indices of a window -/

theorem windowIndices_modWin_of_eq (s : State) (t k u j : Nat) (f : Window → Window)
    (hf : ∀ w, ((f w).wr, (f w).rd, (f w).occ) = (w.wr, w.rd, w.occ)) : windowIndices u j (s.modWin t k f) = windowIndices u j s := by
  by_cases h : u = t ∧ j = k
  · obtain ⟨rfl, rfl⟩ := h
    simp only [windowIndices, State.win_modWin_same, Option.map_map]
    exact congrArg (Option.map · _) (funext hf)
  · simp only [windowIndices, State.win_modWin_ne s f h]

theorem windowIndices_modWin_same {s : State} {t k : Nat} {x : Window} (f : Window → Window) (hx : s.win t k = some x) :
    windowIndices t k (s.modWin t k f) = some ((f x).wr, (f x).rd, (f x).occ) := by
  simp [windowIndices, State.win_modWin_same, hx]

theorem windowIndices_modTile (s : State) (t u k : Nat) (f : Tile → Tile) (hf : ∀ v, (f v).wins = v.wins) :
    windowIndices u k (s.modTile t f) = windowIndices u k s := by
  simp [windowIndices, State.win_modTile s t u k f hf]

theorem win_of_windowIndices {s : State} {t k wr rd occ : Nat} (h : windowIndices t k s = some (wr, rd, occ)) :
    ∃ w, s.win t k = some w ∧ w.wr = wr ∧ w.rd = rd ∧ w.occ = occ := by
  obtain ⟨w, hw, he⟩ := Option.map_eq_some_iff.mp h
  simp only [Prod.mk.injEq] at he
  exact ⟨w, hw, he⟩

theorem windowIndices_placeMark (s : State) (t k q : Nat) (l : Launch) (a : Nat) :
    windowIndices t k (placeMark s q l a) = windowIndices t k s :=
  placeMark_keeps (offRecords_windowIndices t k) (fun s u j _ => windowIndices_modWin_of_eq s u j t k _ fun _ => rfl) s q l a

theorem windowIndices_applyAdvance {s : State} {t k n i : Nat} {x : Window} (hx : s.win t k = some x) :
    windowIndices t k (applyAdvance s t k n i) = some (i, x.rd, x.occ + n) :=
  (logArrival_keeps (offRecords_windowIndices t k) _ _ _ _).trans (windowIndices_modWin_same _ hx)

theorem windowIndices_consume {s : State} {t k : Nat} {x : Window} (hx : s.win t k = some x) :
    windowIndices t k (consume s t k 1) = some (x.wr, (x.rd + 1) % x.cap, x.occ - 1) :=
  (consume_keeps (offRecords_windowIndices t k) (fun s u _ _ _ => windowIndices_modTile s u t k _ fun _ => rfl) hx Nat.one_ne_zero).trans
    (windowIndices_modWin_same _ hx)

end Sys2Proof.Machine
end

section
/-! PROOF. Memory actors, the eclipse and the change of rate set (R12 to R14, R316 to R318).

Each row of the table is first rewritten as the state it answers with, by an equation `exec_…`; the clauses of the statement are then readings of
that state. -/

namespace Sys2Proof.MemActors

open Sys2Proof.Machine

variable {β : Type} {p : State → β}

/-! ## Source actors (R12 to R14) -/

/-- The row has become a token of the window, and is not yet counted: `sourceToken` up to there. -/
def rowPlaced (s : State) (q u a : Nat) (w : Window) (fmt : Nat) (ds : List (Byte × Bool)) : State :=
  let slot := (s.prod u u (windowKey q a)).wr
  let s1 := writeRow s (memWho u q) [.all] [] [⟨spadBase u + w.slotOff slot, ds.length⟩] ds
  (applyAdvance (takeSlots s1 u u (windowKey q a) 1) u (windowKey q a) 1 ((w.wr + 1) % w.cap)).modWin u (windowKey q a) (fun w =>
    { w with tags := mapSet 0 w.tags slot (fmt + 1) })

/-- The row is counted, and behind the last one the source stops and marks its window. -/
theorem sourceToken_eq (s : State) (q x u a : Nat) (l : Launch) (w : Window) (rows fmt : Nat) (ds : List (Byte × Bool)) :
    sourceToken s q x u a l w rows fmt ds =
      let s3 := rowPlaced s q u a w fmt ds
      let n := (s3.actorSt q x).rows + 1
      let s4 := s3.modActor q x (fun k => { k with rows := n })
      if sourceLimit l rows ≤ n then placeMark (s4.modActor q x (fun k => { k with stopped := true })) q l a else s4 := by
  unfold sourceToken rowPlaced
  rfl

/-- A reading that no marker and no run state of an actor concerns is that of the state in which the row is placed. -/
theorem sourceToken_keeps (hm : ∀ s q l a, p (placeMark s q l a) = p s) (ha : ∀ s q x f, p (s.modActor q x f) = p s)
    (s : State) (q x u a : Nat) (l : Launch) (w : Window) (rows fmt : Nat) (ds : List (Byte × Bool)) :
    p (sourceToken s q x u a l w rows fmt ds) = p (rowPlaced s q u a w fmt ds) := by
  rw [sourceToken_eq]
  dsimp only
  split
  · rw [hm, ha, ha]
  · rw [ha]

theorem rowPlaced_keeps (hp : OffWindows p) (s : State) (q u a : Nat) (w : Window) (fmt : Nat) (ds : List (Byte × Bool)) :
    p (rowPlaced s q u a w fmt ds) = p (writeRow s (memWho u q) [.all] []
      [⟨spadBase u + w.slotOff (s.prod u u (windowKey q a)).wr, ds.length⟩] ds) :=
  (modWin_keeps hp _ _ _ _).trans ((applyAdvance_keeps hp _ _ _ _ _).trans (takeSlots_keeps hp _ _ _ _ _))

theorem windowIndices_rowPlaced {s : State} {q u a : Nat} {w : Window} (hw : s.win u (windowKey q a) = some w) (fmt : Nat)
    (ds : List (Byte × Bool)) :
    windowIndices u (windowKey q a) (rowPlaced s q u a w fmt ds) = some ((w.wr + 1) % w.cap, w.rd, w.occ + 1) := by
  have taken (s : State) : (takeSlots s u u (windowKey q a) 1).win u (windowKey q a) = s.win u (windowKey q a) := by
    unfold takeSlots
    split
    · rfl
    · exact State.win_modTile _ _ _ _ _ fun _ => rfl
  unfold rowPlaced
  dsimp only
  rw [windowIndices_modWin_of_eq _ _ _ _ _ _ (by intro _; rfl)]
  exact windowIndices_applyAdvance ((taken _).trans ((writeRow_keeps (offMemory_win u (windowKey q a)) _ _ _ _ _ _).trans hw))

theorem launch_rowPlaced (s : State) (q u a : Nat) (w : Window) (fmt : Nat) (ds : List (Byte × Bool)) :
    (rowPlaced s q u a w fmt ds).launch q = s.launch q :=
  (rowPlaced_keeps (offWindows_launch q) s q u a w fmt ds).trans (writeRow_keeps (offMemory_launch q) _ _ _ _ _ _)

theorem rows_sourceToken {s : State} {q : Nat} (hl : (s.launch q).isSome) (x u a : Nat) (l : Launch) (w : Window) (rows fmt : Nat)
    (ds : List (Byte × Bool)) : ((sourceToken s q x u a l w rows fmt ds).actorSt q x).rows = (s.actorSt q x).rows + 1 := by
  have placed : (rowPlaced s q u a w fmt ds).actorSt q x = s.actorSt q x :=
    (rowPlaced_keeps (offWindows_actorSt q x) s q u a w fmt ds).trans (writeRow_keeps (offMemory_actorSt q x) _ _ _ _ _ _)
  have stands : ((rowPlaced s q u a w fmt ds).launch q).isSome := by rw [launch_rowPlaced]; exact hl
  rw [sourceToken_eq]
  dsimp only
  rw [placed]
  split
  · rw [mark_keeps (offWindows_actorSt q x), State.actorSt_modActor _ _ _ _ (State.launch_modActor_isSome stands _ _),
      State.actorSt_modActor _ _ _ _ stands]
  · rw [State.actorSt_modActor _ _ _ _ stands]

/-- A memory actor writes by the tile-copy path, which no plain store of a core is ordered against (R14, R384). -/
theorem memWho_cls (u q : Nat) : (memWho u q).cls ≠ 0 := (by decide : kTCOPY ≠ 0)

/-- The bytes of the row stand at home in the slot that the producer's copy names (R13, R222). -/
theorem homeByte_sourceToken (s : State) (q x u a : Nat) (l : Launch) (w : Window) (rows fmt : Nat) (ds : List (Byte × Bool)) {j : Nat}
    (hj : j < ds.length) : (sourceToken s q x u a l w rows fmt ds).homeByte
      (spadBase u + w.slotOff (s.prod u u (windowKey q a)).wr + j) = (ds.getD j (0, false)).1 := by
  have off := offWindows_homeByte (spadBase u + w.slotOff (s.prod u u (windowKey q a)).wr + j)
  refine (sourceToken_keeps (mark_keeps off) (fun _ _ _ _ => rfl) s q x u a l w rows fmt ds).trans ?_
  refine (rowPlaced_keeps off s q u a w fmt ds).trans ?_
  simp only [writeRow, List.take_length]
  rw [homeByte_writeRuns _ _ (memWho_cls u q) _ _ _ (Nat.le_refl _), if_pos (by omega), Nat.add_sub_cancel_left]

theorem windowIndices_sourceToken {s : State} {q u a : Nat} {w : Window} (hw : s.win u (windowKey q a) = some w) (x : Nat) (l : Launch)
    (rows fmt : Nat) (ds : List (Byte × Bool)) :
    windowIndices u (windowKey q a) (sourceToken s q x u a l w rows fmt ds) = some ((w.wr + 1) % w.cap, w.rd, w.occ + 1) :=
  (sourceToken_keeps (windowIndices_placeMark · u (windowKey q a)) (fun _ _ _ _ => rfl) s q x u a l w rows fmt ds).trans
    (windowIndices_rowPlaced hw fmt ds)

/-- What a memory actor needs to fire stands in the tables. -/
theorem memCtx_eq_some {s : State} {q x kind : Nat} {c : MemCtx} (h : memCtx s q x kind = some c) :
    s.launch q = some c.l ∧ s.win c.u (windowKey q c.a) = some c.w := by
  unfold memCtx at h
  split at h
  case h_2 => exact absurd h (by simp)
  case h_1 l g hl _ =>
    dsimp only at h
    split at h
    · exact absurd h (by simp)
    · simp only [Option.bind_eq_some_iff] at h
      obtain ⟨a, -, u, -, w, hw, b, -, h⟩ := h
      split at h
      · cases h
        exact ⟨hl, hw⟩
      · exact absurd h (by simp)

/-- The state in which a row is moved: the actor's kept slot is its own again, and the entries that its runs used are in the caches. -/
def rowReached (s : State) (q x u : Nat) (runs : List (Nat × Nat × XOut)) : State :=
  runs.foldl (fun s r => s.cache r.2.2) (dropMemHeld s q x u)

theorem rowReached_keeps (hc : ∀ s o, p (State.cache s o) = p s) (ht : ∀ s u f, (∀ v, (f v).wins = v.wins ∧ (f v).prods = v.prods) →
    p (State.modTile s u f) = p s) (s : State) (q x u : Nat) (runs : List (Nat × Nat × XOut)) : p (rowReached s q x u runs) = p s :=
  (foldl_keeps (fun s _ => hc s _) _ _).trans (ht s u _ fun _ => ⟨rfl, rfl⟩)

theorem win_rowReached (s : State) (q x u t k : Nat) (runs : List (Nat × Nat × XOut)) : (rowReached s q x u runs).win t k = s.win t k :=
  rowReached_keeps (p := fun s => s.win t k) (fun _ _ => rfl) (fun s u f hf => State.win_modTile s u t k f fun v => (hf v).1) s q x u runs

theorem prod_rowReached (s : State) (q x u t v k : Nat) (runs : List (Nat × Nat × XOut)) :
    (rowReached s q x u runs).prod t v k = s.prod t v k :=
  rowReached_keeps (p := fun s => s.prod t v k) (fun _ _ => rfl) (fun s u f hf => State.prod_modTile s u t v k f fun v => (hf v).2) s q x u runs

theorem launch_rowReached (s : State) (q x u r : Nat) (runs : List (Nat × Nat × XOut)) : (rowReached s q x u runs).launch r = s.launch r :=
  rowReached_keeps (p := fun s => s.launch r) (fun _ _ => rfl) (fun _ _ _ _ => rfl) s q x u runs

theorem mem_rowReached (s : State) (q x u : Nat) (runs : List (Nat × Nat × XOut)) : (rowReached s q x u runs).mem = s.mem :=
  rowReached_keeps (fun _ _ => rfl) (fun _ _ _ _ => rfl) s q x u runs

theorem actorSt_rowReached (s : State) (q x u r y : Nat) (runs : List (Nat × Nat × XOut)) :
    (rowReached s q x u runs).actorSt r y = s.actorSt r y := by
  rw [State.actorSt, State.actorSt, launch_rowReached]

/-- A row that cannot be reached for `NOTPRESENT` holds the actor, whose window and rows stay as they are (R14, R231). -/
theorem memStop_notpresent {s : State} {q : Nat} (hl : (s.launch q).isSome) (x u a : Nat) (g : Graph) {tr : Trap} (htr : tr.cause = cNOTPRESENT)
    (t k : Nat) : (memStop s q x u a g tr).actorSt q x = { s.actorSt q x with held := some tr.hold } ∧
      (memStop s q x u a g tr).win t k = s.win t k ∧ (memStop s q x u a g tr).mem = s.mem := by
  unfold memStop
  rw [if_pos htr]
  dsimp only
  refine ⟨?_, ?_, rfl⟩
  · rw [(offWindows_actorSt q x).die, (offWindows_actorSt q x).tile _ _ _ (by intro _; rfl), State.actorSt_modActor _ _ _ _ hl]
  · rw [(offRecords_win t k).die, State.win_modTile _ _ _ _ _ (by intro _; rfl)]
    rfl

section Sources

variable {s : State} {q x : Nat} {c : MemCtx} {d : TDesc} (hc : memCtx s q x 1 = some c) (hd : descOf s c.l.ctx c.b.tensor = some d)
  (hrow : (s.actorSt q x).rows < viewRows c.b d.rank) (hfree : 1 ≤ freeCount c.w (s.prod c.u c.u (windowKey q c.a)))
  {runs : List (Nat × Nat × XOut)}
include hc hd hrow hfree

/-- A source that can fire, with a row left and a slot free: its row is moved, or its firing is stopped (R12 to R14). -/
theorem exec_hbmsrcFiring {tr : Option Trap}
    (hp : planRuns s c.l.ctx c.b.tensor .read (runsOf d.z (rowOffsets c.b d (s.actorSt q x).rows)) = (runs, tr)) :
    exec (.hbmsrcFiring q x) s = .next (tr.elim
      (sourceToken (rowReached s q x c.u runs) q x c.u c.a c.l c.w (viewRows c.b d.rank) d.fmt
        (runs.map (fun r => rowData s (.tile c.u 4) ⟨partsOf r.2.2, [], none, r.2.1⟩)).flatten)
      (memStop (rowReached s q x c.u runs) q x c.u c.a c.g)) := by
  change execHbmsrcFiring q x s = _
  have can : ¬(viewRows c.b d.rank ≤ (s.actorSt q x).rows ∨ freeCount c.w (s.prod c.u c.u (windowKey q c.a)) < 1) := by omega
  unfold execHbmsrcFiring
  simp only [hc, hd, if_neg can, hp]
  cases tr <;> rfl

/-- A source that can fire puts its row in the next slot of its window and counts it. -/
theorem hbmsrcFiring_places_row
    (hp : planRuns s c.l.ctx c.b.tensor .read (runsOf d.z (rowOffsets c.b d (s.actorSt q x).rows)) = (runs, none))
    {ds : List (Byte × Bool)} (hds : ds = (runs.map (fun r => rowData s (.tile c.u 4) ⟨partsOf r.2.2, [], none, r.2.1⟩)).flatten) :
    ∃ (u : State) (w : Window), exec (.hbmsrcFiring q x) s = .next u ∧ u.win c.u (windowKey q c.a) = some w ∧ w.occ = c.w.occ + 1 ∧
      w.wr = (c.w.wr + 1) % c.w.cap ∧ w.rd = c.w.rd ∧ (u.actorSt q x).rows = (s.actorSt q x).rows + 1 ∧
      ∀ j, j < ds.length → u.homeByte (spadBase c.u + c.w.slotOff (s.prod c.u c.u (windowKey q c.a)).wr + j) = (ds.getD j (0, false)).1 := by
  subst hds
  obtain ⟨hl, hw⟩ := memCtx_eq_some hc
  have hw' := (win_rowReached s q x c.u c.u (windowKey q c.a) runs).trans hw
  obtain ⟨w, hwin, hwr, hrd, hocc⟩ := win_of_windowIndices (windowIndices_sourceToken hw' x c.l (viewRows c.b d.rank) d.fmt
    (runs.map (fun r => rowData s (.tile c.u 4) ⟨partsOf r.2.2, [], none, r.2.1⟩)).flatten)
  refine ⟨_, w, exec_hbmsrcFiring hc hd hrow hfree hp, hwin, hocc, hwr, hrd, ?_, fun j hj => ?_⟩
  · rw [Option.elim_none, rows_sourceToken (by rw [launch_rowReached, hl]; rfl), actorSt_rowReached]
  · rw [Option.elim_none, ← prod_rowReached s q x c.u c.u c.u (windowKey q c.a) runs]
    exact homeByte_sourceToken _ _ _ _ _ _ _ _ _ _ hj

/-- A source whose row cannot be reached for `NOTPRESENT` is held, and has moved nothing. -/
theorem hbmsrcFiring_held {tr : Trap}
    (hp : planRuns s c.l.ctx c.b.tensor .read (runsOf d.z (rowOffsets c.b d (s.actorSt q x).rows)) = (runs, some tr))
    (htr : tr.cause = cNOTPRESENT) :
    ∃ u : State, exec (.hbmsrcFiring q x) s = .next u ∧ (u.actorSt q x).held.isSome = true ∧ (u.actorSt q x).rows = (s.actorSt q x).rows ∧
      u.win c.u (windowKey q c.a) = some c.w ∧ u.mem = s.mem := by
  obtain ⟨hl, hw⟩ := memCtx_eq_some hc
  obtain ⟨hst, hwin, hmem⟩ := memStop_notpresent (s := rowReached s q x c.u runs) (by rw [launch_rowReached, hl]; rfl) x c.u c.a c.g htr
    c.u (windowKey q c.a)
  refine ⟨_, exec_hbmsrcFiring hc hd hrow hfree hp, ?_⟩
  rw [Option.elim_some, hst, hwin, hmem, actorSt_rowReached, win_rowReached, mem_rowReached]
  exact ⟨rfl, rfl, hw, rfl⟩

end Sources

/-! ## Sink actors (R12 to R14, R440) -/

theorem writeSink_keeps (hm : OffMemory p) (hr : OffRecords p) (hc : ∀ s o, p (State.cache s o) = p s)
    (hd : ∀ s t k x, p (State.addDigest s t k x) = p s) (q u a ctx : Nat) (l : Launch) (g : Graph) (id : Nat)
    (runs : List (Nat × Nat × XOut)) (ds : List (Byte × Bool)) (s : State) : p (writeSink q u a ctx l g id s runs ds) = p s := by
  induction runs generalizing s ds with
  | nil => rfl
  | cons r runs ih =>
    simp only [writeSink]
    rw [ih, foldRow_keeps hr hd, hc, writeRow_keeps hm]

theorem win_writeSink (q u a ctx : Nat) (l : Launch) (g : Graph) (id : Nat) (runs : List (Nat × Nat × XOut)) (ds : List (Byte × Bool))
    (s : State) (t k : Nat) : (writeSink q u a ctx l g id s runs ds).win t k = s.win t k :=
  writeSink_keeps (offMemory_win t k) (offRecords_win t k) (fun _ _ => rfl) (fun s v _ _ => State.win_modTile s v t k _ fun _ => rfl)
    q u a ctx l g id runs ds s

theorem launch_writeSink (q u a ctx : Nat) (l : Launch) (g : Graph) (id : Nat) (runs : List (Nat × Nat × XOut)) (ds : List (Byte × Bool))
    (s : State) (r : Nat) : (writeSink q u a ctx l g id s runs ds).launch r = s.launch r :=
  writeSink_keeps (offMemory_launch r) (offWindows_launch r).toOffRecords (fun _ _ => rfl) (fun _ _ _ _ => rfl) q u a ctx l g id runs ds s

/-- A row of one run in one part stands at home (R13). -/
theorem homeByte_writeSink (q u a ctx : Nat) (l : Launch) (g : Graph) (id off : Nat) {o : XOut} {z : Part} (ho : partsOf o = [z])
    (ds : List (Byte × Bool)) (hz : z.len = ds.length) (s : State) {j : Nat} (hj : j < ds.length) :
    (writeSink q u a ctx l g id s [(off, ds.length, o)] ds).homeByte (z.addr + j) = (ds.getD j (0, false)).1 := by
  have off := offWindows_homeByte (z.addr + j)
  simp only [writeSink, List.take_length]
  refine (foldRow_keeps off.toOffRecords (fun _ _ _ _ => rfl) _ _ _ _ _ _ _ _).trans ?_
  change (writeRow s (memWho u q) [] [] (partsOf o) ds).homeByte (z.addr + j) = _
  simp only [ho, writeRow, hz, List.take_length]
  rw [homeByte_writeRuns _ _ (memWho_cls u q) _ _ _ (Nat.le_refl _), if_pos (by omega), Nat.add_sub_cancel_left]

/-- One part as an observer reads it. -/
theorem rowData_single (s : State) (o : Obs) (a n : Nat) : rowData s o ⟨[⟨a, n⟩], [], none, n⟩ = s.dataAt o a n := by simp [rowData]

theorem dataAt_length (s : State) (o : Obs) (a n : Nat) : (s.dataAt o a n).length = n := by simp [State.dataAt]

theorem dataAt_getD (s : State) (o : Obs) (a n : Nat) {j : Nat} (hj : j < n) : ((s.dataAt o a n).getD j (0, false)).1 = s.byteAt o (a + j) := by
  simp [State.dataAt, List.getD_eq_getElem?_getD, hj]

section Sinks

variable {s : State} {q x : Nat} {c : MemCtx} {d : TDesc} (hc : memCtx s q x 2 = some c) (hd : descOf s c.l.ctx c.b.tensor = some d)
  (hrow : (s.actorSt q x).rows < viewRows c.b d.rank) (hocc : 0 < c.w.occ)
include hc hd hrow hocc

/-- A sink with a token, a row left that it can reach: the token is written, consumed and the row counted. -/
theorem exec_hbmsinkFiring {runs : List (Nat × Nat × XOut)}
    (hp : planRuns s c.l.ctx c.b.tensor .write (runsOf d.z (rowOffsets c.b d (s.actorSt q x).rows)) = (runs, none)) :
    exec (.hbmsinkFiring q x) s = .next ((consume (writeSink q c.u c.a c.l.ctx c.l c.g c.b.tensor (rowReached s q x c.u []) runs
      (s.dataAt (.tile c.u 4) (spadBase c.u + c.w.slotOff c.w.rd) c.w.tok)) c.u (windowKey q c.a) 1).modActor q x
        (fun k => { k with rows := k.rows + 1 })) := by
  change execHbmsinkFiring q x s = _
  have can : ¬(viewRows c.b d.rank ≤ (s.actorSt q x).rows ∨ c.w.occ = 0) := by omega
  unfold execHbmsinkFiring
  simp only [hc, hd, if_neg can, hp, rowData_single]
  rfl

theorem hbmsinkFiring_writes_row {off : Nat} {o : XOut} {z : Part}
    (hp : planRuns s c.l.ctx c.b.tensor .write (runsOf d.z (rowOffsets c.b d (s.actorSt q x).rows)) = ([(off, c.w.tok, o)], none))
    (ho : partsOf o = [z]) (hz : z.len = c.w.tok) :
    ∃ (u : State) (w : Window), exec (.hbmsinkFiring q x) s = .next u ∧ u.win c.u (windowKey q c.a) = some w ∧ w.occ = c.w.occ - 1 ∧
      w.rd = (c.w.rd + 1) % c.w.cap ∧ (u.actorSt q x).rows = (s.actorSt q x).rows + 1 ∧
      (∀ j, j < c.w.tok → u.homeByte (z.addr + j) = s.byteAt (.tile c.u 4) (spadBase c.u + c.w.slotOff c.w.rd + j)) := by
  obtain ⟨hl, hw⟩ := memCtx_eq_some hc
  have hlen := dataAt_length s (.tile c.u 4) (spadBase c.u + c.w.slotOff c.w.rd) c.w.tok
  have hx := (win_writeSink q c.u c.a c.l.ctx c.l c.g c.b.tensor [(off, c.w.tok, o)]
    (s.dataAt (.tile c.u 4) (spadBase c.u + c.w.slotOff c.w.rd) c.w.tok) (rowReached s q x c.u []) c.u (windowKey q c.a)).trans
      ((win_rowReached _ _ _ _ _ _ _).trans hw)
  have consumed {β : Type} {p : State → β} (hp : OffWindows p) := (consume_keeps hp.toOffRecords
    (fun s t u k f => modProd_keeps hp s t u k f) hx Nat.one_ne_zero).trans (modWin_keeps hp _ _ _ _)
  have hl' := (consumed (offWindows_launch q)).trans ((launch_writeSink _ _ _ _ _ _ _ _ _ _ _).trans ((launch_rowReached _ _ _ _ _ _).trans hl))
  obtain ⟨w, hwin, -, hrd, hocc'⟩ := win_of_windowIndices (windowIndices_consume hx)
  refine ⟨_, w, exec_hbmsinkFiring hc hd hrow hocc hp, hwin, hocc', hrd, ?_, fun j hj => ?_⟩
  · rw [State.actorSt_modActor _ _ _ _ (by rw [hl']; rfl), State.actorSt, State.actorSt, hl', hl]
  · refine (consumed (offWindows_homeByte (z.addr + j))).trans ?_
    rw [← dataAt_getD s _ _ _ hj]
    have hrow := homeByte_writeSink q c.u c.a c.l.ctx c.l c.g c.b.tensor off ho
      (s.dataAt (.tile c.u 4) (spadBase c.u + c.w.slotOff c.w.rd) c.w.tok) (hz.trans hlen.symm) (rowReached s q x c.u []) (hlen.symm ▸ hj)
    rwa [hlen] at hrow

end Sinks

/-! ## The eclipse (R316, R318) -/

/-- The actor stops and marks its outputs. -/
def eclipseStop (s : State) (q x : Nat) (l : Launch) (g : Graph) : State :=
  (g.outArcs x).foldl (fun s a => placeMark s q l a) (s.modActor q x (fun k => { k with stopped := true }))

theorem eclipseStop_keeps (hp : OffWindows p) (s : State) (q x : Nat) (l : Launch) (g : Graph) :
    p (eclipseStop s q x l g) = p (s.modActor q x (fun k => { k with stopped := true })) :=
  foldl_keeps (fun s a => mark_keeps hp s q l a) _ _

theorem stopped_eclipseStop {s : State} {q : Nat} (hl : (s.launch q).isSome) (x : Nat) (l : Launch) (g : Graph) :
    ((eclipseStop s q x l g).actorSt q x).stopped = true := by
  rw [eclipseStop_keeps (offWindows_actorSt q x), State.actorSt_modActor _ _ _ _ hl]

theorem mem_eclipseStop (s : State) (q x : Nat) (l : Launch) (g : Graph) : (eclipseStop s q x l g).mem = s.mem :=
  eclipseStop_keeps offWindows_mem s q x l g

/-- The record of a task that has ended (R406). -/
def endedTask (k : Task) : Task := { k with stat := .ended, firing := none, saved := none, frame := none, lent := false }

/-- The end of a task: its record is cleared and its digest kept; the windows, groups and events that it leaves concern no such reading (R406). -/
theorem endTask_keeps (hp : OffWindows p) (hg : ∀ s q i, p (endInGroups s q i) = p s) {s : State} {t slot : Nat} {k : Task}
    (hk : s.task t slot = some k) : p (endTask s t slot) = p (((closeOwn s t slot).modLext k.launch (fun e =>
      { e with finals := mapInsert e.finals k.lidx (s.ext t slot).digest })).modTask t slot endedTask) := by
  have cleared (s : State) : p (if (s.tile t).resident = some slot then s.modTile t clearTile else s) = p s :=
    ite_keeps (hp.tile s t clearTile fun _ => rfl) rfl
  have told (s : State) (f : Tile → Tile) (hf : ∀ v, (f v).tasks = v.tasks) : p ((endInGroups s k.launch k.lidx).modTile t f) = p s :=
    (hp.tile _ t f hf).trans (hg s _ _)
  unfold endTask
  rw [hk]
  dsimp only
  rw [cleared, told _ _ (by intro _; rfl)]
  split
  · exact ite_keeps rfl (closeBound_keeps hp _ _ _ _ _)
  · rfl

theorem mem_endTask {s : State} {t slot : Nat} {k : Task} (hk : s.task t slot = some k) : (endTask s t slot).mem = s.mem :=
  (endTask_keeps offWindows_mem (fun _ _ _ => rfl) hk).trans (closeOwn_keeps offWindows_mem s t slot)

theorem actorSt_endTask {s : State} {t slot : Nat} {k : Task} (hk : s.task t slot = some k) (q x : Nat) :
    (endTask s t slot).actorSt q x = s.actorSt q x :=
  (endTask_keeps (offWindows_actorSt q x) (fun _ _ _ => rfl) hk).trans (closeOwn_keeps (offWindows_actorSt q x) s t slot)

theorem task_endTask {s : State} {t slot : Nat} {k : Task} (hk : s.task t slot = some k) : (endTask s t slot).task t slot = some (endedTask k) := by
  refine (endTask_keeps (offWindows_task t slot) (fun _ _ _ => rfl) hk).trans ?_
  rw [State.task_modTask_same]
  change ((closeOwn s t slot).task t slot).map endedTask = _
  rw [closeOwn_keeps (offWindows_task t slot), hk]
  rfl

/-- The eclipse of a compute actor comes where its task is bound. -/
theorem task_of_canEclipse {s : State} {q x t slot : Nat} {l : Launch} {g : Graph} (h : canEclipse s q x l g = some (some (t, slot))) :
    ∃ k, s.task t slot = some k := by
  unfold canEclipse at h
  dsimp only at h
  split at h
  · exact absurd h (by simp)
  split at h
  · split at h
    · exact absurd h (by simp)
    split at h
    · exact absurd h (by simp)
    next k hk =>
      obtain ⟨-, he⟩ := Option.ite_none_right_eq_some.mp h
      cases he
      exact ⟨k, hk⟩
  · split at h
    · split at h
      · split at h <;> exact absurd h (by simp)
      · exact absurd h (by simp)
    · exact absurd h (by simp)

theorem eclipseReceipt_stops_sink {s : State} {q x : Nat} {l : Launch} {g : Graph} (hl : s.launch q = some l) (hg : s.graph q = some g)
    (hc : canEclipse s q x l g = some none) :
    ∃ u : State, exec (.eclipseReceipt q x) s = .next u ∧ (u.actorSt q x).stopped = true ∧ u.mem = s.mem := by
  have stops := stopped_eclipseStop (s := s) (q := q) (by rw [hl]; rfl) x l g
  have run : exec (.eclipseReceipt q x) s = .next (if l.modeReq = none then closeBound (eclipseStop s q x l g) q l g x
      else eclipseStop s q x l g) := by
    change execEclipseReceipt q x s = _
    unfold execEclipseReceipt
    simp only [hl, hg, hc]
    cases l.modeReq <;> rfl
  refine ⟨_, run, ?_, ?_⟩
  · split
    · rw [closeBound_keeps (offWindows_actorSt q x), stops]
    · exact stops
  · exact ite_keeps ((closeBound_keeps offWindows_mem _ _ _ _ _).trans (mem_eclipseStop s q x l g)) (mem_eclipseStop s q x l g)

theorem eclipseReceipt_ends_task {s : State} {q x t slot : Nat} {l : Launch} {g : Graph} (hl : s.launch q = some l) (hg : s.graph q = some g)
    (hc : canEclipse s q x l g = some (some (t, slot))) (hm : l.modeReq = none) (hi : (s.ext t slot).implicit = none) :
    ∃ (u : State) (k : Task), exec (.eclipseReceipt q x) s = .next u ∧ (u.actorSt q x).stopped = true ∧ u.task t slot = some k ∧
      k.stat = .ended ∧ u.mem = s.mem := by
  obtain ⟨k, hk⟩ := task_of_canEclipse hc
  have hk' : (eclipseStop s q x l g).task t slot = some k := (eclipseStop_keeps (offWindows_task t slot) s q x l g).trans hk
  have committed : commitStep s t slot false = (s, true) := by
    unfold commitStep
    simp only [TaskExt.section', Bool.false_eq_true, if_false, hi]
  have run : exec (.eclipseReceipt q x) s = .next (endTask (eclipseStop s q x l g) t slot) := by
    change execEclipseReceipt q x s = _
    unfold execEclipseReceipt
    simp only [hl, hg, hc, hm, committed, if_true]
    rfl
  refine ⟨_, endedTask k, run, ?_, task_endTask hk', rfl, (mem_endTask hk').trans (mem_eclipseStop s q x l g)⟩
  rw [actorSt_endTask hk', stopped_eclipseStop (by rw [hl]; rfl)]

/-! ## The change of rate set (R317, R318, R322) -/

theorem runState_modActor (q r x : Nat) (f : ActorSt → ActorSt) (s : State) : runState q (s.modActor r x f) = runState q s := by
  have same : ((s.modActor r x f).launch q).map (fun l => (l.mode, l.stat)) = (s.launch q).map (fun l => (l.mode, l.stat)) := by
    by_cases h : q = r
    · subst h
      rw [State.modActor, State.launch_modLaunch_same, Option.map_map]
      rfl
    · rw [State.modActor, State.launch_modLaunch_ne s _ h]
  exact congrArg (·, _) same

theorem runState_modLaunch_same (q : Nat) (f : Launch → Launch) (s : State) :
    runState q (s.modLaunch q f) = ((s.launch q).map (fun l => ((f l).mode, (f l).stat)), (s.lext q).reqsDone) := by
  rw [runState, State.launch_modLaunch_same, Option.map_map]
  rfl

theorem launch_of_runState {q mode n : Nat} {stat : LaunchStat} {s : State} (h : runState q s = (some (mode, stat), n)) :
    ∃ l, s.launch q = some l ∧ l.mode = mode ∧ l.stat = stat ∧ (s.lext q).reqsDone = n := by
  obtain ⟨hl, hn⟩ := Prod.ext_iff.mp h
  obtain ⟨l, hs, he⟩ := Option.map_eq_some_iff.mp hl
  obtain ⟨hmode, hstat⟩ := Prod.ext_iff.mp he
  exact ⟨l, hs, hmode, hstat, hn⟩

theorem resumeActor_keeps (hp : OffWindows p) (ha : ∀ s q x f, p (State.modActor s q x f) = p s)
    (ht : ∀ s t k f, p (State.modTask s t k f) = p s) (s : State) (q : Nat) (l : Launch) (g : Graph) (x : Nat) :
    p (resumeActor s q l g x) = p s := by
  unfold resumeActor
  dsimp only
  refine ite_keeps rfl (ite_keeps ?_ (ite_keeps ?_ (ha _ _ _ _)))
  · split
    · exact (ht _ _ _ _).trans (ha _ _ _ _)
    · rfl
  · split
    · exact mark_keeps hp _ _ _ _
    · rfl

theorem markReady_keeps (ht : ∀ s t k f n, p { State.modTask s t k f with stamp := n } = p s) (s : State) (t : Nat) : p (markReady s t) = p s := by
  refine foldl_keeps (fun s k => ?_) _ s
  split
  · exact ite_keeps (ht _ _ _ _ _) rfl
  · rfl

theorem runState_complete (q addr : Nat) (c : Completion) (s : State) : runState q (complete s addr c) = runState q s := by
  unfold complete
  dsimp only
  refine ite_keeps rfl ?_
  split
  · exact addWrite_keeps (offMemory_runState q) _ _ _
  · rfl

/-- The completion bit of an entry stands once it has been completed (R444). -/
theorem isComplete_complete (addr : Nat) (c : Completion) (s : State) : (complete s addr c).isComplete c.seq = true := by
  have set (s : State) : (s.modPkg (fun p =>
      { p with completed := mapSet false p.completed c.seq true, completed2 := mapSet false p.completed2 c.seq true })).isComplete c.seq = true := by
    simp [State.isComplete]
  unfold complete
  dsimp only
  split
  · assumption
  split
  · exact (addWrite_keeps (offMemory_isComplete c.seq) _ _ _).trans (set s.draw.2)
  · exact set s.draw.2

/-- The launch has the requested rate set in force and one request more behind it; nothing has resumed yet. -/
def rateSetTaken (s : State) (q : Nat) (l : Launch) (m : ModeReq) : State :=
  ((clearMarks s q l).modLext q (fun e =>
    { e with quiet := (launchPkgs s q).foldl (fun r p => r.erase p) e.quiet, reqsDone := e.reqsDone + 1 })).modLaunch q
      (fun l => { l with mode := m.newMode, modeReq := (s.lext q).reqs[(s.lext q).reqsDone + 1]? })

/-- The actors of the launch have resumed under the new rate set, and the request's record is written. -/
def rateSetResumed (s : State) (q : Nat) (l : Launch) (g : Graph) (m : ModeReq) : State :=
  let l1 := { l with mode := m.newMode, modeReq := (s.lext q).reqs[(s.lext q).reqsDone + 1]? }
  complete ((List.range g.actors.length).foldl (fun s x => resumeActor s q l1 g x) (rateSetTaken s q l m)) m.record.toNat
    ⟨0, 0, 0, 2, 0, m.seq, none, 0⟩

theorem runState_rateSetTaken {s : State} {q : Nat} {l : Launch} (hl : s.launch q = some l) (hr : l.stat = .running) (m : ModeReq) :
    runState q (rateSetTaken s q l m) = (some (m.newMode, .running), (s.lext q).reqsDone + 1) := by
  have cleared : (clearMarks s q l).launch q = some l := (clearMarks_keeps (offWindows_launch q) s q l).trans hl
  have count : ((clearMarks s q l).lext q).reqsDone = (s.lext q).reqsDone := congrArg Prod.snd (clearMarks_keeps (offWindows_runState q) s q l)
  unfold rateSetTaken
  rw [runState_modLaunch_same, State.lext_modLext_same]
  change (((clearMarks s q l).launch q).map _, ((clearMarks s q l).lext q).reqsDone + 1) = _
  rw [cleared, count, ← hr]
  rfl

theorem runState_rateSetResumed {s : State} {q : Nat} {l : Launch} (hl : s.launch q = some l) (hr : l.stat = .running) (g : Graph)
    (m : ModeReq) : runState q (rateSetResumed s q l g m) = (some (m.newMode, .running), (s.lext q).reqsDone + 1) := by
  have resumed (s : State) (l : Launch) (x : Nat) : runState q (resumeActor s q l g x) = runState q s :=
    resumeActor_keeps (offWindows_runState q) (fun s r x f => runState_modActor q r x f s) (fun _ _ _ _ => rfl) s q l g x
  unfold rateSetResumed
  rw [runState_complete, foldl_keeps (p := runState q) (fun s x => resumed s _ x), runState_rateSetTaken hl hr]

/-- What follows the resumption: markers that have come take their places, and tasks whose firing is enabled become READY. -/
theorem resumption_keeps (hp : OffWindows p) (ht : ∀ s t k f n, p { State.modTask s t k f with stamp := n } = p s)
    (ps : List (Nat × Nat)) (q : Nat) (s : State) : p (ps.foldl (fun s e => markReady s e.2) (settleMarks s q)) = p s :=
  (foldl_keeps (fun s (e : Nat × Nat) => markReady_keeps ht s e.2) ps (settleMarks s q)).trans (settleMarks_keeps hp s q)

section Switch

variable {s : State} {q : Nat} {l : Launch} {g : Graph} (hl : s.launch q = some l) (hg : s.graph q = some g) (hr : l.stat = .running)
include hl hg hr

theorem exec_rateSetSwitch {m : ModeReq} (hq : s.pkg.num ∈ (s.lext q).quiet) (ha : allQuiet s q = true) (hs : partsSettled s q = true)
    (hm : l.modeReq = some m) :
    exec (.rateSetSwitch q) s = .next (l.place.foldl (fun s p => markReady s p.2) (settleMarks (rateSetResumed s q l g m) q)) := by
  change execRateSetSwitch q s = _
  unfold execRateSetSwitch rateSetResumed rateSetTaken
  have running : (l.stat != .running) = false := by rw [hr]; rfl
  simp only [hl, hg, running, hm, ha, hs, List.contains_iff_mem.mpr hq, Bool.not_true, Bool.and_self, Bool.false_eq_true, if_false]

/-- When every package is quiescent the launch runs on in the requested rate set, and the request is done. -/
theorem rateSetSwitch_switches {m : ModeReq} (hq : s.pkg.num ∈ (s.lext q).quiet) (ha : allQuiet s q = true)
    (hs : partsSettled s q = true) (hm : l.modeReq = some m) :
    ∃ (u : State) (l' : Launch), exec (.rateSetSwitch q) s = .next u ∧ u.launch q = some l' ∧ l'.mode = m.newMode ∧ l'.stat = .running ∧
      (u.lext q).reqsDone = (s.lext q).reqsDone + 1 ∧ u.isComplete m.seq = true := by
  obtain ⟨l', hl', hmode, hstat, hcount⟩ :=
    launch_of_runState ((resumption_keeps (offWindows_runState q) (fun _ _ _ _ _ => rfl) l.place q _).trans (runState_rateSetResumed hl hr g m))
  exact ⟨_, l', exec_rateSetSwitch hl hg hr hq ha hs hm, hl', hmode, hstat, hcount,
    (resumption_keeps (offWindows_isComplete m.seq) (fun _ _ _ _ _ => rfl) l.place q _).trans (isComplete_complete _ _ _)⟩

/-- A package that has become quiescent reports it once. -/
theorem rateSetSwitch_reports (hq : s.pkg.num ∉ (s.lext q).quiet) (hs : locallyQuiet s q l g = true) :
    ∃ u : State, exec (.rateSetSwitch q) s = .next u ∧ (u.lext q).quiet = (s.lext q).quiet ++ [s.pkg.num] ∧ u.mem = s.mem := by
  have run : exec (.rateSetSwitch q) s = .next ((s.modLext q (fun e => { e with quiet := e.quiet ++ [s.pkg.num] })).sendControl q 2 0) := by
    change execRateSetSwitch q s = _
    unfold execRateSetSwitch
    simp only [hl, hg, hr, hs, bne_self_eq_false, Bool.false_eq_true, if_false, if_true, List.contains_eq_mem, hq, decide_false, Bool.not_false]
  refine ⟨_, run, ?_, sendControl_keeps (p := State.mem) (fun _ _ => rfl) _ _ _ _⟩
  rw [sendControl_keeps (p := fun s => (s.lext q).quiet) (fun _ _ => rfl), State.lext_modLext_same]

end Switch

/-- Settles O52: each clause is one row of the table for a memory actor or the launch it belongs to. -/
theorem memoryActors : Obligations.MemoryActors := by
  unfold Obligations.MemoryActors
  refine ⟨?_, ?_, ?_, ?_, ?_, ?_⟩
  · intro s q x c d runs ds hc hd hrow hfree hp hds
    exact hbmsrcFiring_places_row hc hd hrow hfree hp hds
  · intro s q x c d runs tr hc hd hrow hfree hp htr
    exact hbmsrcFiring_held hc hd hrow hfree hp htr
  · intro s q x off c d o z ds hc hd hrow hocc _ hp ho hz
    exact hbmsinkFiring_writes_row hc hd hrow hocc hp ho hz
  · intro s q x l g hl hg
    exact ⟨eclipseReceipt_stops_sink hl hg, fun t slot hc hm hi => eclipseReceipt_ends_task hl hg hc hm hi⟩
  · intro s q l g m hl hg hr hq ha hs hm
    exact rateSetSwitch_switches hl hg hr hq ha hs hm
  · intro s q l g hl hg hr hq hs
    exact rateSetSwitch_reports hl hg hr hq hs

end Sys2Proof.MemActors
end

section
/-! REFUTATION. What a `READY` leaves of a held tile copy (R61, R63).

A held core or port of the task on its tile is let go at once. A held copy is not: whoever its task is, `wakeTile` keeps its access and marks it
ready, and the copy unit tries it again when it next completes (`copyComplete`). The statement has the access of a copy of the task on its tile
let go with the others. -/

namespace Sys2Proof.ReadyCopies

open Sys2Proof.Machine

/-- A held access that the command covers is kept, and marked ready, where its task counts as away. -/
theorem wake_away {c : InvCmd} {h : Held} (hw : c.wakes (some h) = true) : c.wake false (some h) = some { h with ready := true } := by
  simp [InvCmd.wake, hw]

/-- A held access that the command covers is let go where its task counts as on its tile. -/
theorem wake_here {c : InvCmd} {h : Held} (hw : c.wakes (some h) = true) : c.wake true (some h) = none := by
  simp [InvCmd.wake, hw]

theorem copies_unhold (v : Tile) : v.unhold.copies = v.copies := by
  unfold Tile.unhold
  split
  · split <;> rfl
  · rfl

/-- Every copy of a tile is woken as one whose task is away. -/
theorem copies_wakeTile (c : InvCmd) (stamp : Nat) (v : Tile) :
    (wakeTile c stamp v).copies = v.copies.map (fun y => { y with held := c.wake false y.held }) :=
  copies_unhold _

/-- A `READY` treats the copies of a tile alike, whichever task is resident there. -/
theorem copies_wakeAll (s : State) (c : InvCmd) (t : Nat) :
    ((wakeAll s c).tile t).copies = (s.tile t).copies.map (fun y => { y with held := c.wake false y.held }) := by
  change (mapGet Tile.reset (s.tiles.map (fun v => (v.1, wakeTile c s.stamp v.2))) t).copies = (mapGet Tile.reset s.tiles t).copies.map _
  induction s.tiles with
  | nil => rfl
  | cons e tiles ih =>
    simp only [List.map_cons, mapGet]
    split
    · exact copies_wakeTile c s.stamp e.2
    · exact ih

/-- A `READY` of tensor 1 of context 0, pages 0 to 9. -/
def readyTensor1 : InvCmd := ⟨2, 0, 0, 1, 1, 0, 9⟩

/-- An access of page 0 of that tensor. -/
def heldPage0 : Held := ⟨0, 1, 0, false, false⟩

/-- A copy of 16 bytes by task slot 0, held at that access. -/
def heldCopy : Copy :=
  { kind := .copy, slot := 0, core := 0, ticket := 0, ev := false, src := 0, dst := 8, rowBytes := 16, rows := 1, srcPitch := 0, dstPitch := 0
    moved := 0, poisoned := false, held := some heldPage0, mask := [], after := 0 }

/-- Tile 0 with the task of slot 0 resident and that copy in its unit. -/
def residentHolds : State := { State.reset with tiles := [(0, { Tile.reset with resident := some 0, copies := [heldCopy] })] }

theorem readyTensor1_wakes : readyTensor1.wakes (some heldPage0) = true := by decide

/-- The copy of the resident task stays held, its access marked ready. -/
theorem held_wakeAll_residentHolds :
    ((wakeAll residentHolds readyTensor1).tile 0).copies.map (·.held) = [some { heldPage0 with ready := true }] := by
  rw [copies_wakeAll, ← wake_away readyTensor1_wakes]
  rfl

/-- Refutes O54: a `READY` leaves a held copy of the resident task held, its access marked ready, where the statement lets the access go. -/
theorem not_launchesEnd : ¬ Obligations.LaunchesEnd := by
  unfold Obligations.LaunchesEnd
  rintro ⟨-, -, -, -, -, -, -, -, -, hwoken, -⟩
  obtain ⟨-, -, hcopies, -⟩ := hwoken residentHolds readyTensor1 0
  have letGo : ((wakeAll residentHolds readyTensor1).tile 0).copies.map (·.held) = [none] := by
    rw [hcopies, ← wake_here readyTensor1_wakes]
    rfl
  rw [held_wakeAll_residentHolds] at letGo
  exact absurd letGo (by decide)

end Sys2Proof.ReadyCopies
end

section
/-! SUPPORT. How a form of the focused core ends, a write of a plane of the fabric, an injection of a row store, a read of scratchpad. -/

namespace Sys2Proof.Machine

open Sys2Proof.Spec

/-! ## The end of a form -/

/-- State `u` has the focused core of `s`, its memory and its writes on their way. -/
structure CoreKept (s u : State) : Prop where
  focus : u.focus = s.focus
  core : u.cur = s.cur
  mem : u.mem = s.mem
  writes : u.writes = s.writes

theorem CoreKept.of_tile {s u : State} (hfocus : u.focus = s.focus) (hcore : (u.tile s.ft).core s.fc = s.cur) (hmem : u.mem = s.mem)
    (hwrites : u.writes = s.writes) : CoreKept s u := by
  refine ⟨hfocus, ?_, hmem, hwrites⟩
  rw [State.cur, State.ft, State.fc, hfocus]
  exact hcore

/-- A form whose own work keeps the focused core, memory and the writes on their way returns its result. -/
theorem CoreKept.returns {s u : State} (h : CoreKept s u) (d : Reg) (v : DWord) : Returns s (finishRd u d v) d v where
  core := by simp [finishRd, finish, h.core]
  mem := h.mem
  home := State.homeByte_congr (t := s) h.mem h.writes

/-- A result in rd leaves the fabric of the core's tile as the form's own work left it. -/
theorem CoreKept.fabric_finishRd {s u : State} (h : CoreKept s u) (d : Reg) (v : DWord) :
    ((finishRd u d v).tile s.ft).fabric = (u.tile s.ft).fabric := by
  have hft : s.ft = u.ft := congrArg Prod.fst h.focus.symm
  have htile := State.tile_modCur (u.wx d v) Core.advance
  rw [State.wx_ft] at htile
  rw [hft, finishRd, finish, htile, State.wx, State.tile_modCur, Tile.modCore_fabric, Tile.modCore_fabric]

theorem blocks_blockCore (s : State) : Blocks s (blockCore s) := by
  have hcur : (blockCore s).cur = { s.cur with blocked := true, waited := (blockCore s).cur.waited } := by
    unfold blockCore
    dsimp only
    rw [State.cur_modCur]
    rfl
  exact { pc := by rw [hcur], blocked := by rw [hcur], instret := by rw [hcur], regs := fun q => by rw [State.rx, State.rx, hcur]; rfl
          mem := rfl, writes := rfl, pkg := rfl }

/-! ## The planes of a fabric (R92, R434) -/

/-- With no configuration resident plane 0 is the idle one (log entry 156). -/
theorem Fabric.idle_eq (f : Fabric) : f.idle = if f.active = some 0 then 1 else 0 := rfl

theorem Fabric.idle_lt (f : Fabric) : f.idle < 2 := by
  rw [Fabric.idle_eq]
  split <;> decide

theorem Fabric.plane_setPlane_same (f : Fabric) (i : Nat) (p : Plane) : (f.setPlane i p).plane i = p := by
  unfold Fabric.setPlane Fabric.plane
  split <;> rfl

theorem Fabric.plane_setPlane_ne (f : Fabric) {i j : Nat} (p : Plane) (hi : i < 2) (hj : j < 2) (h : j ≠ i) :
    (f.setPlane i p).plane j = f.plane j := by
  unfold Fabric.setPlane Fabric.plane
  by_cases hi0 : i = 0
  · rw [if_pos hi0, if_neg (by omega), if_neg (by omega)]
  · rw [if_neg hi0, if_pos (by omega), if_pos (by omega)]

/-- Everything of a fabric but a plane stands after a write of that plane. -/
theorem Fabric.setPlane_keeps {β : Type} (p : Fabric → β) (h : ∀ f p0 p1, p { f with plane0 := p0, plane1 := p1 } = p f) (f : Fabric)
    (i : Nat) (x : Plane) : p (f.setPlane i x) = p f := by
  unfold Fabric.setPlane
  split
  · exact h f x f.plane1
  · exact h f f.plane0 x

/-- An error that strikes the row store marks a word of the plane and changes nothing else of it. -/
theorem Fabric.poisonWord_eq (f : Fabric) (i k : Nat) :
    f.poisonWord i k = f.setPlane i { f.plane i with poison := mapSet false (f.plane i).poison k true } := by
  unfold Fabric.poisonWord Fabric.setPlane Fabric.plane
  split <;> rfl

/-- An injection of the row store of a tile marks at most one word of the plane, besides the log of the die and a free value. -/
theorem strikeRows_cases (s : State) (t ctx plane : Nat) (keys : Nat → Bool) :
    ∃ u : State, (u.tiles = s.tiles ∧ u.focus = s.focus ∧ u.mem = s.mem ∧ u.writes = s.writes) ∧
      (strikeRows s t ctx plane keys = u ∨
        ∃ k, strikeRows s t ctx plane keys = u.modTile t (fun v => { v with fabric := v.fabric.poisonWord plane k })) := by
  unfold strikeRows
  cases armedInj s (t / 512) 0x04 (rowPlace t plane 0) 8192 with
  | none => exact ⟨s, ⟨rfl, rfl, rfl, rfl⟩, .inl rfl⟩
  | some ka =>
    obtain ⟨k, a⟩ := ka
    dsimp only
    split
    · exact ⟨s, ⟨rfl, rfl, rfl, rfl⟩, .inl rfl⟩
    · refine ⟨useInj s (t / 512) 0x04 k a t ctx, ⟨rfl, rfl, rfl, rfl⟩, ?_⟩
      split
      · exact .inr ⟨_, rfl⟩
      · exact .inl rfl

/-! ## Descriptors in scratchpad (R211, R252) -/

theorem spadOperand_of_lt {off : Nat} (h : off < 2 ^ 21) : spadOperand off = some off := by
  have htop : bitsOf off 63 60 = 0 := by simp [bitsOf]; omega
  have hmid : bitsOf off 59 21 = 0 := by simp [bitsOf]; omega
  have hlow : bitsOf off 20 0 = off := by simp [bitsOf]; omega
  simp [spadOperand, gaddr, htop, hmid, hlow]

/-- The four bytes at an aligned offset of scratchpad with no poisoned word. -/
theorem readSpad_head {s : State} {off : Nat} (hfc : s.fc = 0) (hal : off % 4 = 0) (hend : off + 4 ≤ 2 ^ 21)
    (hclean : ∀ i, i < 4 → s.poisonAt (spadBase s.ft + off + i) = false) :
    readSpad s off 4 4 = .ok (s.bytesAt (.tile s.ft 0) (spadBase s.ft + off) 4) := by
  have hnone : poisonFrom s s.ft off 4 = none := by
    rw [poisonFrom, Option.map_eq_none_iff, List.find?_eq_none]
    intro i hi
    simpa using hclean i (List.mem_range.mp hi)
  unfold readSpad
  simp only [spadOperand_of_lt (show off < 2 ^ 21 by omega), hal, ne_eq, not_true_eq_false, if_false, if_neg (show ¬2 ^ 21 < off + 4 by omega),
    hnone, hfc]

end Sys2Proof.Machine
end

section
/-! PROOF. Staging a configuration in the idle plane and installing it (R92, R191, R237 to R239, R306).

`Stages` says what staging does to a fabric. `Fabric.stage` does it, and the injection that may strike the words it writes (R434) leaves it so;
each form of `fb.load` then comes to a trap, to a wait, or to `stageAct`. `fb.swap` and `PLANE_SWAP_INSTALL` share `swapAct`. -/

namespace Sys2Proof.PlaneSwap

open Sys2Proof.Machine Sys2Proof.Spec

/-! ## What staging does to a fabric (R92, R237) -/

/-- Fabric `g` is `f` with images staged in the idle plane of `f`, the expansion begun. -/
structure Stages (f g : Fabric) (ms : List Img) (conf : Nat) : Prop where
  staged : g.staged = true
  expanding : g.expanding = true
  conf : (g.plane f.idle).conf = conf
  images : (g.plane f.idle).regions = ms.map (fun m => m.hdr)
  other : ∀ i, i < 2 → i ≠ f.idle → g.plane i = f.plane i
  active : g.active = f.active
  regions : g.regions = f.regions

theorem stages_stage (f : Fabric) (ms : List Img) (conf : Nat) : Stages f (f.stage ms conf) ms conf := by
  have hplane (i : Nat) : (f.stage ms conf).plane i = (f.setPlane f.idle (expand (f.plane f.idle) ms conf)).plane i := rfl
  exact
    { staged := rfl
      expanding := rfl
      conf := by rw [hplane, Fabric.plane_setPlane_same]; rfl
      images := by rw [hplane, Fabric.plane_setPlane_same]; rfl
      other := fun i hi hne => by rw [hplane, Fabric.plane_setPlane_ne f _ (Fabric.idle_lt f) hi hne]
      active := Fabric.setPlane_keeps (·.active) (fun _ _ _ => rfl) f _ _
      regions := Fabric.setPlane_keeps (·.regions) (fun _ _ _ => rfl) f _ _ }

theorem Stages.poisonWord {f g : Fabric} {ms : List Img} {conf : Nat} (h : Stages f g ms conf) (k : Nat) :
    Stages f (g.poisonWord f.idle k) ms conf := by
  rw [Fabric.poisonWord_eq]
  exact
    { staged := (Fabric.setPlane_keeps (·.staged) (fun _ _ _ => rfl) g _ _).trans h.staged
      expanding := (Fabric.setPlane_keeps (·.expanding) (fun _ _ _ => rfl) g _ _).trans h.expanding
      conf := by rw [Fabric.plane_setPlane_same]; exact h.conf
      images := by rw [Fabric.plane_setPlane_same]; exact h.images
      other := fun i hi hne => (Fabric.plane_setPlane_ne g _ (Fabric.idle_lt f) hi hne).trans (h.other i hi hne)
      active := (Fabric.setPlane_keeps (·.active) (fun _ _ _ => rfl) g _ _).trans h.active
      regions := (Fabric.setPlane_keeps (·.regions) (fun _ _ _ => rfl) g _ _).trans h.regions }

theorem stageOn_stages (s : State) (ms : List Img) (conf : Nat) :
    CoreKept s (stageOn s s.ft ms conf) ∧ Stages (s.tile s.ft).fabric ((stageOn s s.ft ms conf).tile s.ft).fabric ms conf := by
  unfold stageOn
  generalize hs1 : s.modTile s.ft (fun v => { v with fabric := v.fabric.stage ms conf }) = s1
  obtain ⟨u, ⟨htiles, hfocus, hmem, hwrites⟩, hu⟩ :=
    strikeRows_cases s1 s.ft (s.taskCtx s.ft (s.slot s.ft)) (s.tile s.ft).fabric.idle (fun k => ms.any (fun m => m.covers k))
  have htile : u.tile s.ft = { s.tile s.ft with fabric := (s.tile s.ft).fabric.stage ms conf } := by
    rw [State.tile, htiles, ← hs1]
    exact State.tile_modTile_same s s.ft _
  have hstages := stages_stage (s.tile s.ft).fabric ms conf
  subst hs1
  rcases hu with hu | ⟨k, hu⟩
  · rw [hu]
    exact ⟨.of_tile hfocus (by rw [htile]; rfl) hmem hwrites, by rw [htile]; exact hstages⟩
  · rw [hu]
    exact ⟨.of_tile hfocus (by rw [State.tile_modTile_same, htile]; rfl) hmem hwrites,
      by rw [State.tile_modTile_same, htile]; exact hstages.poisonWord k⟩

/-- With no expansion in progress `fb.load` stages its images and returns 0. -/
theorem stageAct_stages {s : State} (h : (s.tile s.ft).fabric.expanding = false) (d : Reg) (ms : List Img) (conf : Nat) :
    Returns s (stageAct s d 0 ms conf).state d 0 ∧
      Stages (s.tile s.ft).fabric ((stageAct s d 0 ms conf).state.tile s.ft).fabric ms conf := by
  obtain ⟨hkept, hstages⟩ := stageOn_stages s ms conf
  have hact : (stageAct s d 0 ms conf).state = finishRd (stageOn s s.ft ms conf) d 0 := by
    rw [stageAct, h]
    rfl
  rw [hact, hkept.fabric_finishRd]
  exact ⟨hkept.returns d 0, hstages⟩

/-- While an expansion is in progress `fb.load` blocks. -/
theorem stageAct_blocks {s : State} (h : (s.tile s.ft).fabric.expanding = true) (d : Reg) (ms : List Img) (conf : Nat) :
    Blocks s (stageAct s d 0 ms conf).state := by
  rw [stageAct, if_pos h]
  exact blocks_blockCore s

/-! ## The operand of `fb.load` (R237) -/

/-- What `fb.load` of a number of at most 8 bits comes to. -/
theorem exec_fbLoad_number {s : State} (d : Reg) {a : Reg} (hfc : s.fc = 0) (ha : s.rn a < 256) :
    exec (.fbLoad d a) s = .next (if (confSections s.myContainer (s.rn a)).isEmpty then Act.trap (Rej.trap ⟨2, 0, 0, 0, 72⟩ 0) s
      else stageAct s d 0 (contImgs s.myContainer (s.rn a)) (s.rn a)).state := by
  have hnum : bitOf (s.rn a) 63 = false := by simp [bitOf]; omega
  have hhigh : bitsOf (s.rn a) 62 8 = 0 := by simp [bitsOf]; omega
  change execFbLoad d a s = _
  unfold execFbLoad
  simp only [ctlOnly, hfc, hnum, hhigh, if_true, Bool.false_eq_true, if_false, ne_eq, not_true_eq_false]
  rfl

/-- The end of `fb.load` of a list at an offset of scratchpad. -/
def listAct (s : State) (d : Reg) (off : Nat) : Act :=
  match listImgs s off with
  | .error tr => .trap tr s
  | .ok ms => stageAct s d 0 ms 255

theorem listAct_ok {s : State} {off : Nat} {ms : List Img} (h : listImgs s off = .ok ms) (d : Reg) : listAct s d off = stageAct s d 0 ms 255 := by
  rw [listAct, h]

theorem listAct_error {s : State} {off : Nat} {tr : Trap} (h : listImgs s off = .error tr) (d : Reg) : listAct s d off = .trap tr s := by
  rw [listAct, h]

theorem exec_fbLoad_list {s : State} (d : Reg) {a : Reg} {off : Nat} (hfc : s.fc = 0) (hoff : off < 2 ^ 21) (ha : s.rn a = 2 ^ 63 + off) :
    exec (.fbLoad d a) s = .next (listAct s d off).state := by
  have hlist : bitOf (s.rn a) 63 = true := by simp [bitOf]; omega
  have hhigh : bitsOf (s.rn a) 62 21 = 0 := by simp [bitsOf]; omega
  have hlow : bitsOf (s.rn a) 20 0 = off := by simp [bitsOf]; omega
  change execFbLoad d a s = _
  unfold execFbLoad
  simp only [ctlOnly, hfc, hlist, hhigh, hlow, if_true, ne_eq, not_true_eq_false, if_false]
  rfl

theorem exec_fbLoad_wide_number {s : State} (d : Reg) {a : Reg} (hfc : s.fc = 0) (hlt : s.rn a < 2 ^ 63) (hge : 256 ≤ s.rn a) :
    exec (.fbLoad d a) s = .next (illegalAt s) := by
  have hnum : bitOf (s.rn a) 63 = false := by simp [bitOf]; omega
  have hhigh : bitsOf (s.rn a) 62 8 ≠ 0 := by simp [bitsOf]; omega
  change execFbLoad d a s = _
  unfold execFbLoad
  simp only [ctlOnly, hfc, hnum, if_true, Bool.false_eq_true, if_false, if_pos hhigh]
  rfl

theorem exec_fbLoad_wide_list {s : State} (d : Reg) {a : Reg} (hfc : s.fc = 0) (hge : 2 ^ 63 + 2 ^ 21 ≤ s.rn a) :
    exec (.fbLoad d a) s = .next (illegalAt s) := by
  have hlt : s.rn a < 2 ^ 64 := (s.rx a).isLt
  have hlist : bitOf (s.rn a) 63 = true := by simp [bitOf]; omega
  have hhigh : bitsOf (s.rn a) 62 21 ≠ 0 := by simp [bitsOf]; omega
  change execFbLoad d a s = _
  unfold execFbLoad
  simp only [ctlOnly, hfc, hlist, if_true, if_pos hhigh]
  rfl

/-! ## The head of a list in scratchpad (R237) -/

theorem listImgs_of_offsets_error {s : State} {off : Nat} {tr : Trap} (h : listOffsets s off = .error tr) : listImgs s off = .error tr := by
  rw [listImgs, h]

theorem listImgs_misaligned (s : State) {off : Nat} (hoff : off < 2 ^ 21) (h : off % 4 ≠ 0) : listImgs s off = .error (tAlign off 4) := by
  have hread : readSpad s off 4 4 = .error (tAlign off 4) := by
    unfold readSpad
    simp only [spadOperand_of_lt hoff, if_pos h]
  apply listImgs_of_offsets_error
  rw [listOffsets, hread]

theorem listImgs_count {s : State} {off : Nat} (hfc : s.fc = 0) (hal : off % 4 = 0) (hend : off + 4 ≤ 2 ^ 21)
    (hclean : ∀ i, i < 4 → s.poisonAt (spadBase s.ft + off + i) = false)
    (hcount : (s.byteAt (.tile s.ft 0) (spadBase s.ft + off)).toNat = 0 ∨ 8 < (s.byteAt (.tile s.ft 0) (spadBase s.ft + off)).toNat) :
    listImgs s off = .error (tCfgDesc 0 off) := by
  have hfirst : fieldAt (s.bytesAt (.tile s.ft 0) (spadBase s.ft + off) 4) 0 1 = (s.byteAt (.tile s.ft 0) (spadBase s.ft + off)).toNat := by
    simp [fieldAt, State.bytesAt, List.range_succ, leNat]
  apply listImgs_of_offsets_error
  rw [listOffsets, readSpad_head hfc hal hend hclean]
  simp only [hfirst]
  rw [if_pos (by omega)]

/-! ## The swap (R238, R239, R306) -/

theorem exec_fbSwap {s : State} (hfc : s.fc = 0) (d : Reg) : exec (.fbSwap d) s = .next (swapAct d s).state := by
  change perform (ctlOnly s (swapAct d s)) = _
  rw [ctlOnly, if_pos hfc]
  rfl

theorem swapAct_unstaged {s : State} (h : (s.tile s.ft).fabric.staged = false) (d : Reg) :
    (swapAct d s).state = finishRd s d (BitVec.allOnes 64) := by
  simp only [swapAct, h]
  rfl

theorem swapAct_blocks {s : State} (h : (s.tile s.ft).fabric.staged = true)
    (hwait : (s.tile s.ft).fabric.expanding = true ∨ quiescent (s.tile s.ft) = false) (d : Reg) : Blocks s (swapAct d s).state := by
  have hcond : ((s.tile s.ft).fabric.expanding || !quiescent (s.tile s.ft)) = true := by
    rcases hwait with hw | hw <;> simp [hw]
  simp only [swapAct, h, hcond]
  exact blocks_blockCore s

/-- The number of the staged configuration of a tile. -/
def swapResult (v : Tile) : DWord := BitVec.ofNat 64 (v.fabric.plane v.fabric.idle).conf

/-- The staged plane of a tile is whole, and its resident configuration quiescent. -/
structure CanSwap (v : Tile) : Prop where
  staged : v.fabric.staged = true
  whole : v.fabric.expanding = false
  quiescent : quiescent v = true

/-- Where every port it binds has the page size of its tensor the staged configuration is installed, and its number returned. -/
theorem swapAct_installs {s : State} (h : CanSwap (s.tile s.ft)) (hpage : stagedPageFail s s.ft s.fslot = false) (d : Reg) :
    (swapAct d s).state = finishRd (installOn s s.ft) d (swapResult (s.tile s.ft)) := by
  simp only [swapAct, h.staged, h.whole, h.quiescent, hpage]
  rfl

/-- Where one has another, nothing is installed (log entry 139). -/
theorem swapAct_rejects {s : State} (h : CanSwap (s.tile s.ft)) (hpage : stagedPageFail s s.ft s.fslot = true) (d : Reg) :
    (swapAct d s).state = raiseCore s (tCfgDesc 17 0) := by
  simp only [swapAct, h.staged, h.whole, h.quiescent, hpage]
  rfl

theorem tile_installOn (s : State) (t : Nat) : (installOn s t).tile t =
    { s.tile t with fabric := (s.tile t).fabric.install (taskBinds s t (s.slot t)), mx := (s.tile t).mx.idle } := State.tile_modTile_same s t _

theorem coreKept_installOn (s : State) : CoreKept s (installOn s s.ft) := .of_tile rfl (by rw [tile_installOn]; rfl) rfl rfl

theorem fabric_finishRd_installOn (s : State) (d : Reg) (v : DWord) :
    ((finishRd (installOn s s.ft) d v).tile s.ft).fabric = (s.tile s.ft).fabric.install (taskBinds s s.ft s.fslot) := by
  rw [(coreKept_installOn s).fabric_finishRd, tile_installOn]
  rfl

/-- PLANE_SWAP_INSTALL at a control core blocked at `fb.swap` runs the form on that core. -/
theorem exec_planeSwapInstall {s : State} {t : Nat} {d : Reg} (hblocked : (s.tile t).ctl.blocked = true) (hrun : (s.tile t).ctl.stat = .run)
    (hform : decodeFetched (s.tile t).ctl.iword (s.tile t).ctl.ilen = .fbSwap d) (h : CanSwap (s.tile t)) :
    exec (.planeSwapInstall t) s = .next { (swapAct d { s with focus := (t, 0) }).state with focus := s.focus } := by
  have hat : blockedAt s t 0 = some (.fbSwap d) := by
    change (if (s.tile t).ctl.blocked && (s.tile t).ctl.stat == .run then some (decodeFetched (s.tile t).ctl.iword (s.tile t).ctl.ilen)
      else none) = _
    rw [hblocked, hrun, hform]
    rfl
  change execPlaneSwapInstall t s = _
  unfold execPlaneSwapInstall
  simp only [hat, h.staged, h.whole, h.quiescent]
  rfl

/-- Settles O40: each form of `fb.load` comes to a trap, a wait or the staging of its images, and both swaps to one handshake. -/
theorem planeSwap : Obligations.PlaneSwap := by
  unfold Obligations.PlaneSwap
  refine ⟨fun s d a hfc ha => ?number, fun s d a hfc => ⟨?wideNumber, ?wideList, fun off hoff ha => ?list⟩, Fabric.idle_eq,
    fun s t => ?complete, fun s d hfc => ?swap, ?install, ?installReject⟩
  case number =>
    rw [exec_fbLoad_number d hfc ha]
    refine ⟨fun himg hidle => ?_, fun himg hbusy => ?_, fun himg => ?_⟩
    · rw [if_neg (by simpa using himg)]
      obtain ⟨hret, h⟩ := stageAct_stages hidle d (contImgs s.myContainer (s.rn a)) (s.rn a)
      exact ⟨_, rfl, hret, h.staged, h.expanding, h.conf, h.other, h.active, h.regions⟩
    · rw [if_neg (by simpa using himg)]
      exact ⟨_, rfl, stageAct_blocks hbusy d _ _⟩
    · rw [if_pos (by simpa using himg)]
      rfl
  case wideNumber => exact exec_fbLoad_wide_number d hfc
  case wideList => exact exec_fbLoad_wide_list d hfc
  case list =>
    rw [exec_fbLoad_list d hfc hoff ha]
    refine ⟨fun ms himg hidle => ?_, fun ms himg hbusy => ?_, fun tr htr => ?_, fun hal => ?_, fun b3 hal hend hclean hb3 hcount => ?_⟩
    · rw [listAct_ok himg]
      obtain ⟨hret, h⟩ := stageAct_stages hidle d ms 255
      exact ⟨_, rfl, hret, h.staged, h.expanding, h.conf, h.images, h.other, h.active, h.regions⟩
    · rw [listAct_ok himg]
      exact ⟨_, rfl, stageAct_blocks hbusy d ms 255⟩
    · rw [listAct_error htr]
      rfl
    · rw [listAct_error (listImgs_misaligned s hoff hal)]
      rfl
    · subst hb3
      rw [listAct_error (listImgs_count hfc hal hend hclean hcount)]
      rfl
  case complete => exact ⟨_, rfl, by rw [State.tile_modTile_same], rfl⟩
  case swap =>
    rw [exec_fbSwap hfc]
    refine ⟨fun hnone => ?_, fun hstaged hwhole hquiet hpage => ?_, fun hstaged hwhole hquiet hpage => ?_, fun hstaged hwait => ?_⟩
    · rw [swapAct_unstaged hnone]
    · rw [swapAct_rejects ⟨hstaged, hwhole, hquiet⟩ hpage]
      rfl
    · rw [swapAct_installs ⟨hstaged, hwhole, hquiet⟩ hpage]
      refine ⟨_, rfl, (coreKept_installOn s).returns d _, ?_⟩
      rw [fabric_finishRd_installOn]
      exact ⟨rfl, rfl, rfl, rfl, rfl, rfl, rfl, rfl, rfl⟩
    · exact ⟨_, rfl, swapAct_blocks hstaged hwait d⟩
  case install =>
    intro s t d hblocked hrun hform hstaged hwhole hquiet hpage
    have can : CanSwap (s.tile t) := ⟨hstaged, hwhole, hquiet⟩
    have hfabric := fabric_finishRd_installOn { s with focus := (t, 0) } d (swapResult (s.tile t))
    have hcore := ((coreKept_installOn { s with focus := (t, 0) }).returns d (swapResult (s.tile t))).core
    rw [exec_planeSwapInstall hblocked hrun hform can, swapAct_installs (s := { s with focus := (t, 0) }) can hpage]
    exact ⟨_, rfl, congrArg Fabric.active hfabric, congrArg Fabric.staged hfabric, rfl, rfl, hcore⟩
  case installReject =>
    intro s t d hblocked hrun hform hstaged hwhole hquiet hpage
    have can : CanSwap (s.tile t) := ⟨hstaged, hwhole, hquiet⟩
    rw [exec_planeSwapInstall hblocked hrun hform can, swapAct_rejects (s := { s with focus := (t, 0) }) can hpage]
    rfl

end Sys2Proof.PlaneSwap
end

section
/-! PROOF. The steeping state (R164, R191, R282). -/

namespace Sys2Proof.Steeping

open Sys2Proof.Machine

/-- The state in which the steeping state of the focused task is changed. -/
def withSteep (s : State) (f : SteepKeys → SteepKeys) : State := s.modExt s.ft s.fslot (fun e => { e with steep := f e.steep })

theorem tile_withSteep (s : State) (f : SteepKeys → SteepKeys) : (withSteep s f).tile s.ft =
    { s.tile s.ft with
      exts := mapSet TaskExt.zero (s.tile s.ft).exts s.fslot { s.ext s.ft s.fslot with steep := f (s.ext s.ft s.fslot).steep } } :=
  State.tile_modTile_same s s.ft _

theorem steep_finish_withSteep (s : State) (f : SteepKeys → SteepKeys) :
    (((withSteep s f).modCur Core.advance).ext s.ft s.fslot).steep = f (s.ext s.ft s.fslot).steep := by
  have htile : ((withSteep s f).modCur Core.advance).tile s.ft = ((withSteep s f).tile s.ft).modCore s.fc Core.advance :=
    State.tile_modCur (withSteep s f) Core.advance
  rw [State.ext, Tile.ext, htile, Tile.modCore, Tile.setCore_exts, tile_withSteep, mapGet_mapSet_same]

theorem cur_finish_withSteep (s : State) (f : SteepKeys → SteepKeys) : ((withSteep s f).modCur Core.advance).cur = s.cur.advance := by
  have hcore : ((withSteep s f).tile s.ft).core s.fc = s.cur := by
    rw [tile_withSteep]
    rfl
  exact (State.cur_modCur _ _).trans (congrArg Core.advance hcore)

theorem exec_stKey {s : State} (hfc : s.fc = 0) (a : Reg) {b : Reg} (hb : s.rn b < 2 ^ 32) : exec (.stKey a b) s =
    .next ((withSteep s (fun k => { k with key := s.rn a, stream := s.rn b })).modCur Core.advance) := by
  change perform (ctlOnly s _) = _
  rw [ctlOnly, if_pos hfc, if_neg (Nat.not_le.mpr hb)]
  rfl

theorem exec_stMember {s : State} (hfc : s.fc = 0) {a b : Reg} (ha : s.rn a < 2 ^ 16) (hb : s.rn b < 2 ^ 48) : exec (.stMember a b) s =
    .next ((withSteep s (fun k => { k with member := s.rn a, base := s.rn b })).modCur Core.advance) := by
  change perform (ctlOnly s _) = _
  rw [ctlOnly, if_pos hfc, if_neg (not_or.mpr ⟨Nat.not_le.mpr ha, Nat.not_le.mpr hb⟩)]
  rfl

/-- A form of the control core is `ILLEGAL` on another core, and on it where a check of its operands makes it so. -/
theorem ctlOnly_illegal {s : State} {c : Prop} [Decidable c] (h : s.fc ≠ 0 ∨ c) (x : Act) :
    ctlOnly s (if c then .illegal s else x) = .illegal s := by
  unfold ctlOnly
  split
  · next hfc => exact if_pos (h.resolve_left fun hne => hne hfc)
  · rfl

/-- Settles O32: each form writes the two values it names, behind one check of its operands. -/
theorem steepingForms : Obligations.SteepingForms := by
  unfold Obligations.SteepingForms
  refine ⟨fun s a b hfc hb => ?key, fun s a b hfc ha hb => ?member, fun s a b h => ?keyIllegal, fun s a b h => ?memberIllegal⟩
  case key => exact ⟨_, exec_stKey hfc a hb, steep_finish_withSteep s _, cur_finish_withSteep s _, rfl⟩
  case member => exact ⟨_, exec_stMember hfc ha hb, steep_finish_withSteep s _, cur_finish_withSteep s _, rfl⟩
  case keyIllegal => exact congrArg perform (ctlOnly_illegal h _)
  case memberIllegal => exact congrArg perform (ctlOnly_illegal h _)

end Sys2Proof.Steeping
end

section
/-! SUPPORT. The matrix path: folds of writes, accumulator rows, the sequencer, writes into scratchpad. -/

namespace Sys2Proof.Machine

variable {β : Type} {p : State → β}

/-! ## A reading along a fold of writes -/

section Folds

variable {σ ι : Type} {f : σ → ι → σ} {r : σ → β} {l : List ι}

/-- A reading that none of the writes made concerns stands. -/
theorem foldl_read_stands (h : ∀ s, ∀ i ∈ l, r (f s i) = r s) (s : σ) : r (l.foldl f s) = r s :=
  List.foldlRecOn (motive := fun t => r t = r s) l f rfl fun t ht i hi => (h t i hi).trans ht

/-- A reading that write `k` alone concerns has the value that this write gives it wherever `I` holds. -/
theorem foldl_read_written_of_inv {I : σ → Prop} (hkeep : ∀ s i, I s → I (f s i)) {k : ι} {b : β} (hat : ∀ s, I s → r (f s k) = b)
    (hoff : ∀ s, ∀ i ∈ l, i ≠ k → r (f s i) = r s) (hk : k ∈ l) {s : σ} (hs : I s) : r (l.foldl f s) = b := by
  induction l generalizing s with
  | nil => exact absurd hk List.not_mem_nil
  | cons i l ih =>
    obtain ⟨-, hoffl⟩ := List.forall_mem_cons.mp fun j hj s => hoff s j hj
    by_cases hl : k ∈ l
    · exact ih (fun s j hj => hoffl j hj s) hl (hkeep s i hs)
    · obtain rfl := (List.mem_cons.mp hk).resolve_right hl
      exact (foldl_read_stands (fun s j hj => hoffl j hj s fun e => hl (e ▸ hj)) _).trans (hat s hs)

/-- A reading that write `k` alone concerns has the value that this write gives it. -/
theorem foldl_read_written {k : ι} {b : β} (hat : ∀ s, r (f s k) = b) (hoff : ∀ s, ∀ i ∈ l, i ≠ k → r (f s i) = r s) (hk : k ∈ l)
    (s : σ) : r (l.foldl f s) = b :=
  foldl_read_written_of_inv (I := fun _ => True) (fun _ _ _ => trivial) (fun s _ => hat s) hoff hk trivial

end Folds

/-! ## Accumulator rows (R175, R434, R458) -/

/-- A reading that looks at no tile, no die and no free value. -/
def OffTiles (p : State → β) : Prop :=
  ∀ (s : State) (tiles : List (Nat × Tile)) (dies : List (Nat × Die)) (draws : Nat),
    p { s with tiles := tiles, dies := dies, draws := draws } = p s

theorem eq_of_armedInj_one {s : State} {d array off k a : Nat} (h : armedInj s d array off 1 = some (k, a)) : a = off := by
  unfold armedInj at h
  dsimp only at h
  split at h
  · next hc =>
    obtain ⟨-, -, hlo, hhi⟩ := hc
    simp only [Option.some.injEq, Prod.mk.injEq] at h
    omega
  · exact absurd h (by simp)

/-- An injection of an accumulator row that has been written marks that row at most, besides the log of the die and a free value. -/
theorem strikeAcc_cases (s : State) (t ctx row : Nat) : ∃ dies draws,
    strikeAcc s t ctx row 1 = { s with dies := dies, draws := draws } ∨
      strikeAcc s t ctx row 1 = ({ s with dies := dies, draws := draws } : State).modTile t
        (fun v => { v with accPoison := mapSet false v.accPoison row true }) := by
  have hplace : accPlace t row - accPlace t 0 = row := by
    simp only [accPlace]
    omega
  unfold strikeAcc strike
  cases h : armedInj s (t / 512) 0x05 (accPlace t row) 1 with
  | none => exact ⟨s.dies, s.draws, .inl rfl⟩
  | some ka =>
    obtain ⟨k, a⟩ := ka
    obtain rfl := eq_of_armedInj_one h
    refine ⟨(useInj s (t / 512) 0x05 k (accPlace t row) t ctx).dies, (useInj s (t / 512) 0x05 k (accPlace t row) t ctx).draws, ?_⟩
    by_cases hk : k = 2
    · simp only [hk, if_true, hplace]
      exact .inr rfl
    · simp only [hk, if_false]
      exact .inl rfl

theorem putAcc_keeps (hp : OffTiles p) (s : State) (t i : Nat) (r : AccRow) : p (s.putAcc t i r) = p s := by
  have hm (s : State) (f : Tile → Tile) : p (s.modTile t f) = p s := hp s _ s.dies s.draws
  unfold State.putAcc
  generalize hs : s.modTile t _ = s1
  obtain ⟨dies, draws, h | h⟩ := strikeAcc_cases s1 t (s.taskCtx t (s.slot t)) i
  · rw [h, hp s1 s1.tiles, ← hs, hm]
  · rw [h, hm, hp s1 s1.tiles, ← hs, hm]

/-- The row is written, and what its write may mark is that row. -/
theorem tile_putAcc (s : State) (t i : Nat) (r : AccRow) : ∃ marks, (s.putAcc t i r).tile t = { (s.tile t).setAcc i r with accPoison := marks } ∧
    ∀ k, k ≠ i → mapGet false marks k = mapGet false (s.tile t).accPoison k := by
  unfold State.putAcc
  generalize hs : s.modTile t _ = s1
  have htile : s1.tile t = { (s.tile t).setAcc i r with accPoison := mapSet false (s.tile t).accPoison i false } := by
    rw [← hs, State.tile_modTile_same]
  obtain ⟨dies, draws, h | h⟩ := strikeAcc_cases s1 t (s.taskCtx t (s.slot t)) i
  · rw [h]
    exact ⟨_, htile, fun k hk => mapGet_mapSet_ne _ _ _ hk⟩
  · rw [h, State.tile_modTile_same]
    change ∃ marks, { s1.tile t with accPoison := mapSet false (s1.tile t).accPoison i true } = _ ∧ _
    rw [htile]
    refine ⟨_, rfl, fun k hk => (mapGet_mapSet_ne _ _ _ hk).trans ?_⟩
    exact mapGet_mapSet_ne false (s.tile t).accPoison false hk

theorem tile_putAcc_ne (s : State) {t u : Nat} (i : Nat) (r : AccRow) (h : u ≠ t) : (s.putAcc t i r).tile u = s.tile u := by
  unfold State.putAcc
  generalize hs : s.modTile t _ = s1
  have htile : s1.tile u = s.tile u := by rw [← hs, State.tile_modTile_ne _ _ h]
  obtain ⟨dies, draws, hstruck | hstruck⟩ := strikeAcc_cases s1 t (s.taskCtx t (s.slot t)) i
  · rw [hstruck]
    exact htile
  · rw [hstruck, State.tile_modTile_ne _ _ h]
    exact htile

@[simp] theorem accRow_putAcc_same (s : State) (t i : Nat) (r : AccRow) : ((s.putAcc t i r).tile t).accRow i = r := by
  obtain ⟨marks, h, -⟩ := tile_putAcc s t i r
  rw [h]
  exact mapGet_mapSet_same _ _ _ _

theorem accRow_putAcc_ne (s : State) (t : Nat) {i k : Nat} (r : AccRow) (h : k ≠ i) : ((s.putAcc t i r).tile t).accRow k = (s.tile t).accRow k := by
  obtain ⟨marks, htile, -⟩ := tile_putAcc s t i r
  rw [htile]
  exact mapGet_mapSet_ne _ _ _ h

@[simp] theorem fabric_putAcc (s : State) (t i : Nat) (r : AccRow) : ((s.putAcc t i r).tile t).fabric = (s.tile t).fabric := by
  obtain ⟨marks, h, -⟩ := tile_putAcc s t i r
  rw [h]
  rfl

@[simp] theorem mx_putAcc (s : State) (t i : Nat) (r : AccRow) : ((s.putAcc t i r).tile t).mx = (s.tile t).mx := by
  obtain ⟨marks, h, -⟩ := tile_putAcc s t i r
  rw [h]
  rfl

theorem accTrap_putAcc_ne (s : State) (t : Nat) {i k : Nat} (r : AccRow) (h : k ≠ i) : accTrap (s.putAcc t i r) t k = accTrap s t k := by
  obtain ⟨marks, htile, hmarks⟩ := tile_putAcc s t i r
  unfold accTrap
  rw [htile, hmarks k h]

/-- The marks of a tile alone decide whether a row of it traps. -/
theorem accTrap_of_tile {s u : State} {t : Nat} (h : (u.tile t).accPoison = (s.tile t).accPoison) (k : Nat) : accTrap u t k = accTrap s t k := by
  unfold accTrap
  rw [h]

/-! ## The sequencer (R175, R185) -/

theorem busy_of_stepRow {v : Tile} {x : StepRow} (h : v.stepRow = some x) : v.mx.busy = true := by
  unfold Tile.stepRow at h
  split at h
  · assumption
  · exact absurd h (by simp)

theorem Mx.row_next {m : Mx} (h : m.wind = none) : m.next.row = m.row + 1 := by
  rw [Mx.next, Mx.leave, h]
  rfl

theorem Mx.busy_next {m : Mx} (h : m.wind = none) : m.next.busy = m.busy := by
  rw [Mx.next, Mx.leave, h]
  rfl

theorem tile_modMx (s : State) (t : Nat) (f : Mx → Mx) : (modMx s t f).tile t = { s.tile t with mx := f (s.tile t).mx } :=
  State.tile_modTile_same s t _

theorem tile_mxNext (s : State) (t : Nat) : (mxNext s t).tile t = { s.tile t with mx := (s.tile t).mx.next } := tile_modMx s t _

theorem tile_mxTick (s : State) (t : Nat) : (mxTick s t).tile t = tickTile (s.tile t) (s.draw.1 + 1) := State.tile_modTile_same s.draw.2 t _

theorem modMx_keeps (hp : OffTiles p) (s : State) (t : Nat) (f : Mx → Mx) : p (modMx s t f) = p s := hp s _ s.dies s.draws

theorem mxTick_keeps (hp : OffTiles p) (s : State) (t : Nat) : p (mxTick s t) = p s := hp s _ s.dies _

theorem offTiles_mem : OffTiles State.mem := fun _ _ _ _ => rfl

@[simp] theorem mem_modMx (s : State) (t : Nat) (f : Mx → Mx) : (modMx s t f).mem = s.mem := modMx_keeps offTiles_mem s t f
@[simp] theorem mem_mxTick (s : State) (t : Nat) : (mxTick s t).mem = s.mem := mxTick_keeps offTiles_mem s t

theorem offTiles_homeByte (x : Nat) : OffTiles (fun s => s.homeByte x) := fun _ _ _ _ => rfl
theorem offTiles_bytesAt (o : Obs) (a n : Nat) : OffTiles (fun s => s.bytesAt o a n) := fun _ _ _ _ => rfl
theorem offTiles_poisonAt (a : Nat) : OffTiles (fun s => s.poisonAt a) := fun _ _ _ _ => rfl

/-! ## What the feed and the loads read (R159, R161) -/

/-- State `u` has the bytes, the poison, the words and the entries of state `s` as the feed of a tile reads them. -/
structure FeedKept (t : Nat) (s u : State) : Prop where
  bytes : ∀ o a n, u.bytesAt o a n = s.bytesAt o a n
  poison : ∀ a, u.poisonAt a = s.poisonAt a
  plane : (u.tile t).fabric.act = (s.tile t).fabric.act
  entries : (u.tile t).fabric.rot = (s.tile t).fabric.rot

theorem feedKept_mxTick (s : State) (t : Nat) : FeedKept t s (mxTick s t) where
  bytes o a n := mxTick_keeps (offTiles_bytesAt o a n) s t
  poison a := mxTick_keeps (offTiles_poisonAt a) s t
  plane := by
    rw [tile_mxTick]
    rfl
  entries := by
    rw [tile_mxTick]
    rfl

theorem feedKept_putAcc (s : State) (t i : Nat) (r : AccRow) : FeedKept t s (s.putAcc t i r) where
  bytes o a n := putAcc_keeps (offTiles_bytesAt o a n) s t i r
  poison a := putAcc_keeps (offTiles_poisonAt a) s t i r
  plane := by rw [fabric_putAcc]
  entries := by rw [fabric_putAcc]

/-! ## Writes into scratchpad (R175, R384) -/

theorem store_local {a : Nat} (h : a < 2 ^ 63) (s : State) (w : Who) (x : Part) (bs : List Byte) : s.store w a [x] bs =
    s.addWrite ⟨x.addr, bs.take x.len, w.obs, w.cls, some (w.tile, w.slot), w.op, w.done, [], [], 0, w.launch, []⟩ false := by
  rw [State.store, State.foldShared, if_pos h]
  rfl

theorem tile_store_local {a : Nat} (h : a < 2 ^ 63) (s : State) (w : Who) (x : Part) (bs : List Byte) (t : Nat) :
    (s.store w a [x] bs).tile t = s.tile t := by
  rw [store_local h]
  exact addWrite_keeps (p := fun s => s.tile t) (fun _ _ _ _ _ _ _ _ _ => rfl) s _ _

/-- A write that is no plain store of a core stands at its home, and every other byte as it was. -/
theorem homeByte_store_local {a : Nat} (h : a < 2 ^ 63) {w : Who} (hw : w.cls ≠ 0) (s : State) (base : Nat) (bs : List Byte) (x : Nat) :
    (s.store w a [⟨base, bs.length⟩] bs).homeByte x = if base ≤ x ∧ x < base + bs.length then bs.getD (x - base) 0 else s.homeByte x := by
  rw [store_local h, State.homeByte_addWrite _ _ _ fun y => by simp [PWrite.unseen, hw]]
  simp [PWrite.covers]

/-! ## A row that has been read (R181, R183) -/

theorem clearAcc_keeps (hp : OffTiles p) (s : State) (t i : Nat) (r : AccRow) (clr : Bool) : p (clearAcc s t i r clr) = p s :=
  ite_keeps (putAcc_keeps hp s t i _) rfl

theorem accRow_clearAcc_same (s : State) (t i : Nat) (r : AccRow) (clr : Bool) :
    ((clearAcc s t i r clr).tile t).accRow i = if clr then AccRow.zeroOf r.int32 else (s.tile t).accRow i := by
  unfold clearAcc
  split
  · exact accRow_putAcc_same s t i _
  · rfl

theorem accRow_clearAcc_ne (s : State) (t : Nat) {i k : Nat} (r : AccRow) (clr : Bool) (h : k ≠ i) :
    ((clearAcc s t i r clr).tile t).accRow k = (s.tile t).accRow k :=
  ite_keeps (p := fun s => (s.tile t).accRow k) (accRow_putAcc_ne s t _ h) rfl

theorem accTrap_clearAcc_ne (s : State) (t : Nat) {i k : Nat} (r : AccRow) (clr : Bool) (h : k ≠ i) :
    accTrap (clearAcc s t i r clr) t k = accTrap s t k :=
  ite_keeps (p := fun s => accTrap s t k) (accTrap_putAcc_ne s t _ h) rfl

theorem mx_clearAcc (s : State) (t i : Nat) (r : AccRow) (clr : Bool) : ((clearAcc s t i r clr).tile t).mx = (s.tile t).mx :=
  ite_keeps (p := fun s => (s.tile t).mx) (mx_putAcc s t i _) rfl

theorem tile_clearAcc_ne (s : State) {t u : Nat} (i : Nat) (r : AccRow) (clr : Bool) (h : u ≠ t) : (clearAcc s t i r clr).tile u = s.tile u :=
  ite_keeps (p := fun s => s.tile u) (tile_putAcc_ne s i _ h) rfl

end Sys2Proof.Machine
end

section
/-! PROOF. The load intervals of the matrix path (R161, R162, R178, R179).

A load without a trap delivers its 16 fabric rows in turn (`loadRows_eq`), and each of them writes the entries of its own elements; so what an entry
holds in the end is what its element wrote. `MS.LOAD` and `MS.STEEP` share all of this and differ in their chunks. -/

namespace Sys2Proof.MatrixLoads

open Sys2Proof.Machine

/-! ## Load intervals (R161, R162, R178, R179) -/

/-- Element `j` of fabric row `r` in a word row. -/
def elemWord (v : Tile) (wrow r j : Nat) : ElemWord := mapGet 0 v.fabric.act.words (wordKey wrow r j)

/-- The value that position `q` of a chunk gives an entry of its bank. -/
def bankEntry (f : Nat) (scaled : Bool) (chunk : List Byte) (q : Nat) : TVal :=
  ⟨BitVec.ofNat 32 (fieldAt chunk (4 * q) 4), BitVec.ofNat 8 (tagOf f scaled)⟩

theorem loadCell_mldw {w : ElemWord} {f : Nat} (hopc : ewOpc w = opMLDW) (hfmt : ewFMT w = f) (scaled : Bool) (chunk : List Byte) :
    loadCell w f scaled chunk = .ok ((List.range 4).map (fun q => (4 * (ewCV w % 4) + q, bankEntry f scaled chunk q))) := by
  simp only [loadCell, hopc, hfmt, if_true, ne_eq, not_true_eq_false, if_false]
  rfl

/-- A word whose format is the row's does not trap. -/
theorem loadCell_ok {w : ElemWord} {f : Nat} (h : ewOpc w = opMLDW → ewFMT w = f) (scaled : Bool) (chunk : List Byte) :
    ∃ ws, loadCell w f scaled chunk = .ok ws := by
  by_cases hopc : ewOpc w = opMLDW
  · exact ⟨_, loadCell_mldw hopc (h hopc) scaled chunk⟩
  · unfold loadCell
    rw [if_neg hopc]
    split
    · exact ⟨_, rfl⟩
    · exact ⟨_, rfl⟩

/-- An element has 16 entries. -/
theorem loadCell_entry_lt {w : ElemWord} {f : Nat} {scaled : Bool} {chunk : List Byte} {ws : List (Nat × TVal)}
    (h : loadCell w f scaled chunk = .ok ws) : ∀ e ∈ ws, e.1 < 16 := by
  have bank (val : Nat → TVal) : ∀ e ∈ (List.range 4).map (fun q => (4 * (ewCV w % 4) + q, val q)), e.1 < 16 := by
    intro e he
    obtain ⟨q, hq, rfl⟩ := List.mem_map.mp he
    have := List.mem_range.mp hq
    dsimp only
    omega
  unfold loadCell at h
  dsimp only at h
  split at h
  · split at h
    · exact absurd h (by simp)
    · exact Except.ok.inj h ▸ bank _
  split at h
  · exact Except.ok.inj h ▸ bank _
  · exact Except.ok.inj h ▸ by simp

/-- The entries of one element are written; those of another element stand. -/
theorem rot_writes_ne {el x : Nat} {ws : List (Nat × TVal)} (hws : ∀ e ∈ ws, e.1 < 16) (h : x / 16 ≠ el) (rot : List (Nat × TVal)) :
    mapGet TVal.empty (ws.foldl (fun m e => mapSet TVal.empty m (el * 16 + e.1) e.2) rot) x = mapGet TVal.empty rot x :=
  foldl_read_stands (r := fun m => mapGet TVal.empty m x)
    (fun m e he => mapGet_mapSet_ne _ m _ (by have := hws e he; omega)) rot

/-- The four entries of a bank are written. -/
theorem rot_writes_bank (el k : Nat) (val : Nat → TVal) {q : Nat} (hq : q < 4) (rot : List (Nat × TVal)) :
    mapGet TVal.empty (((List.range 4).map (fun q => (k + q, val q))).foldl (fun m e => mapSet TVal.empty m (el * 16 + e.1) e.2) rot)
      (el * 16 + (k + q)) = val q := by
  rw [List.foldl_map]
  exact foldl_read_written (r := fun m => mapGet TVal.empty m (el * 16 + (k + q))) (fun m => mapGet_mapSet_same _ m _ _)
    (fun m j _ hj => mapGet_mapSet_ne _ m _ (by omega)) (List.mem_range.mpr hq) rot

/-- A reading of a tile that does not look at the entries of its elements. -/
def OffEntries {β : Type} (p : Tile → β) : Prop := ∀ v rot, p { v with fabric := { v.fabric with rot := rot } } = p v

/-- No `MLDW` word of fabric row `r` in a word row has another format. -/
def RowFormats (v : Tile) (wrow r f : Nat) : Prop :=
  ∀ j, j < 16 → ewOpc (elemWord v wrow r j) = opMLDW → ewFMT (elemWord v wrow r j) = f

section FabricRow

variable {v : Tile} {wrow c f : Nat} {scaled : Bool} {chunks : List (List Byte)}

/-- Everything of a tile but the entries stands when a fabric row is delivered. -/
theorem loadFabricRow_keeps {β : Type} (p : Tile → β) (hp : OffEntries p) :
    p (loadFabricRow v wrow c f scaled chunks).1 = p v := by
  unfold loadFabricRow
  refine foldl_read_stands (r := fun r : Tile × Option Trap => p r.1) (fun r j _ => ?_) _
  dsimp only
  split
  · rfl
  · exact hp r.1 _

theorem trap_loadFabricRow (h : RowFormats v wrow c f) : (loadFabricRow v wrow c f scaled chunks).2 = none := by
  unfold loadFabricRow
  refine List.foldlRecOn (motive := fun r : Tile × Option Trap => r.2 = none) _ _ rfl fun r hr j hj => ?_
  obtain ⟨ws, hws⟩ := loadCell_ok (h j (List.mem_range.mp hj)) scaled (chunks.getD j [])
  rw [elemWord] at hws
  rw [hws]
  exact hr

theorem rot_loadFabricRow {j q : Nat} (hj : j < 16) (hopc : ewOpc (elemWord v wrow c j) = opMLDW) (hfmt : ewFMT (elemWord v wrow c j) = f)
    (hq : q < 4) : mapGet TVal.empty (loadFabricRow v wrow c f scaled chunks).1.fabric.rot
      ((c * 16 + j) * 16 + (4 * (ewCV (elemWord v wrow c j) % 4) + q)) = bankEntry f scaled (chunks.getD j []) q := by
  unfold loadFabricRow
  refine foldl_read_written (r := fun r : Tile × Option Trap => mapGet TVal.empty r.1.fabric.rot _) (fun r => ?_) (fun r i _ hi => ?_)
    (List.mem_range.mpr hj) _
  · have hcell := loadCell_mldw hopc hfmt scaled (chunks.getD j [])
    rw [elemWord] at hcell
    rw [hcell]
    exact rot_writes_bank _ _ _ hq _
  · dsimp only
    split
    · rfl
    · next ws hws => exact rot_writes_ne (loadCell_entry_lt hws) (by omega) _

theorem rot_loadFabricRow_ne {x : Nat} (h : x / 256 ≠ c) :
    mapGet TVal.empty (loadFabricRow v wrow c f scaled chunks).1.fabric.rot x = mapGet TVal.empty v.fabric.rot x := by
  unfold loadFabricRow
  refine foldl_read_stands (r := fun r : Tile × Option Trap => mapGet TVal.empty r.1.fabric.rot x) (fun r j hj => ?_) _
  have hj := List.mem_range.mp hj
  dsimp only
  split
  · rfl
  · next ws hws => exact rot_writes_ne (loadCell_entry_lt hws) (by omega) _

end FabricRow

/-- Fabric row `r` of a load has no poisoned byte and no word of another format, and its chunks are those given. -/
structure RowLoads (t wrow f base len : Nat) (mk : Nat → List Byte → List (List Byte)) (s : State) (r : Nat) (chunks : List (List Byte)) :
    Prop where
  clean : ∀ i, i < len → s.poisonAt (spadBase t + (base + len * r) + i) = false
  chunks : mk r (s.bytesAt (.tile t 5) (spadBase t + (base + len * r)) len) = chunks
  formats : RowFormats (s.tile t) wrow r f

/-- The chunks of a fabric row are delivered. -/
def deliverRow (t wrow f : Nat) (scaled : Bool) (chunks : Nat → List (List Byte)) (s : State) (r : Nat) : State :=
  s.setTile t (loadFabricRow (s.tile t) wrow r f scaled (chunks r)).1

section Deliver

variable {t wrow f base len : Nat} {scaled : Bool} {mk : Nat → List Byte → List (List Byte)} {chunks : Nat → List (List Byte)}

theorem deliverRow_keeps {β : Type} (p : Tile → β) (hp : OffEntries p) (s : State) (r : Nat) :
    p ((deliverRow t wrow f scaled chunks s r).tile t) = p (s.tile t) := by
  rw [deliverRow, State.tile_setTile_same]
  exact loadFabricRow_keeps p hp

theorem act_deliverRow (s : State) (r : Nat) : ((deliverRow t wrow f scaled chunks s r).tile t).fabric.act = (s.tile t).fabric.act :=
  deliverRow_keeps (fun v => v.fabric.act) (fun _ _ => rfl) s r

theorem elemWord_congr {u v : Tile} (h : u.fabric.act = v.fabric.act) (r j : Nat) : elemWord u wrow r j = elemWord v wrow r j := by
  rw [elemWord, elemWord, h]

theorem RowFormats.congr {u v : Tile} {r : Nat} (h : RowFormats v wrow r f) (hplane : u.fabric.act = v.fabric.act) : RowFormats u wrow r f := by
  intro j hj
  rw [elemWord_congr hplane]
  exact h j hj

/-- The row loads alike from a state with the same bytes, poison and words. -/
theorem RowLoads.of_reads {s u : State} {r : Nat} {cs : List (List Byte)} (h : RowLoads t wrow f base len mk s r cs)
    (hbytes : ∀ o a n, u.bytesAt o a n = s.bytesAt o a n) (hpoison : ∀ a, u.poisonAt a = s.poisonAt a)
    (hplane : (u.tile t).fabric.act = (s.tile t).fabric.act) : RowLoads t wrow f base len mk u r cs where
  clean i hi := (hpoison _).trans (h.clean i hi)
  chunks := (congrArg (mk r) (hbytes _ _ _)).trans h.chunks
  formats := h.formats.congr hplane

/-- A load without a trap delivers its fabric rows in turn. -/
theorem loadRows_eq (n c : Nat) (s : State) (h : ∀ r, c ≤ r → r < c + n → RowLoads t wrow f base len mk s r (chunks r)) :
    loadRows t wrow f scaled base len mk n c s = mxNext ((List.range' c n).foldl (deliverRow t wrow f scaled chunks) s) t := by
  induction n generalizing c s with
  | zero => rfl
  | succ n ih =>
    have hrow := h c (Nat.le_refl c) (by omega)
    have hclean : (List.range len).find? (fun i => s.poisonAt (spadBase t + (base + len * c) + i)) = none := by
      rw [List.find?_eq_none]
      intro i hi
      simp [hrow.clean i (List.mem_range.mp hi)]
    rw [List.range'_succ, List.foldl_cons, loadRows]
    simp only [hclean, hrow.chunks, trap_loadFabricRow hrow.formats]
    exact ih (c + 1) _ fun r hr hrn => (h r (by omega) (by omega)).of_reads (fun _ _ _ => rfl) (fun _ => rfl) (act_deliverRow s c)

theorem deliver_keeps {β : Type} (p : Tile → β) (hp : OffEntries p) (rs : List Nat) (s : State) :
    p ((rs.foldl (deliverRow t wrow f scaled chunks) s).tile t) = p (s.tile t) :=
  foldl_keeps (p := fun s => p (s.tile t)) (fun s r => deliverRow_keeps p hp s r) rs s

theorem mem_deliver (rs : List Nat) (s : State) : (rs.foldl (deliverRow t wrow f scaled chunks) s).mem = s.mem :=
  foldl_keeps (p := State.mem) (f := deliverRow t wrow f scaled chunks) (fun _ _ => rfl) rs s

theorem rot_deliver {r j q : Nat} {rs : List Nat} (hr : r ∈ rs) (hj : j < 16) (hq : q < 4) {s : State}
    (hopc : ewOpc (elemWord (s.tile t) wrow r j) = opMLDW) (hfmt : ewFMT (elemWord (s.tile t) wrow r j) = f) :
    mapGet TVal.empty ((rs.foldl (deliverRow t wrow f scaled chunks) s).tile t).fabric.rot
      ((r * 16 + j) * 16 + (4 * (ewCV (elemWord (s.tile t) wrow r j) % 4) + q)) = bankEntry f scaled ((chunks r).getD j []) q := by
  refine foldl_read_written_of_inv (r := fun u : State => mapGet TVal.empty (u.tile t).fabric.rot _)
    (I := fun u => (u.tile t).fabric.act = (s.tile t).fabric.act) (fun u i hu => (act_deliverRow u i).trans hu) (fun u hu => ?_)
    (fun u i _ hi => ?_) hr rfl
  · rw [deliverRow, State.tile_setTile_same]
    rw [← elemWord_congr hu] at hopc hfmt ⊢
    exact rot_loadFabricRow hj hopc hfmt hq
  · rw [deliverRow, State.tile_setTile_same]
    exact rot_loadFabricRow_ne (by omega)

end Deliver

/-! ## The two forms of a load -/

section Forms

variable {s s1 : State} {t k wrow f base len : Nat} {scaled : Bool} {mk : Nat → List Byte → List (List Byte)} {chunks : Nat → List (List Byte)}

/-- The chunks of a fabric row of a load whose bytes begin at an offset of scratchpad. -/
def chunksAt (s : State) (t base len : Nat) (mk : Nat → List Byte → List (List Byte)) (r : Nat) : List (List Byte) :=
  mk r (s.bytesAt (.tile t 5) (spadBase t + (base + len * r)) len)

theorem rowLoads_of_clean (hclean : ∀ i, i < 16 * len → s.poisonAt (spadBase t + base + i) = false)
    (hformats : ∀ r, r < 16 → RowFormats (s.tile t) wrow r f)
    {r : Nat} (hr : r < 16) : RowLoads t wrow f base len mk s r (chunksAt s t base len mk r) where
  clean i hi := by
    have hle : len * (r + 1) ≤ len * 16 := Nat.mul_le_mul_left len hr
    have haddr : spadBase t + (base + len * r) + i = spadBase t + base + (len * r + i) := by omega
    rw [haddr]
    exact hclean _ (by rw [Nat.mul_succ] at hle; omega)
  chunks := rfl
  formats := hformats r hr

/-- A tile whose fabric rows are all delivered has gone on to the next step row with the entries of every `MLDW` word written. -/
theorem deliver_completes (htile : s1.tile t = tickTile (s.tile t) k) (hmem : s1.mem = s.mem) (hwind : (s.tile t).mx.wind = none)
    (hformats : ∀ r, r < 16 → RowFormats (s.tile t) wrow r f)
    {rs : List Nat} (hrs : ∀ r, r < 16 → r ∈ rs) {v : State} (hv : v = mxNext (rs.foldl (deliverRow t wrow f scaled chunks) s1) t) :
    (v.tile t).mx.row = (s.tile t).mx.row + 1 ∧ v.mem = s.mem ∧ (v.tile t).acc = (s.tile t).acc ∧
      ∀ r j, r < 16 → j < 16 → ewOpc (elemWord (s.tile t) wrow r j) = opMLDW → ∀ q, q < 4 →
        mapGet TVal.empty (v.tile t).fabric.rot ((r * 16 + j) * 16 + (4 * (ewCV (elemWord (s.tile t) wrow r j) % 4) + q)) =
          bankEntry f scaled ((chunks r).getD j []) q := by
  have hmx : ((rs.foldl (deliverRow t wrow f scaled chunks) s1).tile t).mx = (s.tile t).mx :=
    (deliver_keeps Tile.mx (fun _ _ => rfl) rs s1).trans (by rw [htile]; rfl)
  have hword (r j : Nat) : elemWord (s1.tile t) wrow r j = elemWord (s.tile t) wrow r j :=
    elemWord_congr (by rw [htile]; rfl) r j
  subst hv
  rw [tile_mxNext]
  refine ⟨?_, (mem_deliver rs s1).trans hmem, ?_, fun r j hr hj hopc q hq => ?_⟩
  · rw [hmx]
    exact Mx.row_next hwind
  · exact (deliver_keeps Tile.acc (fun _ _ => rfl) rs s1).trans (by rw [htile]; rfl)
  · have hfmt := hformats r hr j hj hopc
    rw [← hword] at hopc hfmt ⊢
    exact rot_deliver (hrs r hr) hj hq hopc hfmt

theorem exec_msLoad {a : Nat} {row : BitVec 5} {waddr : BitVec 13} {wfmt : BitVec 6} {wsc : BitVec 1}
    (hrow : (s.tile t).stepRow = some (.load row waddr wfmt wsc)) (hword : wordTrap (s.tile t) row.toNat = none)
    (hspad : effSpad ((waddr.toNat + (s.tile t).loopAdd (fun x => x.dw)) * 256) 4096 .read = .ok a)
    (h : ∀ r, r < 16 → RowLoads t row.toNat wfmt.toNat a 256 plainChunks s r (chunks r)) :
    exec (.msLoad t) s =
      .next (mxNext ((List.range' 0 16).foldl (deliverRow t row.toNat wfmt.toNat (wsc == 1) chunks) (mxTick s t)) t) := by
  change execMsLoad t s = _
  unfold execMsLoad
  simp only [hrow, hword, hspad]
  have kept := feedKept_mxTick s t
  congr 1
  exact loadRows_eq 16 0 _ fun r _ hr => (h r (by omega)).of_reads kept.bytes kept.poison kept.plane

/-- The pair format of a steeping row. -/
def pairFmt (pf : BitVec 1) : Nat := if pf = 1 then fmtPW32 else fmtPW16

theorem drawTables_keeps {β : Type} {p : State → β} (hp : OffTiles p) (s : State) (t : Nat) : p (drawTables s t) = p s := by
  unfold drawTables
  dsimp only
  split
  · exact hp s s.tiles s.dies _
  · exact hp s s.tiles _ _

theorem tile_drawTables (s : State) (t u : Nat) : (drawTables s t).tile u = s.tile u := by
  unfold drawTables
  dsimp only
  split <;> rfl

theorem exec_msSteep {a len : Nat} {row : BitVec 5} {paddr : BitVec 13} {pf : BitVec 1} {tfmt : BitVec 6} {rnd : BitVec 2} {sat : BitVec 1}
    {widx : BitVec 32} (hrow : (s.tile t).stepRow = some (.steep row paddr pf tfmt rnd sat widx)) (hwind : (s.tile t).mx.wind = none)
    (hword : wordTrap (s.tile t) row.toNat = none) (htables : (s.tile t).tables ≠ 3)
    (hlen : len = 16 * kPrime tfmt.toNat * fmtBytes (pairFmt pf))
    (hspad : effSpad ((paddr.toNat + (s.tile t).loopAdd (fun x => x.dw)) * 256) (16 * len) .read = .ok a)
    (h : ∀ r, r < 16 → RowLoads t row.toNat tfmt.toNat a len (steepChunks (s.ext t (s.slot t)).steep (pairFmt pf) tfmt.toNat rnd.toNat
      (sat == 1) (widx.toNat + (s.tile t).loopAdd (fun x => x.di))) s r (chunks r)) :
    exec (.msSteep t) s =
      .next (mxNext ((List.range' 0 16).foldl (deliverRow t row.toNat tfmt.toNat false chunks) (drawTables (mxTick s t) t)) t) := by
  subst hlen
  have hfail : (s.tile t).tablesFail = false := by simpa [Tile.tablesFail] using htables
  have kept := feedKept_mxTick s t
  change execMsSteep t s = _
  unfold execMsSteep
  unfold pairFmt at hspad h
  simp only [hrow, hword, hspad, hfail, hwind]
  congr 1
  exact loadRows_eq 16 0 _ fun r _ hr => (h r (by omega)).of_reads
    (fun o a n => (drawTables_keeps (offTiles_bytesAt o a n) _ t).trans (kept.bytes o a n))
    (fun a => (drawTables_keeps (offTiles_poisonAt a) _ t).trans (kept.poison a)) (by rw [tile_drawTables]; exact kept.plane)

end Forms

theorem drop_take_bytesAt (s : State) (o : Obs) (a : Nat) {n i m : Nat} (h : i + m ≤ n) :
    ((s.bytesAt o a n).drop i).take m = s.bytesAt o (a + i) m := by
  apply List.ext_getElem
  · simp [State.bytesAt]
    omega
  · intro j _ _
    simp [State.bytesAt, Nat.add_assoc]

/-- Word `q` of a chunk that a load cuts out of its fabric row. -/
theorem fieldAt_plainChunks (s : State) (t base : Nat) {r j q : Nat} (hj : j < 16) (hq : q < 4) :
    fieldAt ((chunksAt s t base 256 plainChunks r).getD j []) (4 * q) 4 =
      leNat (s.bytesAt (.tile t 5) (spadBase t + base + 256 * r + 16 * j + 4 * q) 4) := by
  have hchunk : (chunksAt s t base 256 plainChunks r).getD j [] = s.bytesAt (.tile t 5) (spadBase t + base + 256 * r + 16 * j) 16 := by
    rw [chunksAt, plainChunks, ← Nat.add_assoc, List.getD_eq_getElem?_getD, List.getElem?_map, List.getElem?_range hj]
    exact drop_take_bytesAt s _ _ (by omega)
  rw [hchunk, fieldAt, drop_take_bytesAt s _ _ (by omega)]

end Sys2Proof.MatrixLoads
end

section
/-! PROOF. The step rows that compute, load, steep, drain and receive (R159 to R162, R177 to R179, R181 to R185, R422).

A row without a trap is a fold of writes over its accumulator rows (`stepIntervals_eq`, `drainRows_eq`), each to a place of its own; the clauses of the
statement are readings of those folds. -/

namespace Sys2Proof.MatrixRows

open Sys2Proof.Machine Sys2Proof.MatrixLoads

/-! ## Compute (R159, R160, R177) -/

/-- An interval depends on the feed and its own accumulator row. -/
theorem stepInterval_congr {t : Nat} {s u : State} (h : FeedKept t s u) {row : Nat} (hrow : (u.tile t).accRow row = (s.tile t).accRow row)
    (htrap : accTrap u t row = accTrap s t row) (wrow : Nat) (acc : Bool) (d : Unfold) (m k0 : Int) :
    stepInterval u t wrow acc d m k0 row = stepInterval s t wrow acc d m k0 row := by
  have hpoison : u.poisonIn = s.poisonIn := by
    funext a n
    simp only [State.poisonIn, h.poison]
  have hchunk : readChunk u t d = readChunk s t d := by
    funext as
    simp only [readChunk, h.bytes]
  have hfmt : wordRowFmt (u.tile t) wrow = wordRowFmt (s.tile t) wrow := by simp only [wordRowFmt, h.plane]
  have hcolumn : column (u.tile t) = column (s.tile t) := by
    funext wrow atag chunks north j
    simp only [column, h.plane, h.entries]
  simp only [stepInterval, hpoison, hchunk, hfmt, hcolumn, hrow, htrap]

/-- The `j`-th row of a panel from row `a` on is written. -/
def putRow (t a : Nat) (R : Nat → AccRow) (s : State) (j : Nat) : State := s.putAcc t (a + j) (R j)

/-- Intervals that all have a result write their rows in turn. -/
theorem stepIntervals_eq {t wrow a : Nat} {acc : Bool} {d : Unfold} {m0 k0 : Int} {R : Nat → AccRow} (n i : Nat) (s : State)
    (h : ∀ j, i ≤ j → j < i + n → stepInterval s t wrow acc d (m0 + j) k0 (a + j) = .ok (R j)) :
    stepIntervals t wrow acc d m0 k0 a n i s = mxNext ((List.range' i n).foldl (putRow t a R) s) t := by
  induction n generalizing i s with
  | zero => rfl
  | succ n ih =>
    rw [stepIntervals, h i (Nat.le_refl i) (by omega), List.range'_succ, List.foldl_cons]
    refine ih (i + 1) _ fun j hj hjn => ?_
    have hne : a + j ≠ a + i := by omega
    rw [stepInterval_congr (feedKept_putAcc s t (a + i) (R i)) (accRow_putAcc_ne s t (R i) hne) (accTrap_putAcc_ne s t (R i) hne)]
    exact h j (by omega) (by omega)

theorem mx_foldl_putRow (t a : Nat) (R : Nat → AccRow) (js : List Nat) (s : State) : ((js.foldl (putRow t a R) s).tile t).mx = (s.tile t).mx :=
  foldl_keeps (p := fun s => (s.tile t).mx) (fun s j => mx_putAcc s t (a + j) (R j)) js s

theorem accRow_foldl_putRow {t a i : Nat} (R : Nat → AccRow) {js : List Nat} (h : i ∈ js) (s : State) :
    ((js.foldl (putRow t a R) s).tile t).accRow (a + i) = R i :=
  foldl_read_written (f := putRow t a R) (r := fun s : State => (s.tile t).accRow (a + i)) (fun s => accRow_putAcc_same s t (a + i) (R i))
    (fun s j _ hj => accRow_putAcc_ne s t (R j) (by omega)) h s

theorem accRow_foldl_putRow_outside {t a k : Nat} (R : Nat → AccRow) {js : List Nat} (h : ∀ j ∈ js, k ≠ a + j) (s : State) :
    ((js.foldl (putRow t a R) s).tile t).accRow k = (s.tile t).accRow k :=
  foldl_read_stands (f := putRow t a R) (r := fun s : State => (s.tile t).accRow k) (fun s j hj => accRow_putAcc_ne s t (R j) (h j hj)) s

theorem exec_msStep {s : State} {t a : Nat} {wrow : BitVec 5} {acc : BitVec 1} {abase cnt : BitVec 10} {ud : BitVec 15} {m0 k0 : BitVec 16}
    {d : Unfold} {R : Nat → AccRow} (hrow : (s.tile t).stepRow = some (.step wrow acc abase cnt ud m0 k0))
    (hacc : (s.tile t).effAcc abase.toNat cnt.toNat = .ok a) (hword : wordTrap (s.tile t) wrow.toNat = none)
    (hunfold : readUnfold s t (ud.toNat * 64) = .ok d)
    (hR : ∀ i, i ≤ cnt.toNat → stepInterval s t wrow.toNat (acc == 1) d (m0.toNat + (s.tile t).loopAdd (fun x => x.dm) + i)
      (k0.toNat + (s.tile t).loopAdd (fun x => x.dk)) (a + i) = .ok (R i)) :
    exec (.msStep t) s = .next (mxNext ((List.range' 0 (cnt.toNat + 1)).foldl (putRow t a R) (mxTick s t)) t) := by
  change execMsStep t s = _
  unfold execMsStep
  simp only [hrow, hacc, hword, hunfold]
  congr 1
  refine stepIntervals_eq _ 0 _ fun j _ hj => ?_
  rw [stepInterval_congr (feedKept_mxTick s t) (by rw [tile_mxTick]; rfl) (accTrap_of_tile (by rw [tile_mxTick]; rfl) _)]
  exact hR j (by omega)

/-! ## Drains into scratchpad (R181) -/

theorem effSpad_of_le {d : Int} {base n : Nat} (hd : d = base) (h : base + n ≤ 2 ^ 21) (acc : Acc) : effSpad d n acc = .ok base := by
  subst hd
  rw [effSpad, if_neg (by omega), Int.toNat_natCast]

/-- Row `j` of a drain has no trap, and its contents and bytes are those given. -/
structure RowDrains (t a base len dfmt rnd : Nat) (sat : Bool) (s : State) (j : Nat) (row : AccRow) (bs : List Byte) : Prop where
  noTrap : accTrap s t (a + j) = none
  contents : (s.tile t).accRow (a + j) = row
  bytes : drainBytes row dfmt rnd sat = .ok bs
  length : bs.length = len
  fits : base + j * len + len ≤ 2 ^ 21

/-- Row `j` of a drain is written behind the rows before it, and cleared where the drain clears. -/
def drainRow (t a base len : Nat) (clr : Bool) (X : Nat → AccRow) (B : Nat → List Byte) (s : State) (j : Nat) : State :=
  clearAcc (s.store (mxWho s t) (base + j * len) [⟨spadBase t + (base + j * len), (B j).length⟩] (B j)) t (a + j) (X j) clr

section Drain

variable {t a base len dfmt rnd : Nat} {sat clr : Bool} {X : Nat → AccRow} {B : Nat → List Byte}

theorem accRow_drainRow_ne {s : State} {j k : Nat} (hj : base + j * len < 2 ^ 63) (h : k ≠ a + j) :
    ((drainRow t a base len clr X B s j).tile t).accRow k = (s.tile t).accRow k := by
  rw [drainRow, accRow_clearAcc_ne _ _ _ _ h, tile_store_local hj]

theorem RowDrains.of_drainRow {s : State} {i j : Nat} {row : AccRow} {bs : List Byte} (h : RowDrains t a base len dfmt rnd sat s j row bs)
    (hi : base + i * len < 2 ^ 63) (hne : j ≠ i) : RowDrains t a base len dfmt rnd sat (drainRow t a base len clr X B s i) j row bs where
  noTrap := by
    rw [drainRow, accTrap_clearAcc_ne _ _ _ _ (by omega)]
    exact (accTrap_of_tile (by rw [tile_store_local hi]) _).trans h.noTrap
  contents := (accRow_drainRow_ne hi (by omega)).trans h.contents
  bytes := h.bytes
  length := h.length
  fits := h.fits

/-- A drain of rows that do not trap writes and clears them in turn. -/
theorem drainRows_eq {d : Int} (hd : d * 64 = base) (n i : Nat) (s : State)
    (h : ∀ j, i ≤ j → j < i + n → RowDrains t a base len dfmt rnd sat s j (X j) (B j)) :
    drainRows t a d dfmt rnd sat clr n i s = mxNext ((List.range' i n).foldl (drainRow t a base len clr X B) s) t := by
  induction n generalizing i s with
  | zero => rfl
  | succ n ih =>
    have hrow := h i (Nat.le_refl i) (by omega)
    have hlen := hrow.length
    have hfits := hrow.fits
    have hspad : effSpad (d * 64 + ((i * (B i).length : Nat) : Int)) (B i).length .write = .ok (base + i * len) := by
      rw [hlen]
      exact effSpad_of_le (by rw [hd]; rfl) hfits _
    rw [List.range'_succ, List.foldl_cons, drainRows]
    simp only [hrow.noTrap, hrow.contents, hrow.bytes, hspad]
    exact ih (i + 1) (drainRow t a base len clr X B s i) fun j hj hjn => (h j (by omega) (by omega)).of_drainRow (by omega) (by omega)

theorem mx_drainRow {j : Nat} (hj : base + j * len < 2 ^ 63) (s : State) :
    ((drainRow t a base len clr X B s j).tile t).mx = (s.tile t).mx := by
  rw [drainRow, mx_clearAcc, tile_store_local hj]

theorem homeByte_drainRow {j : Nat} (hj : base + j * len < 2 ^ 63) (s : State) (x : Nat) :
    (drainRow t a base len clr X B s j).homeByte x = if spadBase t + (base + j * len) ≤ x ∧ x < spadBase t + (base + j * len) + (B j).length
      then (B j).getD (x - (spadBase t + (base + j * len))) 0 else s.homeByte x :=
  (clearAcc_keeps (offTiles_homeByte x) _ t _ _ _).trans (homeByte_store_local hj (show kMATRIX ≠ 0 by decide) s _ _ x)

/-- The rows of a drain have LOCAL addresses, and all one length. -/
structure RowsFit (base len : Nat) (B : Nat → List Byte) (js : List Nat) : Prop where
  fits : ∀ j ∈ js, base + j * len < 2 ^ 63
  length : ∀ j ∈ js, (B j).length = len

/-- Rows of one length lie apart. -/
theorem row_le_of_lt {i j : Nat} (len : Nat) (h : i < j) : i * len + len ≤ j * len := by
  rw [← Nat.succ_mul]
  exact Nat.mul_le_mul_right len h

theorem mem_range'_zero {j n : Nat} : j ∈ List.range' 0 (n + 1) ↔ j ≤ n := by
  rw [List.mem_range'_1]
  omega

/-- Rows that end within scratchpad fit there, each of them. -/
theorem rowsFit_of_le {n : Nat} (hend : base + (n + 1) * len ≤ 2 ^ 21) (hlen : ∀ j, j ≤ n → (B j).length = len) :
    RowsFit base len B (List.range' 0 (n + 1)) ∧ ∀ j, j ≤ n → base + j * len + len ≤ 2 ^ 21 := by
  have hfits (j : Nat) (hj : j ≤ n) : base + j * len + len ≤ 2 ^ 21 := by
    have := row_le_of_lt len (Nat.lt_add_one_of_le hj)
    omega
  refine ⟨⟨fun j hj => ?_, fun j hj => hlen j (mem_range'_zero.mp hj)⟩, hfits⟩
  have := hfits j (mem_range'_zero.mp hj)
  omega

variable {js : List Nat}

theorem RowsFit.mx (h : RowsFit base len B js) (s : State) : ((js.foldl (drainRow t a base len clr X B) s).tile t).mx = (s.tile t).mx :=
  foldl_read_stands (r := fun s : State => (s.tile t).mx) (fun s j hj => mx_drainRow (h.fits j hj) s) s

theorem RowsFit.accRow_outside (h : RowsFit base len B js) {k : Nat} (hk : ∀ j ∈ js, k ≠ a + j) (s : State) :
    ((js.foldl (drainRow t a base len clr X B) s).tile t).accRow k = (s.tile t).accRow k :=
  foldl_read_stands (r := fun s : State => (s.tile t).accRow k) (fun _ j hj => accRow_drainRow_ne (h.fits j hj) (hk j hj)) s

theorem RowsFit.accRow (h : RowsFit base len B js) {i : Nat} (hi : i ∈ js) {s : State} (hX : (s.tile t).accRow (a + i) = X i) :
    ((js.foldl (drainRow t a base len clr X B) s).tile t).accRow (a + i) = if clr then AccRow.zeroOf (X i).int32 else X i := by
  cases clr with
  | true =>
    exact foldl_read_written (f := drainRow t a base len true X B) (r := fun s : State => (s.tile t).accRow (a + i))
      (fun s => accRow_clearAcc_same _ t (a + i) (X i) true) (fun s j hj hne => accRow_drainRow_ne (h.fits j hj) (by omega)) hi s
  | false =>
    have hstands := foldl_read_stands (f := drainRow t a base len false X B) (r := fun s : State => (s.tile t).accRow (a + i)) (l := js)
    refine (hstands (fun s j hj => ?_) s).trans hX
    exact congrArg (fun v : Tile => v.accRow (a + i)) (tile_store_local (h.fits j hj) s _ _ _ t)

theorem RowsFit.homeByte (h : RowsFit base len B js) {i k : Nat} (hi : i ∈ js) (hk : k < len) (s : State) :
    (js.foldl (drainRow t a base len clr X B) s).homeByte (spadBase t + base + i * len + k) = (B i).getD k 0 := by
  refine foldl_read_written (r := fun s : State => s.homeByte (spadBase t + base + i * len + k)) (fun s => ?_) (fun s j hj hne => ?_) hi s
  · rw [homeByte_drainRow (h.fits i hi), h.length i hi, if_pos (by omega)]
    congr 1
    omega
  · rw [homeByte_drainRow (h.fits j hj), h.length j hj, if_neg]
    rcases Nat.lt_or_gt_of_ne hne with hlt | hgt
    · have := row_le_of_lt len hlt
      omega
    · have := row_le_of_lt len hgt
      omega

theorem RowsFit.homeByte_outside (h : RowsFit base len B js) {x : Nat}
    (hx : ∀ j ∈ js, ¬(spadBase t + base + j * len ≤ x ∧ x < spadBase t + base + j * len + len)) (s : State) :
    (js.foldl (drainRow t a base len clr X B) s).homeByte x = s.homeByte x := by
  refine foldl_read_stands (r := fun s : State => s.homeByte x) (fun s j hj => ?_) s
  have := hx j hj
  rw [homeByte_drainRow (h.fits j hj), h.length j hj, if_neg (by omega)]

end Drain

/-! ## The form that drains (R181, R183, R435) -/

section Forms

variable {s : State} {t a : Nat} {clr : BitVec 1} {abase cnt : BitVec 10} {daddr : BitVec 15} {dfmt : BitVec 6} {rnd : BitVec 2}
  {sat : BitVec 1} {pidx : BitVec 2} {limit : BitVec 24}

theorem exec_msDrain_spad {base len : Nat} {X : Nat → AccRow} {B : Nat → List Byte}
    (hrow : (s.tile t).stepRow = some (.drain 0 clr abase cnt daddr dfmt rnd sat pidx limit))
    (hacc : (s.tile t).effAcc abase.toNat cnt.toNat = .ok a) (hbase : (daddr.toNat + (s.tile t).loopAdd (fun x => x.dd)) * 64 = (base : Int))
    (h : ∀ j, j ≤ cnt.toNat → RowDrains t a base len dfmt.toNat rnd.toNat (sat == 1) s j (X j) (B j)) :
    exec (.msDrain t) s =
      .next (mxNext ((List.range' 0 (cnt.toNat + 1)).foldl (drainRow t a base len (clr == 1) X B) (mxTick s t)) t) := by
  change execMsDrain t s = _
  unfold execMsDrain
  simp only [hrow, hacc]
  congr 1
  refine drainRows_eq hbase _ 0 _ fun j _ hj => ?_
  obtain ⟨htrap, hcontents, hbytes, hlength, hfits⟩ := h j (by omega)
  exact ⟨(accTrap_of_tile (by rw [tile_mxTick]; rfl) _).trans htrap, by rw [tile_mxTick]; exact hcontents, hbytes, hlength, hfits⟩

/-- A stall counts cycles and changes nothing else of its tile. -/
theorem tile_mxStall (s : State) (t : Nat) : ∃ n, (mxStall s t).tile t =
    { s.tile t with mx := { (s.tile t).mx with prog := { (s.tile t).mx.prog with waited := n } } } := ⟨_, tile_modMx s.draw.2 t _⟩

theorem mem_mxStall (s : State) (t : Nat) : (mxStall s t).mem = s.mem := mem_modMx s.draw.2 t _

/-- A drain into a peer has begun: it names the peer and stands. -/
def peerNamed (s : State) (t : Nat) (p : Nat × Nat) : State :=
  mxStall (modMx (mxTick s t) t (fun m => { m with prog := { m.prog with peer := some p } })) t

theorem tile_peerNamed (s : State) (t : Nat) (p : Nat × Nat) : ∃ k n, (peerNamed s t p).tile t =
    { tickTile (s.tile t) k with mx := { (s.tile t).mx with prog := { (s.tile t).mx.prog with peer := some p, waited := n } } } := by
  obtain ⟨n, h⟩ := tile_mxStall (modMx (mxTick s t) t (fun m => { m with prog := { m.prog with peer := some p } })) t
  rw [tile_modMx, tile_mxTick] at h
  exact ⟨_, n, h⟩

theorem mem_peerNamed (s : State) (t : Nat) (p : Nat × Nat) : (peerNamed s t p).mem = s.mem := by
  rw [peerNamed, mem_mxStall, mem_modMx, mem_mxTick]

/-- The peer of a drain is not quarantined (R435). -/
theorem exec_msDrain_peer {p : Nat × Nat} (hrow : (s.tile t).stepRow = some (.drain 1 clr abase cnt daddr dfmt rnd sat pidx limit))
    (hacc : (s.tile t).effAcc abase.toNat cnt.toNat = .ok a) (hpeer : (s.tile t).rowPeer t pidx.toNat = .ok p)
    (hlive : mapGet false s.pkg.quarantined p.1 = false) :
    exec (.msDrain t) s = .next (peerNamed s t p) := by
  have hpeer' : ((mxTick s t).tile t).rowPeer t pidx.toNat = .ok p := by
    rw [tile_mxTick]
    exact hpeer
  have hlive' : mapGet false (mxTick s t).pkg.quarantined p.1 = false :=
    (mxTick_keeps (p := fun s => mapGet false s.pkg.quarantined p.1) (fun _ _ _ _ => rfl) s t).trans hlive
  change execMsDrain t s = _
  unfold execMsDrain drainPeer
  simp only [hrow, hacc, hpeer', hlive', if_true, Bool.false_eq_true, if_false]
  rfl

end Forms

/-! ## Receiving (R183, R184) -/

/-- The sequencer when one more row of a peer drain or a receive is done. -/
def counted (m : Mx) (cnt : Nat) (resetWait : Bool) : Mx :=
  if m.prog.rowsDone = cnt then m.next
  else { m with prog := { m.prog with rowsDone := m.prog.rowsDone + 1, waited := if resetWait then 0 else m.prog.waited } }

theorem counted_goes_on {m : Mx} (h : m.wind = none) (cnt : Nat) (resetWait : Bool) :
    if m.prog.rowsDone = cnt then (counted m cnt resetWait).row = m.row + 1
    else (counted m cnt resetWait).prog.rowsDone = m.prog.rowsDone + 1 := by
  unfold counted
  split
  · exact Mx.row_next h
  · rfl

theorem tile_mxCount (s : State) (t cnt : Nat) (resetWait : Bool) :
    (mxCount s t cnt resetWait).tile t = { s.tile t with mx := counted (s.tile t).mx cnt resetWait } := by
  unfold mxCount counted
  split
  · exact tile_mxNext s t
  · exact tile_modMx s t _

theorem tile_mxCount_ne (s : State) {t u : Nat} (cnt : Nat) (resetWait : Bool) (h : u ≠ t) : (mxCount s t cnt resetWait).tile u = s.tile u :=
  ite_keeps (p := fun s => s.tile u) (State.tile_modTile_ne s _ h) (State.tile_modTile_ne s _ h)

theorem mem_mxCount (s : State) (t cnt : Nat) (resetWait : Bool) : (mxCount s t cnt resetWait).mem = s.mem :=
  ite_keeps (p := State.mem) rfl rfl

/-- What stands begun toward a receiver's slot: the next row of the drain. -/
theorem drainTo_eq {v : Tile} {t b : Nat} {slot : BitVec 2} {clr : BitVec 1} {abase cnt : BitVec 10} {daddr : BitVec 15} {dfmt : BitVec 6}
    {rnd : BitVec 2} {sat : BitVec 1} {pidx : BitVec 2} {limit : BitVec 24}
    (hrow : v.stepRow = some (.drain 1 clr abase cnt daddr dfmt rnd sat pidx limit)) (hpeer : v.mx.prog.peer = some (t, slot.toNat))
    (hacc : v.effAcc abase.toNat cnt.toNat = .ok b) : drainTo v t slot.toNat = some (b + v.mx.prog.rowsDone, clr == 1, cnt.toNat) := by
  unfold drainTo
  simp only [hrow, hpeer, hacc, if_true]

/-- The sender's side of an accepted row: the row cleared where its drain clears, and counted. -/
def rowSent (s : State) (u i cnt : Nat) (clr : Bool) : State := mxCount (clearAcc s u i ((s.tile u).accRow i) clr) u cnt true

section Receive

variable {s : State} {t u i cnt : Nat} {clr : Bool}

theorem tile_rowSent_ne (h : t ≠ u) : (rowSent s u i cnt clr).tile t = s.tile t :=
  (tile_mxCount_ne _ cnt true h).trans (tile_clearAcc_ne s i _ clr h)

theorem mx_rowSent : ((rowSent s u i cnt clr).tile u).mx = counted (s.tile u).mx cnt true := by
  rw [rowSent, tile_mxCount, mx_clearAcc]

theorem accRow_rowSent : ((rowSent s u i cnt clr).tile u).accRow i =
    if clr then AccRow.zeroOf ((s.tile u).accRow i).int32 else (s.tile u).accRow i := by
  rw [rowSent, tile_mxCount]
  exact accRow_clearAcc_same s u i _ clr

theorem mem_rowSent : (rowSent s u i cnt clr).mem = s.mem := (mem_mxCount _ _ _ _).trans (clearAcc_keeps offTiles_mem s u i _ clr)

end Receive

/-- The sum of a received row and the accumulator row of its kind. -/
def received (y x : AccRow) : AccRow := ⟨x.int32, List.zipWith (accAdd x.int32) y.vals x.vals⟩

theorem exec_drainedRowAccept {s : State} {t u a i row n q : Nat} {c : Bool} {kind slot pidx : BitVec 2} {abase cnt : BitVec 10} {limit : BitVec 24}
    (hne : t ≠ u) (hrow : (s.tile t).stepRow = some (.wait kind abase cnt slot pidx limit)) (hpeer : (s.tile t).mx.prog.peer = some (u, q))
    (hfrom : drainTo (s.tile u) t slot.toNat = some (i, c, n)) (hacc : (s.tile t).effAcc abase.toNat cnt.toNat = .ok a)
    (hat : row = a + (s.tile t).mx.prog.rowsDone) (hkind : ((s.tile u).accRow i).int32 = ((s.tile t).accRow row).int32)
    (hsend : accTrap s u i = none) (htake : accTrap s t row = none) :
    exec (.drainedRowAccept t) s = .next (mxCount
      ((rowSent s u i n c).putAcc t row (received ((s.tile t).accRow row) ((s.tile u).accRow i))) t cnt.toNat false) := by
  have htile : (rowSent s u i n c).tile t = s.tile t := tile_rowSent_ne hne
  have htrap : accTrap (rowSent s u i n c) t row = none := (accTrap_of_tile (by rw [htile]) _).trans htake
  subst hat
  rw [rowSent] at htile htrap
  change execDrainedRowAccept t s = _
  unfold execDrainedRowAccept
  simp only [hrow, hpeer, hfrom, hacc, hsend, htile, htrap, hkind, ne_eq, not_true_eq_false, if_false]
  simp only [received, hkind, rowSent]

/-- Settles O45: a row without a trap is a fold of writes to places of their own, and a received row a write on each of two tiles. -/
theorem matrixRows : Obligations.MatrixRows := by
  unfold Obligations.MatrixRows
  refine ⟨?step, ?load, ?steep, ?drain, ?receive⟩
  case step =>
    intro s t a wrow acc abase cnt ud m0 k0 d R hrow hwind hacc hword hunfold hR
    have hmx := (mx_foldl_putRow t a R (List.range' 0 (cnt.toNat + 1)) (mxTick s t)).trans (by rw [tile_mxTick]; rfl : _ = (s.tile t).mx)
    refine ⟨_, exec_msStep hrow hacc hword hunfold hR, ?_, ?_, ?_, fun i hi => ?_, fun k hk => ?_⟩
    · rw [tile_mxNext, hmx]
      exact Mx.row_next hwind
    · rw [tile_mxNext, hmx]
      exact (Mx.busy_next hwind).trans (busy_of_stepRow hrow)
    · exact foldl_keeps (p := State.mem) (f := putRow t a R) (fun s j => putAcc_keeps offTiles_mem s t (a + j) (R j)) _ (mxTick s t)
    · rw [tile_mxNext]
      exact accRow_foldl_putRow R (mem_range'_zero.mpr hi) _
    · rw [tile_mxNext]
      refine (accRow_foldl_putRow_outside R (fun j hj => ?_) _).trans (by rw [tile_mxTick]; rfl)
      have := mem_range'_zero.mp hj
      omega
  case load =>
    intro s t a wrow waddr wfmt wsc hrow hwind hword hspad hclean hformats
    have hfmt (r : Nat) (hr : r < 16) : RowFormats (s.tile t) wrow.toNat r wfmt.toNat := fun j hj => hformats r j hr hj
    have hexec := exec_msLoad hrow hword hspad fun r hr => rowLoads_of_clean hclean hfmt hr
    obtain ⟨hnext, hmem, haccs, hentries⟩ := deliver_completes (tile_mxTick s t) rfl hwind hfmt (rs := List.range' 0 16)
      (fun r hr => mem_range'_zero.mpr (Nat.le_of_lt_succ hr)) rfl
    refine ⟨_, hexec, hnext, hmem, haccs, fun r j hr hj hopc q hq => (hentries r j hr hj hopc q hq).trans ?_⟩
    rw [bankEntry, fieldAt_plainChunks s t a hj hq]
    rfl
  case steep =>
    intro s t a len pw wrow paddr pf tfmt rnd sat widx hrow hwind hword htables hpw hlen hspad hclean hformats
    subst hpw
    have hfmt (r : Nat) (hr : r < 16) : RowFormats (s.tile t) wrow.toNat r tfmt.toNat := fun j hj => hformats r j hr hj
    have hexec := exec_msSteep hrow hwind hword htables hlen hspad fun r hr => rowLoads_of_clean hclean hfmt hr
    obtain ⟨hnext, hmem, haccs, hentries⟩ := deliver_completes ((tile_drawTables _ t t).trans (tile_mxTick s t))
      (drawTables_keeps offTiles_mem (mxTick s t) t) hwind hfmt (rs := List.range' 0 16)
      (fun r hr => mem_range'_zero.mpr (Nat.le_of_lt_succ hr)) rfl
    refine ⟨_, hexec, hnext, hmem, haccs, fun r j hr hj hopc q hq => (hentries r j hr hj hopc q hq).trans ?_⟩
    rw [bankEntry, chunksAt, ← Nat.add_assoc]
    rfl
  case drain =>
    intro s t a d len dst clr abase cnt daddr dfmt rnd sat pidx limit B hrow hwind hacc
    refine ⟨fun hdst hbase hend htrap hbytes => ?spad, fun p hdst hpeer hlive => ?peer⟩
    case spad =>
      subst hdst
      obtain ⟨rows, hfits⟩ := rowsFit_of_le hend fun j hj => (hbytes j hj).2
      have hmem (j : Nat) : j ∈ List.range' 0 (cnt.toNat + 1) ↔ j ≤ cnt.toNat := mem_range'_zero
      refine ⟨_, exec_msDrain_spad (X := fun j => (s.tile t).accRow (a + j)) hrow hacc hbase fun j hj =>
        ⟨htrap j hj, rfl, (hbytes j hj).1, (hbytes j hj).2, hfits j hj⟩, ?_, fun i j hi hj => ?_, fun x hx => ?_, fun i hi => ?_, fun k hk => ?_⟩
      · rw [tile_mxNext, rows.mx, tile_mxTick]
        exact Mx.row_next hwind
      · exact rows.homeByte ((hmem i).mpr hi) hj (mxTick s t)
      · refine rows.homeByte_outside (fun j hj => ?_) (mxTick s t)
        have := row_le_of_lt len (Nat.lt_add_one_of_le ((hmem j).mp hj))
        omega
      · rw [tile_mxNext]
        refine (rows.accRow ((hmem i).mpr hi) (by rw [tile_mxTick]; rfl)).trans ?_
        simp only [beq_iff_eq, AccRow.zeroOf]
      · rw [tile_mxNext]
        refine (rows.accRow_outside (fun j hj => ?_) _).trans (by rw [tile_mxTick]; rfl)
        have := (hmem j).mp hj
        omega
    case peer =>
      subst hdst
      obtain ⟨k, n, htile⟩ := tile_peerNamed s t p
      refine ⟨_, exec_msDrain_peer hrow hacc hpeer hlive, ?_, ?_, ?_, mem_peerNamed s t p⟩
      · rw [htile]
      · rw [htile]
      · rw [htile]
        rfl
  case receive =>
    intro s t u a b x y q slot pidx abase cnt abase2 cnt2 limit limit2 kind pidx2 clr daddr dfmt rnd sat hne hrow hpeer hsender hto hacc hacc2
      hx hy hkind hsend htake hwind hwind2
    subst hx hy
    refine ⟨_, exec_drainedRowAccept hne hrow hpeer (drainTo_eq hsender hto hacc2) hacc rfl hkind hsend htake, ?_, ?_, ?_, ?_, ?_⟩
    · exact (mem_mxCount _ _ _ _).trans ((putAcc_keeps offTiles_mem _ _ _ _).trans mem_rowSent)
    · rw [tile_mxCount]
      exact accRow_putAcc_same _ _ _ _
    · rw [tile_mxCount_ne _ _ _ (Ne.symm hne), tile_putAcc_ne _ _ _ (Ne.symm hne), accRow_rowSent]
      simp only [beq_iff_eq, AccRow.zeroOf]
    · rw [tile_mxCount, mx_putAcc, tile_rowSent_ne hne]
      exact counted_goes_on hwind _ _
    · rw [tile_mxCount_ne _ _ _ (Ne.symm hne), tile_putAcc_ne _ _ _ (Ne.symm hne), mx_rowSent]
      exact counted_goes_on hwind2 _ _

end Sys2Proof.MatrixRows
end

section
/-! PROOF. Step rows and their entries (R174, R177 to R186): an entry is a row's own iff each field stands in its place. -/

namespace Sys2Proof.StepRows

/-- The bits of an entry from bit `k` on are the field. -/
def Stands {n : Nat} (w : QWord) (k : Nat) (x : BitVec n) : Prop := w.extractLsb' k n = x

theorem stands_append {w : QWord} {k n m : Nat} {x : BitVec n} {y : BitVec m} :
    Stands w k (x ++ y) ↔ Stands w (k + m) x ∧ Stands w k y := by
  unfold Stands
  rw [← BitVec.extractLsb'_append_extractLsb'_eq_extractLsb' rfl]
  constructor
  · intro h
    have hx := congrArg (BitVec.extractLsb' m n) h
    have hy := congrArg (BitVec.extractLsb' 0 m) h
    rw [BitVec.extractLsb'_append_eq_left, BitVec.extractLsb'_append_eq_left] at hx
    rw [BitVec.extractLsb'_append_eq_right, BitVec.extractLsb'_append_eq_right] at hy
    exact ⟨hx, hy⟩
  · rintro ⟨hx, hy⟩
    rw [hx, hy]

theorem stands_encode (w : QWord) (r : StepRow) : Stands w 0 (encodeStepRow r) ↔ encodeStepRow r = w := by
  rw [Stands, BitVec.extractLsb'_eq_self, eq_comm]

theorem stands_of_toNat {w : QWord} {k n x : Nat} (h : (w.extractLsb' k n).toNat = x) : Stands w k (BitVec.ofNat n x) := by
  rw [Stands, ← h, BitVec.ofNat_toNat, BitVec.setWidth_eq]

/-- The fields of a row, OP and the reserved bits among them, are all that decoding looks at. -/
theorem decodeStepRow_of_stands {w : QWord} {r : StepRow} (h : Stands w 0 (encodeStepRow r)) : decodeStepRow w = some r := by
  cases r
  all_goals
    unfold encodeStepRow at h
    repeat rw [stands_append] at h
    simp only [Stands, Nat.reduceAdd, Nat.zero_add, and_assoc] at h
    simp [decodeStepRow, h]

/-- Each OP decodes to a row where its reserved bits are 0, and the row's fields are read where they stand. -/
theorem stands_of_decodeStepRow {w : QWord} {r : StepRow} (h : decodeStepRow w = some r) : Stands w 0 (encodeStepRow r) := by
  unfold decodeStepRow at h
  dsimp only at h
  split at h
  case h_9 => cases h
  all_goals
    next hop =>
    have hop := stands_of_toNat hop
    simp only [Option.ite_none_right_eq_some, Option.some.injEq, Bool.and_eq_true, decide_eq_true_eq] at h
    obtain ⟨hreserved, rfl⟩ := h
    unfold encodeStepRow
    repeat rw [stands_append]
    simpa [Stands, hreserved] using hop

/-- Settles O7: decoding and encoding each say that the fields of the row stand in the entry. -/
theorem stepRowRoundTrip : Obligations.StepRowRoundTrip := by
  unfold Obligations.StepRowRoundTrip
  refine ⟨fun r => ?decodes, fun w r h => ?entry⟩
  case decodes => exact decodeStepRow_of_stands ((stands_encode _ r).mpr rfl)
  case entry => exact (stands_encode w r).mp (stands_of_decodeStepRow h)

end Sys2Proof.StepRows
end

section
/-! SUPPORT. The tile of the focused core when a form of it ends. -/

namespace Sys2Proof.Machine

open Sys2Proof.Spec

@[simp] theorem Tile.modCore_modCore (v : Tile) (c : Nat) (f g : Core → Core) : (v.modCore c f).modCore c g = v.modCore c (fun k => g (f k)) := by
  rw [Tile.modCore, Tile.core_modCore_same, Tile.modCore, Tile.setCore_setCore, Tile.modCore]

section Focus

variable {s u : State}

theorem tile_finish (h : u.focus = s.focus) : (finish u).tile s.ft = (u.tile s.ft).modCore s.fc Core.advance := by
  have hft : u.ft = s.ft := congrArg Prod.fst h
  have hfc : u.fc = s.fc := congrArg Prod.snd h
  rw [← hft, ← hfc]
  exact State.tile_modCur u Core.advance

theorem tile_finishRd (h : u.focus = s.focus) (d : Reg) (v : DWord) :
    (finishRd u d v).tile s.ft = (u.tile s.ft).modCore s.fc (fun k => (k.wx d v).advance) := by
  have hft : u.ft = s.ft := congrArg Prod.fst h
  have hfc : u.fc = s.fc := congrArg Prod.snd h
  rw [finishRd, tile_finish (u := u.wx d v) h, ← hft, ← hfc, State.wx, State.tile_modCur, Tile.modCore_modCore]

/-- A form whose own work keeps the focused core, memory and the writes on their way completes. -/
theorem CoreKept.completes (h : CoreKept s u) : Completes s (finish u) where
  core := (State.cur_modCur u Core.advance).trans (congrArg Core.advance h.core)
  mem := h.mem
  home := State.homeByte_congr (t := s) h.mem h.writes

end Focus

end Sys2Proof.Machine
end

section
/-! PROOF. The CSR forms (R182, R193, R198, R233): which numbers name a CSR, the ways a form ends, and what a write leaves. -/

namespace Sys2Proof.CsrForms

open Sys2Proof.Machine Sys2Proof.Spec

/-! ## The numbers (R198) -/

theorem csrName_of_mxpeer {n : Nat} (hlo : 0x840 ≤ n) (hhi : n ≤ 0x843) : csrName n = some (.mxpeer (n - 0x840)) := by
  unfold csrName
  repeat rw [if_neg (by omega)]
  rw [if_pos ⟨hlo, hhi⟩]

theorem csrName_of_trec {n : Nat} (hlo : 0xCC2 ≤ n) (hhi : n ≤ 0xCC5) : csrName n = some (.trec (n - 0xCC2)) := by
  unfold csrName
  repeat rw [if_neg (by omega)]
  rw [if_pos ⟨hlo, hhi⟩]

theorem csrName_mxpeer {n : Nat} (h : n < 4) : csrName (BitVec.ofNat 12 (0x840 + n)).toNat = some (.mxpeer n) := by
  have hnum : (BitVec.ofNat 12 (0x840 + n)).toNat = 0x840 + n := Nat.mod_eq_of_lt (by omega)
  rw [hnum, csrName_of_mxpeer (by omega) (by omega), Nat.add_sub_cancel_left]

theorem exists_ctlOnly {n : Nat} (h : n = 0x800 ∨ n = 0x801 ∨ (0x840 ≤ n ∧ n ≤ 0x843) ∨ (0xCC2 ≤ n ∧ n ≤ 0xCC6)) :
    ∃ m, csrName n = some m ∧ m.ctlOnly = true := by
  rcases h with rfl | rfl | ⟨hlo, hhi⟩ | ⟨hlo, hhi⟩
  · exact ⟨.tvec, rfl, rfl⟩
  · exact ⟨.tepc, rfl, rfl⟩
  · exact ⟨_, csrName_of_mxpeer hlo hhi, rfl⟩
  · obtain htop | rfl : n ≤ 0xCC5 ∨ n = 0xCC6 := by omega
    · exact ⟨_, csrName_of_trec hlo htop, rfl⟩
    · exact ⟨.tstat, rfl, rfl⟩

theorem exists_readOnly {n : Nat} (h : (0xC00 ≤ n ∧ n ≤ 0xC02) ∨ (0xCC0 ≤ n ∧ n ≤ 0xCC7)) : ∃ m, csrName n = some m ∧ m.writable = false := by
  rcases h with hcount | htile
  · obtain rfl | rfl | rfl : n = 0xC00 ∨ n = 0xC01 ∨ n = 0xC02 := by omega
    · exact ⟨.cycle, rfl, rfl⟩
    · exact ⟨.time, rfl, rfl⟩
    · exact ⟨.instret, rfl, rfl⟩
  · obtain rfl | rfl | ⟨hlo, hhi⟩ | rfl | rfl : n = 0xCC0 ∨ n = 0xCC1 ∨ (0xCC2 ≤ n ∧ n ≤ 0xCC5) ∨ n = 0xCC6 ∨ n = 0xCC7 := by omega
    · exact ⟨.tileId, rfl, rfl⟩
    · exact ⟨.tileTask, rfl, rfl⟩
    · exact ⟨_, csrName_of_trec hlo hhi, rfl⟩
    · exact ⟨.tstat, rfl, rfl⟩
    · exact ⟨.rsv, rfl, rfl⟩

theorem csrName_none {n : Nat} (htvec : n ≠ 0x800) (htepc : n ≠ 0x801) (hpeer : ¬(0x840 ≤ n ∧ n ≤ 0x843)) (hcount : ¬(0xC00 ≤ n ∧ n ≤ 0xC02))
    (htile : ¬(0xCC0 ≤ n ∧ n ≤ 0xCC7)) : csrName n = none := by
  unfold csrName
  repeat rw [if_neg (by omega)]

/-- The machine CSRs are numbered with bits [9:8] at 3, and no device CSR is (log entry 7). -/
theorem csrName_none_of_machine {n : Nat} (h : n / 256 % 4 = 3) : csrName n = none := by
  apply csrName_none <;> omega

theorem csrMachine_none {n : Nat} (h : n / 256 % 4 ≠ 3) : csrMachine n = none := by
  unfold csrMachine csrMstatus csrMtvec csrMepc csrMcause csrMtval
  repeat rw [if_neg (by omega)]

/-! ## The CSRs of a task (R198, R233) -/

theorem readCsr_tileTask {s : State} {k : Task} (h : (s.tile s.ft).task s.fslot = some k) :
    readCsr s .tileTask = BitVec.ofNat 64 (k.lidx * 2 ^ 16 + s.fslot * 2 ^ 8 + k.prio) := by
  rw [readCsr, h]
  rfl

theorem readCsr_rsv {s : State} {k : Task} (h : (s.tile s.ft).task s.fslot = some k) : readCsr s .rsv =
    BitVec.ofNat 64 (k.tbase * 2 ^ 43 + k.tsize * 2 ^ 32 + (if k.ssize = 0 then 0 else bitsOf k.sbase 20 6 * 2 ^ 6)) := by
  rw [readCsr, h]
  rfl

/-! ## What a form writes -/

theorem csrWrite_isSome {k : CsrKind} {src : Reg} (h : k = .rw ∨ k = .rwi ∨ src ≠ 0) (x old : DWord) : (csrWrite k src x old).isSome = true := by
  cases k with
  | rw | rwi => rfl
  | rs | rc | rsi | rci => simpa [csrWrite] using h

/-- The set and clear forms write where their source is not x0, and their immediate not 0. -/
theorem csrWrite_of_update {k : CsrKind} {src : Reg} {x y old : DWord} (hsrc : src ≠ 0)
    (h : k = .rs ∧ y = old ||| x ∨ k = .rc ∧ y = old &&& ~~~x ∨ k = .rsi ∧ y = old ||| src.setWidth 64 ∨
      k = .rci ∧ y = old &&& ~~~(src.setWidth 64)) : csrWrite k src x old = some y := by
  rcases h with ⟨rfl, rfl⟩ | ⟨rfl, rfl⟩ | ⟨rfl, rfl⟩ | ⟨rfl, rfl⟩
  all_goals exact if_neg hsrc

/-! ## The ways a form ends -/

section Ends

variable {s : State} {k : CsrKind} {rd src : Reg} {csr : BitVec 12} {n : CsrName}

theorem exec_csrAccess_device (hname : csrName csr.toNat = some n) : exec (.csrAccess k rd src csr) s = .next
    (if n.ctlOnly && s.fc != 0 then Act.illegal s
      else if (csrWrite k src (s.rx src) (readCsr s n)).isSome && !n.writable then .illegal s
      else .ret (match csrWrite k src (s.rx src) (readCsr s n) with | some x => writeCsr s n x | none => s) rd (readCsr s n)).state := by
  change execCsrAccess k rd src csr s = _
  unfold execCsrAccess
  simp only [hname]
  rfl

theorem exec_csrAccess_read (hname : csrName csr.toNat = some n) (hcore : n.ctlOnly = true → s.fc = 0) :
    exec (.csrAccess .rs rd 0 csr) s = .next (finishRd s rd (readCsr s n)) := by
  have hctl : (n.ctlOnly && s.fc != 0) = false := by simpa using hcore
  rw [exec_csrAccess_device hname, if_neg (by rw [hctl]; simp)]
  rfl

theorem exec_csrAccess_write {x : DWord} (hname : csrName csr.toNat = some n) (hfc : s.fc = 0) (hwritable : n.writable = true)
    (hx : csrWrite k src (s.rx src) (readCsr s n) = some x) :
    exec (.csrAccess k rd src csr) s = .next (finishRd (writeCsr s n x) rd (readCsr s n)) := by
  rw [exec_csrAccess_device hname, hx, if_neg (by simp [hfc]), if_neg (by simp [hwritable])]
  rfl

theorem exec_csrAccess_other_core (hname : csrName csr.toNat = some n) (hctl : n.ctlOnly = true) (hfc : s.fc ≠ 0) :
    exec (.csrAccess k rd src csr) s = .next (illegalAt s) := by
  rw [exec_csrAccess_device hname, if_pos (by simp [hctl, hfc])]
  rfl

theorem exec_csrAccess_readOnly (hname : csrName csr.toNat = some n) (hread : n.writable = false) (h : k = .rw ∨ k = .rwi ∨ src ≠ 0) :
    exec (.csrAccess k rd src csr) s = .next (illegalAt s) := by
  rw [exec_csrAccess_device hname, if_pos (c := _ && !n.writable) (by simp [csrWrite_isSome h, hread]), ite_self]
  rfl

theorem exec_csrAccess_undefined (hname : csrName csr.toNat = none) (h : s.cur.machine = false ∨ csrMachine csr.toNat = none) :
    exec (.csrAccess k rd src csr) s = .next (illegalAt s) := by
  have hcond : (!s.cur.machine || (csrMachine csr.toNat).isNone) = true := by
    rcases h with h | h <;> simp [h]
  change execCsrAccess k rd src csr s = _
  unfold execCsrAccess
  simp only [hname, hcond, if_true]
  rfl

/-- A write of a machine CSR that is read-only is `ILLEGAL` in both modes. -/
theorem exec_csrAccess_machine_readOnly (hname : csrName csr.toNat = none) (hread : csrReadOnly csr.toNat = true) :
    exec (.csrAccess .rw rd src csr) s = .next (illegalAt s) := by
  change execCsrAccess .rw rd src csr s = _
  unfold execCsrAccess
  simp only [hname, hread, csrWrite, Option.isSome_some, Bool.and_self, if_true, ite_self]
  rfl

theorem exec_csrAccess_machine_write (hname : csrName csr.toNat = none) (hmachine : s.cur.machine = true)
    (hcsr : (csrMachine csr.toNat).isSome = true) (hwrite : csrReadOnly csr.toNat = false) :
    exec (.csrAccess .rw rd src csr) s = .next (finishRd (writeMach s csr.toNat (s.rx src)) rd (readMach s csr.toNat)) := by
  have hcond : (!s.cur.machine || (csrMachine csr.toNat).isNone) = false := by simp [hmachine, Option.isNone_eq_false_iff.mpr hcsr]
  change execCsrAccess .rw rd src csr s = _
  unfold execCsrAccess
  simp only [hname, hcond, hwrite]
  rfl

end Ends

/-! ## What a write leaves (R182, R198) -/

theorem coreKept_writeCsr (s : State) (n : CsrName) (x : DWord) : CoreKept s (writeCsr s n x) := by
  refine .of_tile rfl ?_ rfl rfl
  rw [writeCsr, State.tile_modTile_same]
  cases n <;> rfl

/-- A form that writes gives the old value, and leaves the CSRs as the write leaves them. -/
theorem csrAccess_writes {s : State} {k : CsrKind} {src : Reg} {csr : BitVec 12} {n : CsrName} {x : DWord} (rd : Reg)
    (hname : csrName csr.toNat = some n) (hfc : s.fc = 0) (hwritable : n.writable = true)
    (hx : csrWrite k src (s.rx src) (readCsr s n) = some x) :
    ∃ t : State, exec (.csrAccess k rd src csr) s = .next t ∧ (t.tile s.ft).csr = ((writeCsr s n x).tile s.ft).csr ∧
      t.cur = (s.cur.wx rd (readCsr s n)).advance :=
  ⟨_, exec_csrAccess_write hname hfc hwritable hx, by rw [tile_finishRd (coreKept_writeCsr s n x).focus, Tile.modCore_csr],
    ((coreKept_writeCsr s n x).returns rd _).core⟩

theorem csr_writeCsr_tvec (s : State) (x : DWord) : ((writeCsr s .tvec x).tile s.ft).csr = { (s.tile s.ft).csr with tvec := x &&& 0xFFFF } := by
  rw [writeCsr, State.tile_modTile_same]
  rfl

theorem csr_writeCsr_tepc (s : State) (x : DWord) : ((writeCsr s .tepc x).tile s.ft).csr = { (s.tile s.ft).csr with tepc := x } := by
  rw [writeCsr, State.tile_modTile_same]

theorem csr_writeCsr_mxpeer (s : State) (n : Nat) (x : DWord) : ((writeCsr s (.mxpeer n) x).tile s.ft).csr =
    { (s.tile s.ft).csr with mxpeer := mapSet 0 (s.tile s.ft).csr.mxpeer n (x &&& 0x8000FF83) } := by
  rw [writeCsr, State.tile_modTile_same]
  rfl

theorem cur_machine_scratch_write (s : State) (rd : Reg) (x v : DWord) : (finishRd (writeMach s 0x340 x) rd v).cur =
    (({ s.cur with mcsr := mapSet 0 s.cur.mcsr 0x340 x } : Core).wx rd v).advance := by
  have hwrite : writeMach s 0x340 x = s.modCur (fun c => { c with mcsr := mapSet 0 c.mcsr 0x340 (x &&& BitVec.allOnes 64) }) := rfl
  rw [finishRd, finish, State.cur_modCur, State.cur_wx, hwrite, State.cur_modCur, BitVec.and_allOnes]

theorem toNat_ne_of_ne_ofNat {n : BitVec 12} {m : Nat} (hm : m < 2 ^ 12) (h : n ≠ BitVec.ofNat 12 m) : n.toNat ≠ m :=
  fun e => h (BitVec.eq_of_toNat_eq (e.trans (Nat.mod_eq_of_lt hm).symm))

/-- Settles O16: each clause is a way in which a form ends, at the number the clause names. -/
theorem csrAccess : Obligations.CsrAccess := by
  unfold Obligations.CsrAccess
  refine ⟨?counters, ?control, ?writeTvec, ?writeTepc, ?writePeer, ?updateTvec, ?updateTepc, ?updatePeer, ?otherCore, ?readOnly, ?undefined,
    ?userMode, ?scratch, ?noMachine, ?identity⟩
  case counters =>
    intro s rd
    refine ⟨exec_csrAccess_read (n := .cycle) rfl (by simp [CsrName.ctlOnly]), exec_csrAccess_read (n := .time) rfl (by simp [CsrName.ctlOnly]),
      exec_csrAccess_read (n := .instret) rfl (by simp [CsrName.ctlOnly]), exec_csrAccess_read (n := .tileId) rfl (by simp [CsrName.ctlOnly]),
      fun k hk => ?_, fun k hk hsize => ?_, fun k hk hsize => ?_⟩
    · rw [exec_csrAccess_read (n := .tileTask) rfl (by simp [CsrName.ctlOnly]), readCsr_tileTask hk]
    · rw [exec_csrAccess_read (n := .rsv) rfl (by simp [CsrName.ctlOnly]), readCsr_rsv hk, if_pos hsize, Nat.add_zero]
    · rw [exec_csrAccess_read (n := .rsv) rfl (by simp [CsrName.ctlOnly]), readCsr_rsv hk, if_neg hsize]
      rfl
  case control =>
    intro s rd hfc
    have read {csr : BitVec 12} {n : CsrName} (hname : csrName csr.toNat = some n) :
        exec (.csrAccess .rs rd 0 csr) s = .next (finishRd s rd (readCsr s n)) := exec_csrAccess_read hname fun _ => hfc
    exact ⟨read (n := .tvec) rfl, read (n := .tepc) rfl, read (n := .trec 0) rfl, read (n := .trec 1) rfl, read (n := .trec 2) rfl,
      read (n := .trec 3) rfl, read (n := .tstat) rfl, fun n hn => read (n := .mxpeer n) (csrName_mxpeer hn)⟩
  case writeTvec =>
    intro s rd src hfc
    rw [← csr_writeCsr_tvec]
    exact csrAccess_writes (n := .tvec) rd rfl hfc rfl rfl
  case writeTepc =>
    intro s rd src hfc
    rw [← csr_writeCsr_tepc]
    exact csrAccess_writes (n := .tepc) rd rfl hfc rfl rfl
  case writePeer =>
    intro s rd src n hfc hn
    obtain ⟨t, hexec, hcsr, hcur⟩ := csrAccess_writes (k := .rw) (src := src) rd (csrName_mxpeer hn) hfc rfl rfl
    rw [csr_writeCsr_mxpeer] at hcsr
    exact ⟨t, hexec, by rw [hcsr, mapGet_mapSet_same], by rw [hcsr], hcur⟩
  case updateTvec =>
    intro s k rd src x hfc hsrc hx
    rw [← csr_writeCsr_tvec]
    exact csrAccess_writes (n := .tvec) rd rfl hfc rfl (csrWrite_of_update hsrc hx)
  case updateTepc =>
    intro s k rd src x hfc hsrc hx
    rw [← csr_writeCsr_tepc]
    exact csrAccess_writes (n := .tepc) rd rfl hfc rfl (csrWrite_of_update hsrc (hx.imp_right .inl))
  case updatePeer =>
    intro s k rd src n x hfc hn hsrc hx
    obtain ⟨t, hexec, hcsr, hcur⟩ := csrAccess_writes rd (csrName_mxpeer hn) hfc rfl (csrWrite_of_update hsrc (hx.imp_right .inl))
    rw [csr_writeCsr_mxpeer] at hcsr
    exact ⟨t, hexec, by rw [hcsr, mapGet_mapSet_same], hcur⟩
  case otherCore =>
    intro s k rd src n hfc hn
    obtain ⟨m, hname, hctl⟩ := exists_ctlOnly (n := n.toNat) (hn.imp (congrArg _) (Or.imp_left (congrArg _)))
    exact exec_csrAccess_other_core hname hctl hfc
  case readOnly =>
    intro s k rd src n hn h
    obtain ⟨m, hname, hread⟩ := exists_readOnly hn
    exact exec_csrAccess_readOnly hname hread h
  case undefined =>
    intro s k rd src n hmach htvec htepc hpeer hcount htile
    exact exec_csrAccess_undefined (csrName_none (toNat_ne_of_ne_ofNat (by decide) htvec) (toNat_ne_of_ne_ofNat (by decide) htepc) hpeer hcount htile)
      (.inr (csrMachine_none hmach))
  case userMode =>
    intro s k rd src n hmode hn
    exact exec_csrAccess_undefined (csrName_none_of_machine hn) (.inl hmode)
  case scratch =>
    intro s rd src hmode
    refine ⟨finishRd (writeMach s 0x340 (s.rx src)) rd (mapGet 0 s.cur.mcsr 0x340),
      exec_csrAccess_machine_write (csr := 0x340) rfl hmode rfl rfl, ?_, ?_, ?_, fun hrd => ?_⟩
    · rw [cur_machine_scratch_write, Core.advance_mcsr, Core.wx_mcsr, mapGet_mapSet_same]
    · rw [cur_machine_scratch_write, Core.advance_machine, Core.wx_machine, hmode]
    · rw [cur_machine_scratch_write, Core.advance_pc, Core.wx_pc, Core.wx_ilen, nextPc]
    · rw [State.rx, cur_machine_scratch_write]
      exact (Core.rx_wx _ rd rd _).trans (by rw [if_neg hrd, if_pos rfl])
  case noMachine =>
    intro s k rd src n hn
    rcases hn with hn | hn | hn
    all_goals exact exec_csrAccess_undefined (csrName_none_of_machine (by omega)) (.inr (by rw [hn]; rfl))
  case identity =>
    intro s rd src n hlo hhi
    exact exec_csrAccess_machine_readOnly (csrName_none_of_machine (by omega)) (by simp [csrReadOnly, bitsOf]; omega)

end Sys2Proof.CsrForms
end

section
/-! SUPPORT. The records of a task, writes that it sees complete, and where the sequencer goes behind a row. -/

namespace Sys2Proof.Machine

/-! ## Records (R246, R249, R270) -/

/-- The oldest record of a task that passes a test. -/
theorem find?_taskRecords {v : Tile} {slot i : Nat} {r : EvRec} {p : EvRec → Bool} (hi : v.events[i]? = some r) (hslot : r.slot = slot)
    (hp : p r = true) (hold : ∀ j q, j < i → v.events[j]? = some q → ¬(q.slot = slot ∧ p q = true)) :
    (taskRecords v slot).find? (fun e => p e.1) = some (r, i) := by
  obtain ⟨hlt, hget⟩ := List.getElem?_eq_some_iff.mp hi
  rw [taskRecords, List.find?_filter, List.find?_eq_some_iff_getElem]
  refine ⟨by simp [hslot, hp], i, by simpa using hlt, by simp [hget], fun j hj => ?_⟩
  have := hold j _ hj (List.getElem?_eq_getElem (Nat.lt_trans hj hlt))
  rw [Bool.not_eq_true', ← Bool.not_eq_true]
  simpa using this

theorem find?_taskRecords_none {v : Tile} {slot : Nat} {p : EvRec → Bool} (h : ∀ q ∈ v.events, ¬(q.slot = slot ∧ p q = true)) :
    (taskRecords v slot).find? (fun e => p e.1) = none := by
  rw [taskRecords, List.find?_filter, List.find?_eq_none]
  intro e he
  simpa using h e.1 (List.fst_mem_of_mem_zipIdx he)

/-- A record finds room in the queue where it is not full and no record is held before it (R246). -/
theorem Tile.event_of_room {v : Tile} (r : EvRec) (hlen : v.events.length < 256) (hpending : v.pending = []) :
    v.event r = { v with events := v.events ++ [r] } := if_pos (by simp [hlen, hpending])

theorem newest_map (f : PWrite → PWrite) (hf : ∀ w, (f w).addr = w.addr ∧ (f w).bytes = w.bytes) (b : Byte) (ws : List PWrite) (a : Nat) :
    newest (fun _ => true) b (ws.map f) a = newest (fun _ => true) b ws a := by
  induction ws generalizing b with
  | nil => rfl
  | cons w ws ih =>
    obtain ⟨haddr, hbytes⟩ := hf w
    rw [List.map_cons, newest_all_cons, newest_all_cons, ih, PWrite.covers, PWrite.covers, haddr, hbytes]

/-- A task that sees the completion of writes changes no byte at its home. -/
theorem State.homeByte_markSeen (s : State) (task : Nat × Nat) (cls : Nat) (p : Nat → Bool) (a : Nat) :
    (s.markSeen task cls p).homeByte a = s.homeByte a :=
  newest_map _ (fun w => by split <;> exact ⟨rfl, rfl⟩) _ s.writes a

/-! ## The sequencer (R185, R187) -/

theorem Mx.leave_of_none {m : Mx} (h : m.wind = none) (m' : Mx) : m.leave m' = m' := by
  rw [Mx.leave, h]

/-- The loop row of a level repeats its body while the level's counter is below the iterations, and leaves the other level's counter. -/
theorem Mx.loop_eq (m : Mx) (target iter : Nat) (inner : Bool) :
    (m.loop target inner iter).row = (if (if inner then m.n0 else m.n1) + 1 ≤ iter then target else m.row + 1) ∧
    (m.loop target inner iter).n0 = (if inner then (if m.n0 + 1 ≤ iter then m.n0 + 1 else 0) else m.n0) ∧
    (m.loop target inner iter).n1 = (if inner then m.n1 else (if m.n1 + 1 ≤ iter then m.n1 + 1 else 0)) ∧
    (m.loop target inner iter).busy = m.busy := by
  cases inner <;> simp [Mx.loop, Mx.goTo]

/-- Of the rows begun behind a row that trapped, the last ends the block. -/
theorem Mx.next_of_last {m : Mx} {w : Wind} (h : m.wind = some w) (hleft : w.left ≤ 1) :
    m.next = { m with busy := false, wind := none, prog := ⟨0, 0, none⟩ } := by
  rw [Mx.next, Mx.leave, h]
  exact if_pos hleft

theorem Mx.next_of_more {m : Mx} {w : Wind} (h : m.wind = some w) (hleft : 2 ≤ w.left) :
    m.next = { m.goTo (m.row + 1) with wind := some { w with left := w.left - 1 } } := by
  rw [Mx.next, Mx.leave, h]
  exact if_neg (Nat.not_le.mpr hleft)

end Sys2Proof.Machine
end

section
/-! PROOF. Blocks of the matrix sequencer (R173 to R176, R180 to R187, R244 to R247). -/

namespace Sys2Proof.MatrixBlocks

open Sys2Proof.Machine Sys2Proof.Spec Sys2Proof.MatrixRows

/-! ## `mx.issue` (R244) -/

theorem issue_fields {x first : Nat} {u : Word} (hfirst : first < 32) (hx : x = first + 2 ^ 32 * u.toNat) :
    bitsOf x 31 5 = 0 ∧ bitsOf x 4 0 = first ∧ BitVec.ofNat 32 (bitsOf x 63 32) = u := by
  have hu := u.isLt
  have hhigh : bitsOf x 63 32 = u.toNat := by
    simp only [bitsOf]
    omega
  refine ⟨?_, ?_, by rw [hhigh, BitVec.ofNat_toNat, BitVec.setWidth_eq]⟩
  · simp only [bitsOf]
    omega
  · simp only [bitsOf]
    omega

theorem exec_mxIssue {s : State} {a : Reg} {first : Nat} {u : Word} (hfc : s.fc = 0) (hfirst : first < 32)
    (hx : s.rn a = first + 2 ^ 32 * u.toNat) : exec (.mxIssue a) s = .next (
      if (s.tile s.ft).fabric.active.isNone then Act.resource s
      else if !(s.tile s.ft).fabric.matrix then .trap (Rej.trap ⟨2, 0, 0, 0, 24⟩ 0) s
      else if (s.tile s.ft).fabric.act.steps.length ≤ first then .trap (Rej.trap ⟨2, 0, 0, 0, 80⟩ 0) s
      else if (s.tile s.ft).mx.busy then .wait s
      else .done (s.modTile s.ft (fun v => startBlock v first u))).state := by
  obtain ⟨hreserved, hrow, htag⟩ := issue_fields hfirst hx
  change execMxIssue a s = _
  unfold execMxIssue
  simp only [ctlOnly, hfc, hreserved, hrow, htag]
  rfl

section Resident

variable {s : State} {a : Reg} {first : Nat} {u : Word}

theorem exec_mxIssue_idle (hfc : s.fc = 0) (hfirst : first < 32) (hx : s.rn a = first + 2 ^ 32 * u.toNat)
    (hactive : (s.tile s.ft).fabric.active ≠ none) (hmatrix : (s.tile s.ft).fabric.matrix = true)
    (hlen : first < (s.tile s.ft).fabric.act.steps.length) (hidle : (s.tile s.ft).mx.busy = false) :
    exec (.mxIssue a) s = .next (finish (s.modTile s.ft (fun v => startBlock v first u))) := by
  rw [exec_mxIssue hfc hfirst hx, if_neg (by simpa using hactive), if_neg (by simp [hmatrix]), if_neg (Nat.not_le.mpr hlen),
    if_neg (by simp [hidle])]
  rfl

theorem exec_mxIssue_busy (hfc : s.fc = 0) (hfirst : first < 32) (hx : s.rn a = first + 2 ^ 32 * u.toNat)
    (hactive : (s.tile s.ft).fabric.active ≠ none) (hmatrix : (s.tile s.ft).fabric.matrix = true)
    (hlen : first < (s.tile s.ft).fabric.act.steps.length) (hbusy : (s.tile s.ft).mx.busy = true) :
    exec (.mxIssue a) s = .next (blockCore s) := by
  rw [exec_mxIssue hfc hfirst hx, if_neg (by simpa using hactive), if_neg (by simp [hmatrix]), if_neg (Nat.not_le.mpr hlen), if_pos hbusy]
  rfl

end Resident

theorem coreKept_startBlock (s : State) (first : Nat) (u : Word) : CoreKept s (s.modTile s.ft (fun v => startBlock v first u)) :=
  .of_tile rfl (by rw [State.tile_modTile_same]; rfl) rfl rfl

theorem tile_finish_startBlock (s : State) (first : Nat) (u : Word) :
    (finish (s.modTile s.ft (fun v => startBlock v first u))).tile s.ft = (startBlock (s.tile s.ft) first u).modCore s.fc Core.advance := by
  rw [tile_finish (coreKept_startBlock s first u).focus, State.tile_modTile_same]

/-! ## `mx.wait` (R245) -/

/-- The state in which a task has taken a record of a block that it awaited. -/
def taken (s : State) (i x : Nat) : State := (dropRecord s i).markSeen (s.ft, s.fslot) kMATRIX (fun o => o == x)

theorem tile_taken (s : State) (i x : Nat) : (taken s i x).tile s.ft = { s.tile s.ft with events := (s.tile s.ft).events.eraseIdx i } :=
  State.tile_modTile_same s s.ft (fun v => { v with events := v.events.eraseIdx i })

theorem cur_taken (s : State) (i x : Nat) : (taken s i x).cur = s.cur := by
  have htile := tile_taken s i x
  exact (congrArg (fun v : Tile => v.core s.fc) htile).trans rfl

theorem returns_taken (s : State) (i x : Nat) (d : Reg) : Returns s (finishRd (taken s i x) d 0) d 0 where
  core := by simp [finishRd, finish, cur_taken]
  mem := rfl
  home a := State.homeByte_markSeen (dropRecord s i) (s.ft, s.fslot) kMATRIX (fun o => o == x) a

theorem events_finishRd_taken (s : State) (i x : Nat) (d : Reg) (v : DWord) :
    ((finishRd (taken s i x) d v).tile s.ft).events = (s.tile s.ft).events.eraseIdx i := by
  rw [tile_finishRd (show (taken s i x).focus = s.focus from rfl), Tile.modCore_events, tile_taken]

section Wait

variable {s : State} {d a : Reg}

theorem exec_mxWait (hfc : s.fc = 0) (hx : s.rn a < 2 ^ 32) : exec (.mxWait d a) s = .next (
    if (s.tile s.ft).mx.busy || (s.tile s.ft).pending.any (fun r => r.cls == 4 && r.slot == s.fslot) then Act.wait s
    else match (taskRecords (s.tile s.ft) s.fslot).find? (fun e => e.1.cls == 4 && e.1.tag == BitVec.ofNat 32 (s.rn a)) with
    | some (_, i) => .ret (taken s i (s.rn a)) d 0
    | none => .ret s d 1).state := by
  change execMxWait d a s = _
  unfold execMxWait
  simp only [ctlOnly, hfc, if_neg (Nat.not_le.mpr hx)]
  rfl

theorem exec_mxWait_found {i : Nat} {r : EvRec} (hfc : s.fc = 0) (hx : s.rn a < 2 ^ 32) (hidle : (s.tile s.ft).mx.busy = false)
    (hpending : (s.tile s.ft).pending = []) (hfind : (taskRecords (s.tile s.ft) s.fslot).find?
      (fun e => e.1.cls == 4 && e.1.tag == BitVec.ofNat 32 (s.rn a)) = some (r, i)) :
    exec (.mxWait d a) s = .next (finishRd (taken s i (s.rn a)) d 0) := by
  rw [exec_mxWait hfc hx, if_neg (by simp [hidle, hpending]), hfind]
  rfl

theorem exec_mxWait_none (hfc : s.fc = 0) (hx : s.rn a < 2 ^ 32) (hidle : (s.tile s.ft).mx.busy = false)
    (hpending : (s.tile s.ft).pending = []) (hfind : (taskRecords (s.tile s.ft) s.fslot).find?
      (fun e => e.1.cls == 4 && e.1.tag == BitVec.ofNat 32 (s.rn a)) = none) :
    exec (.mxWait d a) s = .next (finishRd s d 1) := by
  rw [exec_mxWait hfc hx, if_neg (by simp [hidle, hpending]), hfind]
  rfl

end Wait

/-! ## Loops (R185) -/

theorem exec_msLoop {s : State} {t : Nat} {target : BitVec 5} {lvl : BitVec 1} {iter dk dm : BitVec 16} {da : BitVec 11} {dw : BitVec 13}
    {di : BitVec 24} {dd : BitVec 15} (hrow : (s.tile t).stepRow = some (.loop target lvl iter dk dm da dw di dd)) :
    exec (.msLoop t) s = .next (modMx s t (fun m => m.leave (m.loop target.toNat (lvl == 0) iter.toNat))) := by
  change execMsLoop t s = _
  unfold execMsLoop
  rw [hrow]

/-! ## Zero (R180) -/

theorem exec_msZero {s : State} {t a : Nat} {abase cnt : BitVec 10} {ak : BitVec 1} (hrow : (s.tile t).stepRow = some (.zero abase cnt ak))
    (hacc : (s.tile t).effAcc abase.toNat cnt.toNat = .ok a) : exec (.msZero t) s =
      .next (mxNext ((List.range' 0 (cnt.toNat + 1)).foldl (putRow t a (fun _ => AccRow.zeroOf (ak == 1))) (mxTick s t)) t) := by
  change execMsZero t s = _
  unfold execMsZero
  simp only [hrow, hacc, List.range_eq_range']
  rfl

/-! ## Fences and receives (R184) -/

section Wait

variable {s : State} {t : Nat} {abase cnt : BitVec 10} {slot pidx kind : BitVec 2} {limit : BitVec 24}

theorem exec_msWait_fence (hrow : (s.tile t).stepRow = some (.wait 1 abase cnt slot pidx limit)) :
    exec (.msWait t) s = .next (mxNext (mxTick s t) t) := by
  change execMsWait t s = _
  unfold execMsWait
  simp only [hrow, if_true]

theorem exec_msWait_receive {a : Nat} {p : Nat × Nat} (hrow : (s.tile t).stepRow = some (.wait kind abase cnt slot pidx limit)) (hkind : kind ≠ 1)
    (hacc : (s.tile t).effAcc abase.toNat cnt.toNat = .ok a) (hpeer : (s.tile t).rowPeer t pidx.toNat = .ok p) :
    exec (.msWait t) s = .next (peerNamed s t p) := by
  change execMsWait t s = _
  unfold execMsWait
  simp only [hrow, if_neg hkind, hacc, hpeer]
  rfl

theorem exec_msWaitExpiry (hrow : (s.tile t).stepRow = some (.wait 0 abase cnt slot pidx limit)) (hlimit : limit ≠ 0)
    (hover : limit.toNat * 256 ≤ (s.tile t).mx.prog.waited) : exec (.msWaitExpiry t) s =
      .next (mxTrap s t (s.tile t).mx.prog.rowsDone ⟨cWAITEXP, 6, (s.tile t).mx.prog.rowsDone, false⟩) := by
  change execMsWaitExpiry t s = _
  unfold execMsWaitExpiry
  simp only [hrow]
  rw [if_pos ⟨trivial, hlimit, hover⟩]

theorem exec_drainStallExpiry {clr : BitVec 1} {daddr : BitVec 15} {dfmt : BitVec 6} {rnd : BitVec 2} {sat : BitVec 1}
    (hrow : (s.tile t).stepRow = some (.drain 1 clr abase cnt daddr dfmt rnd sat pidx limit)) (hlimit : limit ≠ 0)
    (hover : limit.toNat * 256 < (s.tile t).mx.prog.waited) :
    exec (.drainStallExpiry t) s = .next (mxTrap s t (s.tile t).mx.prog.rowsDone ⟨cWAITEXP, 5, 0, false⟩) := by
  have hne : limit.toNat ≠ 0 := fun h => hlimit (BitVec.eq_of_toNat_eq h)
  have hmx : mxOver (s.tile t) limit.toNat = true := by simp [mxOver, hne, hover]
  change execDrainStallExpiry t s = _
  unfold execDrainStallExpiry
  simp only [hrow]
  rw [if_pos ⟨trivial, hmx⟩]

end Wait

/-! ## A row that traps (R187) -/

/-- The sequencer when a row traps and the rows given had begun behind it. -/
def stopped (m : Mx) (x : StepRow) (last : Nat) (k : SteepKeys) : List Nat → Mx
  | [] => { m with busy := false, prog := ⟨0, 0, none⟩ }
  | r :: rs => { m.after x with wind := some ⟨(r :: rs).length, last, k⟩ }

theorem stopped_of_length_pos {m : Mx} {x : StepRow} {last : Nat} {k : SteepKeys} {rows : List Nat} (h : 0 < rows.length) :
    stopped m x last k rows = { m.after x with wind := some ⟨rows.length, last, k⟩ } := by
  cases rows with
  | nil => exact absurd h (Nat.lt_irrefl 0)
  | cons r rs => rfl

/-- How many of the rows that may have begun had begun is a free value (log entry 51). -/
theorem mxTrap_eq {s : State} {t : Nat} {x : StepRow} (hrow : (s.tile t).stepRow = some x) (hwind : (s.tile t).mx.wind = none) (sub : Nat) (tr : Trap)
    {rows : List Nat} {last : Nat} (hrows : (begun s t).take (s.draw.1 % ((begun s t).length + 1)) = rows)
    (hlast : rows.getLastD (s.tile t).mx.row = last) : mxTrap s t sub tr =
      raiseTrap (modMx s.draw.2 t (fun m => stopped m x last (s.ext t (s.slot t)).steep rows)) t (s.slot t) 3
        (w1Seq (s.tile t).mx.row sub last) tr := by
  unfold mxTrap
  simp only [hwind, hrow, hrows, hlast]
  cases rows <;> rfl

section Begun

variable {s : State} {t : Nat} {x y : StepRow}

/-- The tile with the sequencer behind a row. -/
def behind (v : Tile) (x : StepRow) : Tile := { v with mx := v.mx.after x }

theorem begun_eq (hx : (s.tile t).stepRow = some x) (hy : (behind (s.tile t) x).stepRow = some y) :
    begun s t = if overlapOk s t (s.tile t) (behind (s.tile t) x) x y then
      (behind (s.tile t) x).mx.row :: (if y = .fin then []
        else mayBegin s t (s.tile t) x 4095 (behind (behind (s.tile t) x) y)) else [] := by
  unfold begun
  simp only [hx]
  change mayBegin s t (s.tile t) x (4095 + 1) (behind (s.tile t) x) = _
  rw [mayBegin, hy]
  rfl

theorem overlapOk_same_unit {vx vy : Tile} (h : stepUnit x = stepUnit y) (hy : stepUnit y ≠ 4) : overlapOk s t vx vy x y = false := by
  simp [overlapOk, h, hy]

end Begun

/-! ## The end of a block (R186) -/

section End

variable {s : State} {t : Nat}

theorem exec_msEnd_winding (hrow : (s.tile t).stepRow = some .fin) (hwind : (s.tile t).mx.wind ≠ none) :
    exec (.msEnd t) s = .next (mxNext s t) := by
  change execMsEnd t s = _
  unfold execMsEnd
  simp only [hrow, Option.isSome_iff_ne_none.mpr hwind, if_true]

/-- The row of the end, and the cycles of the block above it (R247). -/
def endPayload (s : State) (t : Nat) : Nat :=
  (s.tile t).mx.row + 2 ^ 32 * ((((mxTick s t).tile t).cycle - (s.tile t).mx.startCycle) % 2 ^ 32)

theorem endPayload_mod (s : State) (t : Nat) : endPayload s t % 2 ^ 32 = (s.tile t).mx.row % 2 ^ 32 := by
  rw [endPayload, Nat.add_mul_mod_self_left]

/-- The class-4 record of a block that ends. -/
def endRecord (s : State) (t : Nat) : EvRec := ⟨4, s.slot t, 3, (s.tile t).mx.utag, BitVec.ofNat 64 (endPayload s t)⟩

/-- The sequencer is idle and its block's record written. -/
def ended (s : State) (t : Nat) : State := (modMx (mxTick s t) t (fun m => { m with busy := false })).event t (endRecord s t)

theorem exec_msEnd (hrow : (s.tile t).stepRow = some .fin) (hwind : (s.tile t).mx.wind = none) : exec (.msEnd t) s = .next (ended s t) := by
  change execMsEnd t s = _
  unfold execMsEnd
  simp only [hrow, hwind]
  rfl

theorem mem_ended (s : State) (t : Nat) : (ended s t).mem = s.mem := by
  rw [ended, State.event, State.modTile_mem, mem_modMx, mem_mxTick]

theorem tile_ended (hlen : (s.tile t).events.length < 256) (hpending : (s.tile t).pending = []) : (ended s t).tile t =
    { tickTile (s.tile t) (s.draw.1 + 1) with
      mx := { (s.tile t).mx with busy := false }
      events := (s.tile t).events ++ [endRecord s t] } := by
  rw [ended, State.event, State.tile_modTile_same, tile_modMx, tile_mxTick]
  exact Tile.event_of_room _ hlen hpending

end End

/-- Settles O44: each form and each row has one end, a row that traps leaves the sequencer `stopped`, and no row of its unit begins behind it. -/
theorem matrixBlocks : Obligations.MatrixBlocks := by
  unfold Obligations.MatrixBlocks
  refine ⟨?issue, ?await, ?loop, ?zero, ?wait, ?stall, ?trap, ?begun, ?winding, ?endWinding, ?record⟩
  case issue =>
    intro s a first u hfc hfirst hx
    refine ⟨fun hnone => ?_, fun hactive hmatrix hlen => ?_⟩
    · rw [exec_mxIssue hfc hfirst hx, if_pos (by simp [hnone])]
      rfl
    · refine ⟨fun hidle => ?_, fun hbusy => ⟨_, exec_mxIssue_busy hfc hfirst hx hactive hmatrix hlen hbusy, blocks_blockCore s⟩⟩
      refine ⟨_, exec_mxIssue_idle hfc hfirst hx hactive hmatrix hlen hidle, (coreKept_startBlock s first u).completes, ?_⟩
      simp only [tile_finish_startBlock, Tile.modCore_mx, Tile.modCore_acc]
      exact ⟨rfl, rfl, rfl, rfl, rfl, rfl⟩
  case await =>
    intro s d a hfc hx
    refine ⟨fun hbusy => ?_, fun hidle hpending => ⟨fun i r hi hslot hcls htag hold => ?_, fun hnone => ?_⟩⟩
    · rw [exec_mxWait hfc hx, if_pos (by simp [hbusy])]
      exact ⟨_, rfl, blocks_blockCore s⟩
    · have hfind := find?_taskRecords (p := fun r => r.cls == 4 && r.tag == BitVec.ofNat 32 (s.rn a)) hi hslot (by simp [hcls, htag])
        fun j q hj hq => by simpa using hold j q hj hq
      exact ⟨_, exec_mxWait_found hfc hx hidle hpending hfind, returns_taken s i _ d, events_finishRd_taken s i _ d 0⟩
    · have hfind := find?_taskRecords_none (p := fun r => r.cls == 4 && r.tag == BitVec.ofNat 32 (s.rn a)) fun q hq => by simpa using hnone q hq
      exact exec_mxWait_none hfc hx hidle hpending hfind
  case loop =>
    intro s t target lvl iter dk dm da dw di dd n hrow hwind hn
    obtain ⟨hnext, hn0, hn1, hbusy⟩ := Mx.loop_eq (s.tile t).mx target.toNat iter.toNat (lvl == 0)
    refine ⟨_, exec_msLoop hrow, ?_⟩
    rw [tile_modMx, Mx.leave_of_none hwind]
    simp only [hnext, hn0, hn1, hbusy, busy_of_stepRow hrow, mem_modMx, hn, beq_iff_eq]
    by_cases hlvl : lvl = 0
    · simp only [if_pos hlvl, and_self]
    · simp only [if_neg hlvl, and_self]
  case zero =>
    intro s t a abase cnt ak hrow hwind hacc
    have hmx := (mx_foldl_putRow t a (fun _ => AccRow.zeroOf (ak == 1)) (List.range' 0 (cnt.toNat + 1)) (mxTick s t)).trans
      (by rw [tile_mxTick]; rfl : _ = (s.tile t).mx)
    refine ⟨_, exec_msZero hrow hacc, ?_, ?_, fun i hi => ?_, fun k hk => ?_⟩
    · rw [tile_mxNext, hmx]
      exact Mx.row_next hwind
    · exact foldl_keeps (p := State.mem) (f := putRow t a _) (fun s j => putAcc_keeps offTiles_mem s t (a + j) _) _ (mxTick s t)
    · rw [tile_mxNext]
      exact accRow_foldl_putRow _ (mem_range'_zero.mpr hi) _
    · rw [tile_mxNext]
      refine (accRow_foldl_putRow_outside _ (fun j hj => ?_) _).trans (by rw [tile_mxTick]; rfl)
      have := mem_range'_zero.mp hj
      omega
  case wait =>
    intro s t kind abase cnt slot pidx limit hrow
    refine ⟨fun hkind hwind => ?fence, fun a p hkind hacc hpeer => ?receive, fun hkind hlimit hover => ?expiry⟩
    case fence =>
      subst hkind
      refine ⟨_, exec_msWait_fence hrow, ?_⟩
      rw [tile_mxNext, tile_mxTick]
      exact ⟨Mx.row_next hwind, rfl, mem_mxTick s t⟩
    case receive =>
      obtain ⟨k, n, htile⟩ := tile_peerNamed s t p
      refine ⟨_, exec_msWait_receive hrow hkind hacc hpeer, ?_⟩
      rw [htile]
      exact ⟨rfl, rfl, rfl, rfl, mem_peerNamed s t p⟩
    case expiry =>
      subst hkind
      exact exec_msWaitExpiry hrow hlimit hover
  case stall =>
    intro s t clr abase cnt daddr dfmt rnd sat pidx limit hrow hlimit hover
    exact exec_drainStallExpiry hrow hlimit hover
  case trap =>
    intro s t sub x tr hrow hwind
    have hlt : s.draw.1 % ((begun s t).length + 1) < (begun s t).length + 1 := Nat.mod_lt _ (Nat.succ_pos _)
    have hlen : ((begun s t).take (s.draw.1 % ((begun s t).length + 1))).length = s.draw.1 % ((begun s t).length + 1) :=
      List.length_take_of_le (Nat.le_of_lt_succ hlt)
    refine ⟨_, _, mxTrap_eq hrow hwind sub tr rfl rfl, Nat.le_of_lt_succ hlt, ?_⟩
    rw [tile_modMx]
    refine ⟨fun h0 => ?_, fun hpos => ?_, rfl, rfl, rfl⟩
    · rw [h0, List.take_zero]
      exact ⟨rfl, hwind⟩
    · exact (stopped_of_length_pos (by rwa [hlen])).trans (by rw [hlen]; rfl)
  case begun =>
    intro s t x y hx hy
    rw [begun_eq hx hy]
    refine ⟨fun hunit hy4 => ?_, fun k hk => ?_⟩
    · rw [overlapOk_same_unit hunit hy4]
      rfl
    · split at hk
      · exact (Option.some.inj hk).symm
      · cases hk
  case winding =>
    intro m w hw
    refine ⟨fun hle => ?_, fun hge => ?_⟩
    · rw [Mx.next_of_last hw hle]
      exact ⟨rfl, rfl⟩
    · rw [Mx.next_of_more hw hge]
      exact ⟨rfl, rfl, rfl⟩
  case endWinding =>
    intro s t hrow hwind
    refine ⟨_, exec_msEnd_winding hrow hwind, ?_⟩
    rw [tile_mxNext]
    exact ⟨rfl, rfl, rfl⟩
  case record =>
    intro s t hrow hwind hlen hpending
    refine ⟨_, endPayload s t, exec_msEnd hrow hwind, ?_⟩
    rw [tile_ended hlen hpending]
    exact ⟨rfl, mem_ended s t, rfl, endPayload_mod s t, rfl⟩

end Sys2Proof.MatrixBlocks
end
